-- ==== Sys2Proof/Word.lean ====
section
/-! DEFINITION. The types of words: registers of 64 bits (R10), bytes, lane masks of 32 lanes (01_machine.md R10)
and owner labels. -/
namespace Sys2Proof

/-- A register or dword, 64 bits (R10). -/
abbrev Word := BitVec 64

/-- One byte of memory. -/
abbrev Byte := BitVec 8

/-- A lane mask: bit `l` stands for lane `l` (R10). -/
abbrev Mask := BitVec 32

/-- An owner label (R207): the owners, strictly rising.  The empty list is the public label. -/
abbrev Label := List Nat

end Sys2Proof
end

