-- ==== Sys2Proof/Machine/Bits.lean ====
section
/-! DEFINITION. Bit fields, sign extension, sub-elements, lanes, byte order, and the sparse collections. -/
namespace Sys2Proof.Machine

/-! ## Sparse collections -/

/-- The value at a key of a collection, if the key is listed. -/
def kget {β : Type} : List (Nat × β) → Nat → Option β
  | [], _ => none
  | (j, v) :: t, k => if j = k then some v else kget t k

/-- A collection with the key's value replaced or inserted in order. -/
def kset {β : Type} : List (Nat × β) → Nat → β → List (Nat × β)
  | [], k, v => [(k, v)]
  | (j, x) :: t, k, v =>
    if j = k then (k, v) :: t else if k < j then (k, v) :: (j, x) :: t else (j, x) :: kset t k v

/-- A collection without a key. -/
def kdel {β : Type} : List (Nat × β) → Nat → List (Nat × β)
  | [], _ => []
  | (j, x) :: t, k => if j = k then kdel t k else (j, x) :: kdel t k

/-- The value at a key; an unlisted key reads as the default. -/
def aget {β : Type} (d : β) (t : List (Nat × β)) (k : Nat) : β := (kget t k).getD d

/-- A write that keeps the canonical form: writing the default removes the key. -/
def aset {β : Type} [DecidableEq β] (d : β) (t : List (Nat × β)) (k : Nat) (v : β) : List (Nat × β) :=
  if v = d then kdel t k else kset t k v

/-- The first of `n` numbers from `i` that a test accepts. -/
def findNat (p : Nat → Bool) : Nat → Nat → Option Nat
  | _, 0 => none
  | i, n + 1 => if p i then some i else findNat p (i + 1) n

/-- A list's element, or the default beyond its end. -/
def nth {β : Type} (d : β) : List β → Nat → β
  | [], _ => d
  | x :: _, 0 => x
  | _ :: t, n + 1 => nth d t n

/-- A list with one element replaced; beyond its end nothing changes. -/
def setNth {β : Type} : List β → Nat → β → List β
  | [], _, _ => []
  | _ :: t, 0, v => v :: t
  | x :: t, n + 1, v => x :: setNth t n v

/-- A rising list of numbers with one inserted. -/
def insNat (x : Nat) : List Nat → List Nat
  | [] => [x]
  | y :: t => if x < y then x :: y :: t else if x = y then y :: t else y :: insNat x t

/-! ## Fields and extension -/

/-- Bits [lo + n - 1 : lo] of a dword as a number. -/
def bits (x : Word) (lo n : Nat) : Nat := x.toNat / 2 ^ lo % 2 ^ n

/-- One bit of a dword. -/
def bit (x : Word) (k : Nat) : Bool := x.getLsbD k

/-- The number a Boolean stands for. -/
def b2n (z : Bool) : Nat := if z then 1 else 0

/-- A dword from a number, modulo 2^64. -/
def wd (n : Nat) : Word := BitVec.ofNat 64 n

/-- A dword from an integer, modulo 2^64. -/
def wi (n : Int) : Word := BitVec.ofInt 64 n

/-- Zero extension of a field to a dword. -/
def zx {n : Nat} (x : BitVec n) : Word := x.zeroExtend 64

/-- Sign extension of a field to a dword. -/
def sx {n : Nat} (x : BitVec n) : Word := x.signExtend 64

/-- The width in bits of an element-width field w (R16). -/
def widthOf (w : BitVec 2) : Nat := 8 * 2 ^ w.toNat

/-- The low `n` bits as an unsigned number. -/
def uval (n : Nat) (x : Nat) : Nat := x % 2 ^ n

/-- The low `n` bits as a signed number. -/
def sval (n : Nat) (x : Nat) : Int :=
  if x % 2 ^ n < 2 ^ (n - 1) then (x % 2 ^ n : Nat) else ((x % 2 ^ n : Nat) : Int) - 2 ^ n

/-- An integer modulo 2^n. -/
def wrap (n : Nat) (i : Int) : Nat := (i % (2 ^ n : Nat)).toNat

/-- An integer clamped to an inclusive range. -/
def clampI (lo hi i : Int) : Int := if i < lo then lo else if hi < i then hi else i

/-- Sub-element `k` of width `n` of a dword (R16). -/
def elemOf (n k : Nat) (x : Word) : Nat := x.toNat / 2 ^ (n * k) % 2 ^ n

/-- The dword whose sub-elements of width `n` are listed from element 0 up (R16). -/
def packElems (n : Nat) : List Nat → Nat
  | [] => 0
  | e :: t => e % 2 ^ n + 2 ^ n * packElems n t

/-- Each sub-element of a dword computed independently (R16). -/
def mapElems (n : Nat) (f : Nat → Nat) (x : Word) : Word :=
  wd (packElems n ((List.range (64 / n)).map fun k => f (elemOf n k x)))

/-- Each sub-element of two dwords computed independently (R16). -/
def zipElems (n : Nat) (f : Nat → Nat → Nat) (x y : Word) : Word :=
  wd (packElems n ((List.range (64 / n)).map fun k => f (elemOf n k x) (elemOf n k y)))

/-- Each sub-element of three dwords computed independently (R16). -/
def zip3Elems (n : Nat) (f : Nat → Nat → Nat → Nat) (x y z : Word) : Word :=
  wd (packElems n ((List.range (64 / n)).map fun k => f (elemOf n k x) (elemOf n k y) (elemOf n k z)))

/-- Number of leading zeros of the low `n` bits. -/
def clz (n : Nat) (x : Nat) : Nat := if x % 2 ^ n = 0 then n else n - 1 - Nat.log2 (x % 2 ^ n)

/-- Number of ones in the low `n` bits. -/
def popcount : Nat → Nat → Nat
  | 0, _ => 0
  | n + 1, x => x % 2 + popcount n (x / 2)

/-! ## Lanes -/

/-- The lanes of a mask from `i` on, in increasing order (R38). -/
def lanesFrom (m : Mask) : Nat → Nat → List Nat
  | _, 0 => []
  | i, n + 1 => if m.getLsbD i then i :: lanesFrom m (i + 1) n else lanesFrom m (i + 1) n

/-- The lanes of a mask, in increasing order (R38). -/
def lanesOf (m : Mask) : List Nat := lanesFrom m 0 32

/-- The mask of one lane. -/
def laneBit (l : Nat) : Mask := 1#32 <<< l

/-- The mask of a list of lanes. -/
def maskOf : List Nat → Mask
  | [] => 0
  | l :: t => laneBit l ||| maskOf t

/-- The lowest lane of a mask, 0 for the empty mask. -/
def lowLane (m : Mask) : Nat := (lanesOf m).headD 0

/-! ## Byte order: memory is little-endian -/

/-- The `n` bytes of a number, lowest first. -/
def toBytes : Nat → Nat → List Byte
  | 0, _ => []
  | n + 1, x => BitVec.ofNat 8 x :: toBytes n (x / 256)

/-- The number that bytes hold, lowest first. -/
def ofBytes : List Byte → Nat
  | [] => 0
  | b :: t => b.toNat + 256 * ofBytes t

/-- The dword at byte offset `o` of a list of bytes. -/
def dwordAt (bs : List Byte) (o : Nat) : Word := wd (ofBytes ((bs.drop o).take 8))

/-- The number in `n` bytes at offset `o`. -/
def numAt (bs : List Byte) (o n : Nat) : Nat := ofBytes ((bs.drop o).take n)

end Sys2Proof.Machine
end

