-- ==== Sys2Proof/Config.lean ====
section
/-! DEFINITION. What is fixed for the machine: the figures of R10 that are architectural, and the free values,
which the specification leaves open and nothing here constrains (log entry 1). -/
namespace Sys2Proof.Config

/-- Cores of the module (R7). -/
def cores : Nat := 640

/-- Warp slots of a core (R8). -/
def warpSlots : Nat := 32

/-- Bytes of one Gallery slice (R10). -/
def sliceBytes : Nat := 0x100000

/-- Bytes of a Gallery granule (R11's glossary term: 64 adjacent bytes with one label). -/
def granule : Nat := 64

/-- Hardware queues (R55). -/
def queues : Nat := 4096

/-- Address-space identifiers (R394). -/
def asids : Nat := 8192

/-- Label handles of an ASID: the 12-bit handles 0 to 4095 (R207). -/
def handles : Nat := 4096

/-- Owners a label holds at most (R207). -/
def maxOwners : Nat := 8

/-- Memory controllers: 12 HBM4E stacks and 4 LPDDR6 controllers (R393). -/
def controllers : Nat := 16

/-- Llynyo ports (R393). -/
def ports : Nat := 18

/-- A free 64-bit value (log entry 1): a cycle count, random bits, a measurement.  No value of it is ever chosen. -/
opaque freeWord : Nat → Word

/-- A free truth value (log entry 1): a choice the specification leaves to the device. -/
opaque freeBool : Nat → Bool

/-- A free 64-bit value that is the same wherever the same words ask for it (log entry 1): what the specification does not
state, of an operation that R2 makes the same on every run. -/
opaque fixedWord : List Word → Word

/-- What a byte of main memory whose controller is contained holds when it is read (R400): damaged data, not stated (log
entry 1). -/
opaque damagedByte : Nat → Byte

/-- Where the n-th page table that the Lantern pair takes for its pointers stands in protected main memory (R395), in units of
64 KiB: not stated (log entry 1). -/
opaque tableFrame : Nat → Nat

/-- The memory controller whose channels hold a physical address: the driver's and the board's choice (R313), not
stated by the specification (log entry 1). -/
opaque controllerOf : Nat → Nat

/-- The SPDM versions that the capability list's SECURITY record reports (R391), not stated (log entry 1). -/
opaque spdmVersions : Nat → Nat

/-- The measurements that GET_MEASUREMENTS reports (R404): 0 the ROM, 1 the Lantern firmware, 2 the Grotto monitor image, 3
and 4 the fuse configuration without and with the test fuse; not stated (log entry 1). -/
opaque measurement : Nat → Word

end Sys2Proof.Config
end

