-- ==== Sys2Proof/Syntax.lean ====
section
/-! DEFINITION. The instructions: one constructor for every row of the opcode table.
An encoded instruction holds the fields of its word, raw, under the table's own letters (02_encoding.md
R14, R19; `z` is the boundary bit B of R12, on the rows where it is free).  A row without an encoding is a step
of a device; its constructor holds which unit acts and the outcomes the machine itself does not decide; a mailbox or debug
command takes its operands from the registers the driver wrote.  The constructors without fields stand last. -/
namespace Sys2Proof

/-- A word of a core's storage that ECC protects (R369): a warp slot's register (file V with a lane, G, P, M), an element of a
physical tile, a granule of the slice, and with it the stack cache over it (R178), a warp slot's phase-buffer entry for a
granule, a granule of the snapshot. -/
inductive Store where
  | v (slot r lane : Nat)
  | g (slot r : Nat)
  | p (slot r : Nat)
  | m (slot r : Nat)
  | tile (t elem : Nat)
  | granule (n : Nat)
  | phase (slot gran : Nat)
  | snap (gran : Nat)
  deriving DecidableEq, Repr

/-- A word whose code is found in error (R5, R369): where it stands, and whether the code cannot correct it. -/
structure EccHit where
  loc : Store
  bad : Bool
  deriving DecidableEq, Repr

/-- What a corrected flit carries (R224, R407): whether its MAC matches, and the ASID, the label handle and the ACL handle of the
sender. -/
structure Flit where
  macOk : Bool
  asid : Nat
  label : Nat
  acl : Nat
  deriving DecidableEq, Repr

/-- The end of an attestation (R224, R403): whether it succeeded, and the handle tables that the two sides exchange: the owner
set of each of the peer's label handles, and the handle here of each of its ACL handles. -/
structure Attested where
  ok : Bool
  labels : List (Nat × List Nat)
  acls : List (Nat × Nat)
  deriving DecidableEq, Repr

inductive Instr where
  /-- CLAUSE_HEADER (R23): Opens a clause: the whole clause is decoded and the wait mask tested, then the quadrant grants the ready warp and runs the clause to its boundary instruction. -/
  | clauseHeader (w : BitVec 12) (a : BitVec 4) (b : BitVec 4) (s : BitVec 1)
  /-- LONG_LATENCY_COMPLETE (R27): A long-latency operation completes, writes its destination and clears its flag, possibly with a damage or fault mark. -/
  | longLatencyComplete (w : Nat) (n : Nat)
  /-- PARK_WAKE (R153): A write at the home bank to a watched granule makes the parked lane groups eligible again. -/
  | parkWake (w : Nat)
  /-- ATOMIC_PERFORM (R231): An atomic lane operation is read, computed and written at its home bank as one action, waking parked groups. -/
  | atomicPerform (w : Nat) (n : Nat)
  /-- BARRIER_WAIT_END (R243): A warp waiting at BAR or BARW resumes after its phase completes and performs its acquire. -/
  | barrierWaitEnd (w : Nat)
  /-- WAITSEQ_OBSERVE (R326): A waiting WAITSEQ observes its target sequence or a halt and acquires or traps. -/
  | waitseqObserve (w : Nat)
  /-- RING_PUSH_ADMIT (R238): A waiting push is admitted when a slot is free and the allowance permits, and the word is pushed. -/
  | ringPushAdmit (w : Nat) (n : Nat)
  /-- RING_POP_TAKE (R237): A waiting pop takes slot TAKE once it is full and performs its acquire. -/
  | ringPopTake (w : Nat) (n : Nat)
  /-- TILE_ALLOCATE (R255): A waiting TZERO or TLDA binds a freed physical accumulator tile, in arbiter order. -/
  | tileAllocate (c : Nat)
  /-- TILE_EXECUTE (R258): The matrix engine executes one tile instruction of a warp in program order and clears its flag. -/
  | tileExecute (c : Nat)
  /-- FLOWSTONE_GROUP_EXECUTE (R289): The matrix engine executes a rewritten group as one unit, saving tile state and committing at its first Gallery write. -/
  | flowstoneGroupExecute (c : Nat)
  /-- HELD_REQUEST_ACCEPT (R377): A held ETAIL, RULELD or RULEOFF is accepted once its resource frees, in program order. -/
  | heldRequestAccept (w : Nat)
  /-- LAUNCH_RECORD_COPY (R72): A LAUNCH waiting for a free slot has its record copied into the slot and receives its verdict. -/
  | launchRecordCopy (w : Nat) (n : Nat)
  /-- DOORBELL_WRITE (R55): A doorbell write carries a queue's TAIL to the placement front end, or is dropped or sets OVF. -/
  | doorbellWrite (q : Nat) (v : Word)
  /-- QUEUE_ENABLE_WRITE (R55): Writing EN = 0 then EN = 1 discards the queue's records, zeroes HEAD and TAIL and clears QSTAT. -/
  | queueEnableWrite (q : Nat) (ring : Word) (ctl : Word) (coreMask : BitVec 640)
  /-- ENQUEUE_VERDICT (R59): The placement front end tests a queued record in order and completes refused launches at once. -/
  | enqueueVerdict (q : Nat)
  /-- LAUNCH_ELIGIBLE (R56): A launch at the head of its queue becomes eligible when its dependence entries are met, or completes with DEPEND. -/
  | launchEligible (q : Nat)
  /-- BLOCK_PLACE (R57): A placement unit places the next block of an eligible launch on a free core of the mask. -/
  | blockPlace (l : Nat) (cores : List Nat)
  /-- WINDOW_STAGING (R61): The scheduler clears a block's window, stages its in regions with ACL checks, and starts its warps. -/
  | windowStaging (l : Nat) (g : Nat)
  /-- BLOCK_RETIRE (R63): A block whose warps have exited and completed retires and writes back its out regions. -/
  | blockRetire (l : Nat) (b : Nat)
  /-- LAUNCH_COMPLETE (R65): A launch completes and max-writes its completion word, or writes a KIND 4 sump record. -/
  | launchComplete (l : Nat)
  /-- TRAP_NOTICE (R359): The Grotto monitor serves a warp's trap notice and decides delivery, stop, kill or resume. -/
  | trapNotice (c : Nat)
  /-- DAMAGE_SNAPSHOT (R370): Once frozen, the monitor snapshots the damage, kills the consuming gang and resumes the others. -/
  | damageSnapshot (k : Nat)
  /-- GANG_RELAUNCH (R368): A killed gang that has not published beyond itself is relaunched once on the same cores. -/
  | gangRelaunch (l : Nat) (g : Nat)
  /-- CORE_SELF_TEST (R371): After a lasting fault the monitor runs the core self-test and fences a failing core. -/
  | coreSelfTest (c : Nat) (failed : Bool)
  /-- ECC_CORRECT (R369): A correctable ECC error is corrected, counted and logged. -/
  | eccCorrect (c : Nat) (hit : EccHit)
  /-- LATE_TRANSITION_REPLAY (R373): A shadow-latch detector flags a late transition and the core replays that cycle at half clock. -/
  | lateTransitionReplay (c : Nat) (again : Bool)
  /-- PREEMPT_REQUEST (R375): Writing PCTL REQ = 1 requests pre-emption of a partition. -/
  | preemptRequest (p : Nat)
  /-- RESUME_REQUEST (R381): Writing PCTL REQ = 2 requests resumption of a saved partition. -/
  | resumeRequest (p : Nat)
  /-- CORE_SWAP (R380): Once all warps stop and work drains, the core exchanges its live and shadow planes in one action. -/
  | coreSwap (c : Nat)
  /-- CONTEXT_SAVE_MOVE (R380): The outgoing context is moved to the save area in the background and sealed with its GMAC tag. -/
  | contextSaveMove (c : Nat)
  /-- CONTEXT_RESUME_LOAD (R381): A saved context is tag-checked, loaded into the shadow planes and swapped in. -/
  | contextResumeLoad (p : Nat) (c : Nat) (tagOk : Bool)
  /-- ECHO_COMPARE (R341): When every live replica has sent an event signature, Echo compares and commits, votes or mismatches. -/
  | echoCompare (l : Nat) (b : Nat) (w : Nat)
  /-- ONCE_OP_RENDEZVOUS (R345): When every live replica has issued a once-performed operation, Echo compares and performs it once. -/
  | onceOpRendezvous (l : Nat) (b : Nat) (w : Nat)
  /-- ECHO_STRAGGLER (R350): A replica 2^24 cycles late at an event is treated as disagreeing. -/
  | echoStraggler (l : Nat) (b : Nat) (w : Nat)
  /-- RECLONE (R351): After a vote loss the monitor copies the committing replica's state into the lost replica's cores. -/
  | reclone (l : Nat) (g : Nat) (r : Nat)
  /-- ENGINE_CHUNK (R311): A siphon engine performs one chunk of a chain entry after translation, bounds and label checks. -/
  | engineChunk (ch : Nat) (e : Nat) (failures : Nat)
  /-- MIGR (R316): An engine migrates a page between tiers piece by piece and switches its page table entry. -/
  | migr (m : Nat)
  /-- HPT_EPOCH_END (R314): At the end of each epoch the hot-page tracker proposes promotions and demotions. -/
  | hptEpochEnd (m : Nat)
  /-- ROW_HAMMER_THROTTLE (R317): A row whose activations reach the threshold in a refresh window is throttled. -/
  | rowHammerThrottle (m : Nat) (row : Nat)
  /-- CA_PARITY_ALERT (R400): An HBM4E command parity alert rewinds and replays the command history, or contains the controller on a second alert. -/
  | caParityAlert (m : Nat) (again : Bool)
  /-- COLLECTIVE_CHUNK (R322): A collective engine starts the next ready 64 KiB chunk of the highest-priority communicator. -/
  | collectiveChunk (comm : Nat)
  /-- FLIT_RECEIVE (R407): A receiving port corrects a flit, checks its MAC and delivers, retries or quarantines. -/
  | flitReceive (k : Nat) (correctable : Bool) (flit : Flit)
  /-- LINK_KEY_UPDATE_REQUEST (R408): At 2^40 invocations a port requests a key update. -/
  | linkKeyUpdateRequest (k : Nat)
  /-- LINK_KEY_STALL (R408): At 2^44 invocations traffic under the key stalls until the new key is installed. -/
  | linkKeyStall (k : Nat)
  /-- PORT_ATTEST (R403): A trained port is attested by SPDM, keyed and brought up. -/
  | portAttest (k : Nat) (peer : Nat) (result : Attested)
  /-- COMM_TABLE_WRITE (R318): A driver write to the communicator table is applied or discarded with COMMERR set. -/
  | commTableWrite (off : Nat) (v : Word)
  /-- REGISTER_WRITE (R393): A driver write to a BAR0 register with no row of its own, discarded where its rule forbids it. -/
  | registerWrite (off : Nat) (v : Word)
  /-- VADD (R96): Per-lane wrapping add. -/
  | vadd (z : Bool) (g : BitVec 3) (d : BitVec 6) (a : BitVec 6) (b : BitVec 6) (w : BitVec 2)
  /-- VADDS_S (R96): Per-lane signed saturating add. -/
  | vaddsS (z : Bool) (g : BitVec 3) (d : BitVec 6) (a : BitVec 6) (b : BitVec 6) (w : BitVec 2)
  /-- VADDS_Z (R96): Per-lane unsigned saturating add. -/
  | vaddsZ (z : Bool) (g : BitVec 3) (d : BitVec 6) (a : BitVec 6) (b : BitVec 6) (w : BitVec 2)
  /-- VSUB (R96): Per-lane wrapping subtract. -/
  | vsub (z : Bool) (g : BitVec 3) (d : BitVec 6) (a : BitVec 6) (b : BitVec 6) (w : BitVec 2)
  /-- VSUBS_S (R96): Per-lane signed saturating subtract. -/
  | vsubsS (z : Bool) (g : BitVec 3) (d : BitVec 6) (a : BitVec 6) (b : BitVec 6) (w : BitVec 2)
  /-- VSUBS_Z (R96): Per-lane unsigned saturating subtract. -/
  | vsubsZ (z : Bool) (g : BitVec 3) (d : BitVec 6) (a : BitVec 6) (b : BitVec 6) (w : BitVec 2)
  /-- VMUL (R97): Per-lane low multiply. -/
  | vmul (z : Bool) (g : BitVec 3) (d : BitVec 6) (a : BitVec 6) (b : BitVec 6) (w : BitVec 2)
  /-- VMULH_S (R97): Per-lane signed high multiply. -/
  | vmulhS (z : Bool) (g : BitVec 3) (d : BitVec 6) (a : BitVec 6) (b : BitVec 6) (w : BitVec 2)
  /-- VMULH_Z (R97): Per-lane unsigned high multiply. -/
  | vmulhZ (z : Bool) (g : BitVec 3) (d : BitVec 6) (a : BitVec 6) (b : BitVec 6) (w : BitVec 2)
  /-- VMAD (R97): Per-lane multiply-add into Vd. -/
  | vmad (z : Bool) (g : BitVec 3) (d : BitVec 6) (a : BitVec 6) (b : BitVec 6) (w : BitVec 2)
  /-- VDOT4_S8 (R98): Per-lane signed byte dot products accumulated into 32-bit sums. -/
  | vdot4S8 (z : Bool) (g : BitVec 3) (d : BitVec 6) (a : BitVec 6) (b : BitVec 6)
  /-- VAND (R99): Per-lane bitwise AND. -/
  | vand (z : Bool) (g : BitVec 3) (d : BitVec 6) (a : BitVec 6) (b : BitVec 6)
  /-- VOR (R99): Per-lane bitwise OR. -/
  | vor (z : Bool) (g : BitVec 3) (d : BitVec 6) (a : BitVec 6) (b : BitVec 6)
  /-- VXOR (R99): Per-lane bitwise XOR. -/
  | vxor (z : Bool) (g : BitVec 3) (d : BitVec 6) (a : BitVec 6) (b : BitVec 6)
  /-- VSHL (R100): Per-lane shift left. -/
  | vshl (z : Bool) (g : BitVec 3) (d : BitVec 6) (a : BitVec 6) (b : BitVec 6) (w : BitVec 2)
  /-- VSHR (R100): Per-lane logical shift right. -/
  | vshr (z : Bool) (g : BitVec 3) (d : BitVec 6) (a : BitVec 6) (b : BitVec 6) (w : BitVec 2)
  /-- VSAR (R100): Per-lane arithmetic shift right. -/
  | vsar (z : Bool) (g : BitVec 3) (d : BitVec 6) (a : BitVec 6) (b : BitVec 6) (w : BitVec 2)
  /-- VMIN_S (R101): Per-lane signed minimum. -/
  | vminS (z : Bool) (g : BitVec 3) (d : BitVec 6) (a : BitVec 6) (b : BitVec 6) (w : BitVec 2)
  /-- VMIN_Z (R101): Per-lane unsigned minimum. -/
  | vminZ (z : Bool) (g : BitVec 3) (d : BitVec 6) (a : BitVec 6) (b : BitVec 6) (w : BitVec 2)
  /-- VMAX_S (R101): Per-lane signed maximum. -/
  | vmaxS (z : Bool) (g : BitVec 3) (d : BitVec 6) (a : BitVec 6) (b : BitVec 6) (w : BitVec 2)
  /-- VMAX_Z (R101): Per-lane unsigned maximum. -/
  | vmaxZ (z : Bool) (g : BitVec 3) (d : BitVec 6) (a : BitVec 6) (b : BitVec 6) (w : BitVec 2)
  /-- VSEL (R102): Per-lane select by predicate. -/
  | vsel (z : Bool) (p : BitVec 3) (d : BitVec 6) (a : BitVec 6) (b : BitVec 6)
  /-- VSHUF_L (R103): Warp-wide lane shuffle. -/
  | vshufL (z : Bool) (g : BitVec 3) (d : BitVec 6) (a : BitVec 6) (b : BitVec 6)
  /-- VSHUF_E (R104): Per-lane sub-element shuffle. -/
  | vshufE (z : Bool) (g : BitVec 3) (d : BitVec 6) (a : BitVec 6) (b : BitVec 6) (w : BitVec 2)
  /-- VCMP (R105): Per-lane integer compare into a predicate. -/
  | vcmp (z : Bool) (g : BitVec 3) (p : BitVec 3) (c : BitVec 3) (a : BitVec 6) (b : BitVec 6) (w : BitVec 2)
  /-- VMOVI (R106): Per-lane immediate into every element. -/
  | vmovi (z : Bool) (g : BitVec 3) (d : BitVec 6) (i : BitVec 12) (w : BitVec 2)
  /-- VMOV (R107): Per-lane register copy. -/
  | vmov (z : Bool) (g : BitVec 3) (d : BitVec 6) (a : BitVec 6)
  /-- VNOT (R107): Per-lane bitwise complement. -/
  | vnot (z : Bool) (g : BitVec 3) (d : BitVec 6) (a : BitVec 6)
  /-- VABS (R107): Per-lane element magnitude. -/
  | vabs (z : Bool) (g : BitVec 3) (d : BitVec 6) (a : BitVec 6) (w : BitVec 2)
  /-- VCLZ (R107): Per-lane count of leading zeros. -/
  | vclz (z : Bool) (g : BitVec 3) (d : BitVec 6) (a : BitVec 6) (w : BitVec 2)
  /-- VPOP (R107): Per-lane population count. -/
  | vpop (z : Bool) (g : BitVec 3) (d : BitVec 6) (a : BitVec 6) (w : BitVec 2)
  /-- VEXT_S (R107): Per-lane sign-extend to double width. -/
  | vextS (z : Bool) (g : BitVec 3) (d : BitVec 6) (a : BitVec 6) (w : BitVec 2)
  /-- VEXT_Z (R107): Per-lane zero-extend to double width. -/
  | vextZ (z : Bool) (g : BitVec 3) (d : BitVec 6) (a : BitVec 6) (w : BitVec 2)
  /-- VNAR (R107): Per-lane narrow to half width. -/
  | vnar (z : Bool) (g : BitVec 3) (d : BitVec 6) (a : BitVec 6) (w : BitVec 2)
  /-- VNARS (R107): Per-lane signed saturating narrow. -/
  | vnars (z : Bool) (g : BitVec 3) (d : BitVec 6) (a : BitVec 6) (w : BitVec 2)
  /-- VBCAST (R107): Broadcast a G register into every active lane. -/
  | vbcast (z : Bool) (g : BitVec 3) (d : BitVec 6) (a : BitVec 6)
  /-- VRED (R108): Warp reduction by a fixed lane-index tree. -/
  | vred (z : Bool) (g : BitVec 3) (d : BitVec 6) (a : BitVec 6) (o : BitVec 6) (w : BitVec 2)
  /-- VSCAN (R108): Warp inclusive scan by a fixed tree. -/
  | vscan (z : Bool) (g : BitVec 3) (d : BitVec 6) (a : BitVec 6) (o : BitVec 6) (w : BitVec 2)
  /-- VFADD (R128): Per-lane floating add, rounded once. -/
  | vfadd (z : Bool) (g : BitVec 3) (d : BitVec 6) (a : BitVec 6) (b : BitVec 6) (w : BitVec 2)
  /-- VFSUB (R128): Per-lane floating subtract. -/
  | vfsub (z : Bool) (g : BitVec 3) (d : BitVec 6) (a : BitVec 6) (b : BitVec 6) (w : BitVec 2)
  /-- VFMUL (R128): Per-lane floating multiply. -/
  | vfmul (z : Bool) (g : BitVec 3) (d : BitVec 6) (a : BitVec 6) (b : BitVec 6) (w : BitVec 2)
  /-- VFMA (R128): Per-lane fused multiply-add. -/
  | vfma (z : Bool) (g : BitVec 3) (d : BitVec 6) (a : BitVec 6) (b : BitVec 6) (w : BitVec 2)
  /-- VFMIN (R129): Per-lane minimumNumber. -/
  | vfmin (z : Bool) (g : BitVec 3) (d : BitVec 6) (a : BitVec 6) (b : BitVec 6) (w : BitVec 2)
  /-- VFMAX (R129): Per-lane maximumNumber. -/
  | vfmax (z : Bool) (g : BitVec 3) (d : BitVec 6) (a : BitVec 6) (b : BitVec 6) (w : BitVec 2)
  /-- VFCMP (R130): Per-lane floating compare into a predicate. -/
  | vfcmp (z : Bool) (g : BitVec 3) (p : BitVec 3) (c : BitVec 3) (a : BitVec 6) (b : BitVec 6) (w : BitVec 2)
  /-- VFABS (R131): Per-lane clear of the sign bit. -/
  | vfabs (z : Bool) (g : BitVec 3) (d : BitVec 6) (a : BitVec 6) (w : BitVec 2)
  /-- VFNEG (R131): Per-lane inversion of the sign bit. -/
  | vfneg (z : Bool) (g : BitVec 3) (d : BitVec 6) (a : BitVec 6) (w : BitVec 2)
  /-- VRCP (R132): Correctly rounded reciprocal. -/
  | vrcp (z : Bool) (g : BitVec 3) (d : BitVec 6) (a : BitVec 6) (f : BitVec 1)
  /-- VRSQ (R132): Correctly rounded reciprocal square root. -/
  | vrsq (z : Bool) (g : BitVec 3) (d : BitVec 6) (a : BitVec 6) (f : BitVec 1)
  /-- VEXP2 (R132): Correctly rounded power of two. -/
  | vexp2 (z : Bool) (g : BitVec 3) (d : BitVec 6) (a : BitVec 6) (f : BitVec 1)
  /-- VLOG2 (R132): Correctly rounded base-2 logarithm. -/
  | vlog2 (z : Bool) (g : BitVec 3) (d : BitVec 6) (a : BitVec 6) (f : BitVec 1)
  /-- VCVT (R134): Per-lane format conversion selected by the minor. -/
  | vcvt (z : Bool) (g : BitVec 3) (d : BitVec 6) (a : BitVec 6) (m : BitVec 6)
  /-- VPACK6 (R137): Pack eight FP6 elements into two 24-bit groups. -/
  | vpack6 (z : Bool) (g : BitVec 3) (d : BitVec 6) (a : BitVec 6)
  /-- VUNPK6 (R138): Unpack two 24-bit groups into eight FP6 bytes. -/
  | vunpk6 (z : Bool) (g : BitVec 3) (d : BitVec 6) (a : BitVec 6)
  /-- VQB4 (R139): Quantise eight FP32 values to an FP4 block with its scale. -/
  | vqb4 (z : Bool) (g : BitVec 3) (d : BitVec 6) (a : BitVec 4)
  /-- VDQB4 (R140): Expand an FP4 block to eight FP32 values. -/
  | vdqb4 (z : Bool) (g : BitVec 3) (d : BitVec 4) (a : BitVec 6)
  /-- VLD_S8 (R197): Per-lane sign-extended byte load. -/
  | vldS8 (z : Bool) (g : BitVec 3) (t : BitVec 6) (b : BitVec 4) (i : BitVec 4) (d : BitVec 5) (f : BitVec 1)
  /-- VLD_Z8 (R197): Per-lane zero-extended byte load. -/
  | vldZ8 (z : Bool) (g : BitVec 3) (t : BitVec 6) (b : BitVec 4) (i : BitVec 4) (d : BitVec 5) (f : BitVec 1)
  /-- VLD_S16 (R197): Per-lane sign-extended halfword load. -/
  | vldS16 (z : Bool) (g : BitVec 3) (t : BitVec 6) (b : BitVec 4) (i : BitVec 4) (d : BitVec 5) (f : BitVec 1)
  /-- VLD_Z16 (R197): Per-lane zero-extended halfword load. -/
  | vldZ16 (z : Bool) (g : BitVec 3) (t : BitVec 6) (b : BitVec 4) (i : BitVec 4) (d : BitVec 5) (f : BitVec 1)
  /-- VLD_32 (R197): Per-lane word load. -/
  | vld32 (z : Bool) (g : BitVec 3) (t : BitVec 6) (b : BitVec 4) (i : BitVec 4) (d : BitVec 5) (f : BitVec 1)
  /-- VLD_64 (R197): Per-lane dword load. -/
  | vld64 (z : Bool) (g : BitVec 3) (t : BitVec 6) (b : BitVec 4) (i : BitVec 4) (d : BitVec 5) (f : BitVec 1)
  /-- VST_8 (R198): Per-lane byte store with label check. -/
  | vst8 (z : Bool) (g : BitVec 3) (t : BitVec 6) (b : BitVec 4) (i : BitVec 4) (d : BitVec 5)
  /-- VST_16 (R198): Per-lane halfword store. -/
  | vst16 (z : Bool) (g : BitVec 3) (t : BitVec 6) (b : BitVec 4) (i : BitVec 4) (d : BitVec 5)
  /-- VST_32 (R198): Per-lane word store. -/
  | vst32 (z : Bool) (g : BitVec 3) (t : BitVec 6) (b : BitVec 4) (i : BitVec 4) (d : BitVec 5)
  /-- VST_64 (R198): Per-lane dword store. -/
  | vst64 (z : Bool) (g : BitVec 3) (t : BitVec 6) (b : BitVec 4) (i : BitVec 4) (d : BitVec 5)
  /-- ATOM (R244): Per-lane integer atomic without return. -/
  | atom (z : Bool) (g : BitVec 3) (t : BitVec 6) (b : BitVec 4) (i : BitVec 4) (o : BitVec 4) (s : BitVec 1)
  /-- ATOMR (R244): Per-lane integer atomic returning the old value. -/
  | atomr (z : Bool) (g : BitVec 3) (t : BitVec 6) (b : BitVec 4) (i : BitVec 4) (o : BitVec 4) (s : BitVec 1) (f : BitVec 1)
  /-- ATOM_XADD (R245): Exact add of an FP32 value into a WFX cell. -/
  | atomXadd (z : Bool) (g : BitVec 3) (t : BitVec 6) (b : BitVec 4) (i : BitVec 4)
  /-- XCLR (R245): Empty a WFX cell. -/
  | xclr (z : Bool) (g : BitVec 3) (b : BitVec 4) (i : BitVec 4)
  /-- XRND (R246): Read a WFX cell rounded once to FP32. -/
  | xrnd (z : Bool) (g : BitVec 3) (t : BitVec 6) (b : BitVec 4) (i : BitVec 4) (f : BitVec 1)
  /-- GADD (R82): Uniform add. -/
  | gadd (z : Bool) (d : BitVec 6) (a : BitVec 6) (b : BitVec 6)
  /-- GADD_IMM (R82): Uniform add of a signed 11-bit immediate. -/
  | gaddImm (z : Bool) (d : BitVec 6) (a : BitVec 6) (i : BitVec 11)
  /-- GSUB (R82): Uniform subtract. -/
  | gsub (z : Bool) (d : BitVec 6) (a : BitVec 6) (b : BitVec 6)
  /-- GMUL (R82): Uniform low multiply. -/
  | gmul (z : Bool) (d : BitVec 6) (a : BitVec 6) (b : BitVec 6)
  /-- GMULH_S (R82): Uniform signed high multiply. -/
  | gmulhS (z : Bool) (d : BitVec 6) (a : BitVec 6) (b : BitVec 6)
  /-- GMULH_Z (R82): Uniform unsigned high multiply. -/
  | gmulhZ (z : Bool) (d : BitVec 6) (a : BitVec 6) (b : BitVec 6)
  /-- GMAD (R82): Uniform multiply-add into Gd. -/
  | gmad (z : Bool) (d : BitVec 6) (a : BitVec 6) (b : BitVec 6)
  /-- GDIV_S (R83): Uniform signed division. -/
  | gdivS (z : Bool) (d : BitVec 6) (a : BitVec 6) (b : BitVec 6)
  /-- GDIV_Z (R83): Uniform unsigned division. -/
  | gdivZ (z : Bool) (d : BitVec 6) (a : BitVec 6) (b : BitVec 6)
  /-- GREM_S (R83): Uniform signed remainder. -/
  | gremS (z : Bool) (d : BitVec 6) (a : BitVec 6) (b : BitVec 6)
  /-- GREM_Z (R83): Uniform unsigned remainder. -/
  | gremZ (z : Bool) (d : BitVec 6) (a : BitVec 6) (b : BitVec 6)
  /-- GAND (R84): Uniform bitwise AND. -/
  | gand (z : Bool) (d : BitVec 6) (a : BitVec 6) (b : BitVec 6)
  /-- GOR (R84): Uniform bitwise OR. -/
  | gor (z : Bool) (d : BitVec 6) (a : BitVec 6) (b : BitVec 6)
  /-- GXOR (R84): Uniform bitwise XOR. -/
  | gxor (z : Bool) (d : BitVec 6) (a : BitVec 6) (b : BitVec 6)
  /-- GNOT (R84): Uniform bitwise complement. -/
  | gnot (z : Bool) (d : BitVec 6) (a : BitVec 6)
  /-- GSHL (R85): Uniform shift left. -/
  | gshl (z : Bool) (d : BitVec 6) (a : BitVec 6) (b : BitVec 6)
  /-- GSHR (R85): Uniform logical shift right. -/
  | gshr (z : Bool) (d : BitVec 6) (a : BitVec 6) (b : BitVec 6)
  /-- GSAR (R85): Uniform arithmetic shift right. -/
  | gsar (z : Bool) (d : BitVec 6) (a : BitVec 6) (b : BitVec 6)
  /-- GROT (R85): Uniform rotate left. -/
  | grot (z : Bool) (d : BitVec 6) (a : BitVec 6) (b : BitVec 6)
  /-- GMIN_S (R86): Uniform signed minimum. -/
  | gminS (z : Bool) (d : BitVec 6) (a : BitVec 6) (b : BitVec 6)
  /-- GMIN_Z (R86): Uniform unsigned minimum. -/
  | gminZ (z : Bool) (d : BitVec 6) (a : BitVec 6) (b : BitVec 6)
  /-- GMAX_S (R86): Uniform signed maximum. -/
  | gmaxS (z : Bool) (d : BitVec 6) (a : BitVec 6) (b : BitVec 6)
  /-- GMAX_Z (R86): Uniform unsigned maximum. -/
  | gmaxZ (z : Bool) (d : BitVec 6) (a : BitVec 6) (b : BitVec 6)
  /-- GMOV (R87): Uniform register copy. -/
  | gmov (z : Bool) (d : BitVec 6) (a : BitVec 6)
  /-- GCLZ (R87): Uniform count of leading zeros. -/
  | gclz (z : Bool) (d : BitVec 6) (a : BitVec 6)
  /-- GPOP (R87): Uniform population count. -/
  | gpop (z : Bool) (d : BitVec 6) (a : BitVec 6)
  /-- GBFX_S (R89): Signed bit-field extract. -/
  | gbfxS (z : Bool) (d : BitVec 6) (a : BitVec 6) (b : BitVec 6)
  /-- GBFX_Z (R89): Unsigned bit-field extract. -/
  | gbfxZ (z : Bool) (d : BitVec 6) (a : BitVec 6) (b : BitVec 6)
  /-- GBFI (R89): Bit-field insert. -/
  | gbfi (z : Bool) (d : BitVec 6) (a : BitVec 6) (b : BitVec 6)
  /-- GMOVI (R90): Load a signed 17-bit immediate. -/
  | gmovi (z : Bool) (d : BitVec 6) (i : BitVec 17)
  /-- GMOVH (R90): Shift Gd left 16 and insert an immediate. -/
  | gmovh (z : Bool) (d : BitVec 6) (i : BitVec 16)
  /-- GLEA (R91): Scaled address add. -/
  | glea (z : Bool) (d : BitVec 6) (a : BitVec 6) (b : BitVec 6) (s : BitVec 2)
  /-- GCMP (R92): Uniform compare to 0 or 1. -/
  | gcmp (z : Bool) (d : BitVec 6) (a : BitVec 6) (b : BitVec 6) (c : BitVec 5)
  /-- GSEL (R93): Uniform select on Gc. -/
  | gsel (z : Bool) (d : BitVec 6) (a : BitVec 6) (b : BitVec 6) (c : BitVec 5)
  /-- GRDL (R94): Read one lane of a V register into a G register. -/
  | grdl (z : Bool) (d : BitVec 6) (a : BitVec 6) (b : BitVec 6)
  /-- GWRL (R94): Write a G register into one lane of a V register. -/
  | gwrl (z : Bool) (d : BitVec 6) (a : BitVec 6) (b : BitVec 6)
  /-- GBAL (R95): Ballot a predicate into a lane mask. -/
  | gbal (z : Bool) (d : BitVec 3) (a : BitVec 3)
  /-- GPOPM (R95): Count set bits of a lane mask. -/
  | gpopm (z : Bool) (d : BitVec 6) (a : BitVec 3)
  /-- GFFS (R95): Find the lowest set bit of a lane mask. -/
  | gffs (z : Bool) (d : BitVec 6) (a : BitVec 3)
  /-- BRA (R158): Guarded per-lane branch under a rejoin register. -/
  | bra (n : BitVec 1) (p : BitVec 3) (j : BitVec 3) (o : BitVec 16)
  /-- BRA_UNCOND (R158): Unconditional branch of the lane group. -/
  | braUncond (o : BitVec 16)
  /-- BRU (R159): Uniform branch when Ga is nonzero. -/
  | bru (a : BitVec 6) (o : BitVec 16)
  /-- BRUZ (R159): Uniform branch when Ga is zero. -/
  | bruz (a : BitVec 6) (o : BitVec 16)
  /-- BRX (R160): Indirect branch to the address in Ga. -/
  | brx (a : BitVec 6)
  /-- CALL (R161): Call with a per-lane link register. -/
  | call (n : BitVec 1) (p : BitVec 3) (v : BitVec 6) (o : BitVec 13)
  /-- CALLX (R161): Call through Ga with a per-lane link register. -/
  | callx (n : BitVec 1) (p : BitVec 3) (v : BitVec 6) (a : BitVec 6)
  /-- RET (R162): Return each active lane to its own address. -/
  | ret (n : BitVec 1) (p : BitVec 3) (v : BitVec 6)
  /-- JSET (R163): Arm a rejoin register and raise WCL to the region label. -/
  | jset (z : Bool) (j : BitVec 3) (a : BitVec 6) (o : BitVec 14)
  /-- JOIN (R164): Arrive at a join point and evaluate the rejoin register. -/
  | join (j : BitVec 3)
  /-- JSTAT (R165): Read a rejoin register's state. -/
  | jstat (z : Bool) (d : BitVec 6) (j : BitVec 3)
  /-- EXIT (R166): End the active lanes. -/
  | exit (n : BitVec 1) (p : BitVec 3)
  /-- LOOP (R167): Start a hardware loop with an immediate count. -/
  | loop (k : BitVec 2) (c : BitVec 12) (l : BitVec 9)
  /-- LOOPG (R167): Start a hardware loop with a count from Ga. -/
  | loopg (k : BitVec 2) (a : BitVec 6) (l : BitVec 9)
  /-- LBRK (R168): Leave a hardware loop when Ga is nonzero. -/
  | lbrk (k : BitVec 2) (a : BitVec 6)
  /-- PARK (R169): Park the group while a word equals Gb, arming a watch. -/
  | park (a : BitVec 6) (b : BitVec 6)
  /-- NOP (R171): Do nothing. -/
  | nop (z : Bool)
  /-- GLD (R199): Uniform 64-bit load. -/
  | gld (z : Bool) (d : BitVec 6) (b : BitVec 6) (i : BitVec 10) (f : BitVec 1)
  /-- GST (R199): Uniform 64-bit store with label check. -/
  | gst (z : Bool) (d : BitVec 6) (b : BitVec 6) (i : BitVec 10)
  /-- ORD (R200): Give the next access an order and a level. -/
  | ord (z : Bool) (o : BitVec 3) (l : BitVec 3)
  /-- PHREL (R201): Release at a level. -/
  | phrel (z : Bool) (l : BitVec 3)
  /-- PHACQ (R201): Acquire at a level. -/
  | phacq (z : Bool) (l : BitVec 3)
  /-- PHASE (R201): Release then acquire at a level. -/
  | phase (z : Bool) (l : BitVec 3)
  /-- ENTER (R202): Make a stack frame and save FP. -/
  | enter (z : Bool) (n : BitVec 13)
  /-- LEAVE (R202): Remove a stack frame and restore FP. -/
  | leave (z : Bool) (n : BitVec 13)
  /-- SPILL (R203): Save a per-lane register to a frame slot. -/
  | spill (z : Bool) (v : BitVec 6) (k : BitVec 8)
  /-- FILL (R203): Restore a per-lane register from a frame slot. -/
  | fill (z : Bool) (v : BitVec 6) (k : BitVec 8)
  /-- LGET_V (R225): Read each lane's label handle of a V register. -/
  | lgetV (z : Bool) (d : BitVec 6) (a : BitVec 6)
  /-- LGET_G (R225): Read the label handle of a G register. -/
  | lgetG (z : Bool) (d : BitVec 6) (a : BitVec 6)
  /-- LGET_GRANULE (R225): Read the label handle of a granule. -/
  | lgetGranule (z : Bool) (d : BitVec 6) (a : BitVec 6)
  /-- LGET_P (R225): Read each lane's label handle of a predicate. -/
  | lgetP (z : Bool) (d : BitVec 6) (a : BitVec 3)
  /-- LSETV (R226): Raise the label of a per-lane register. -/
  | lsetv (z : Bool) (d : BitVec 6) (a : BitVec 6)
  /-- LRAISE (R227): Raise a granule's label at its home bank. -/
  | lraise (z : Bool) (a : BitVec 6) (b : BitVec 6)
  /-- LCLEAR (R227): Zero a granule and reset its label. -/
  | lclear (z : Bool) (a : BitVec 6) (b : BitVec 6)
  /-- LJOIN (R228): Handle of the union of two labels. -/
  | ljoin (z : Bool) (d : BitVec 6) (a : BitVec 6) (b : BitVec 6)
  /-- LDOM (R228): Test label dominance. -/
  | ldom (z : Bool) (d : BitVec 6) (a : BitVec 6) (b : BitVec 6)
  /-- LOWN (R228): Read the i-th owner of a label. -/
  | lown (z : Bool) (d : BitVec 6) (a : BitVec 6) (i : BitVec 3)
  /-- DCLS (R229): Declassify a per-lane register under endorsements, trapping on an uncovered lane. -/
  | dcls (z : Bool) (d : BitVec 6) (a : BitVec 6) (b : BitVec 6)
  /-- DCLS_T (R229): Declassify covered lanes only and report coverage in a predicate. -/
  | dclsT (z : Bool) (d : BitVec 6) (a : BitVec 6) (b : BitVec 6) (p : BitVec 3)
  /-- ENDORSE (R230): Install or replace the acting owner's endorsement. -/
  | endorse (z : Bool) (a : BitVec 6) (b : BitVec 6)
  /-- ENDREV (R230): Withdraw the acting owner's endorsement. -/
  | endrev (z : Bool) (a : BitVec 6)
  /-- ENDQ (R230): Read an owner's endorsement entry. -/
  | endq (z : Bool) (d : BitVec 6) (a : BitVec 6)
  /-- BAR (R247): Release, arrive and wait at a level barrier. -/
  | bar (l : BitVec 3)
  /-- BARA (R247): Release and arrive at a level barrier without waiting. -/
  | bara (z : Bool) (l : BitVec 3)
  /-- BARW (R247): Wait for the barrier phase of an earlier arrival. -/
  | barw (l : BitVec 3)
  /-- RINIT (R248): Check and arm a ring descriptor. -/
  | rinit (z : Bool) (a : BitVec 6)
  /-- RPUSH (R249): Push a word into a word ring, waiting for admission. -/
  | rpush (z : Bool) (a : BitVec 6) (b : BitVec 6) (f : BitVec 1)
  /-- RPOP (R249): Pop the next slot of a ring, waiting while empty. -/
  | rpop (z : Bool) (d : BitVec 6) (a : BitVec 6) (f : BitVec 1)
  /-- RPUSH_T (R249): Try to push a word, returning success. -/
  | rpushT (z : Bool) (d : BitVec 6) (a : BitVec 6) (b : BitVec 6) (f : BitVec 1)
  /-- RPOP_T (R249): Try to pop a slot, returning value and success. -/
  | rpopT (z : Bool) (d : BitVec 5) (a : BitVec 6) (f : BitVec 1)
  /-- RSTAT (R250): Read a ring's state. -/
  | rstat (z : Bool) (d : BitVec 6) (a : BitVec 6)
  /-- LAUNCH (R72): Enqueue a launch record from device code and return its verdict. -/
  | launch (z : Bool) (d : BitVec 6) (a : BitVec 6) (b : BitVec 6) (f : BitVec 1)
  /-- LCANCEL (R73): Cancel a launch named by queue and sequence. -/
  | lcancel (z : Bool) (a : BitVec 6)
  /-- LSTAT (R74): Test a launch record without enqueueing it. -/
  | lstat (z : Bool) (d : BitVec 6) (a : BitVec 6)
  /-- TMMA (R266): Multiply two Gallery tiles into an accumulator with exact K-step sums. -/
  | tmma (z : Bool) (d : BitVec 3) (a : BitVec 5) (b : BitVec 5) (m : BitVec 4) (f : BitVec 1)
  /-- TZERO (R267): Bind and clear an accumulator tile. -/
  | tzero (z : Bool) (d : BitVec 3) (f : BitVec 1)
  /-- TTRN (R268): Transpose a 128 x 128 tile in the Gallery. -/
  | ttrn (z : Bool) (d : BitVec 5) (a : BitVec 5) (m : BitVec 4) (f : BitVec 1)
  /-- TSCL (R269): Scale an FP32 accumulator by a BF16 immediate. -/
  | tscl (z : Bool) (d : BitVec 3) (i : BitVec 16) (f : BitVec 1)
  /-- TLDA (R270): Bind and load an accumulator from the Gallery. -/
  | tlda (z : Bool) (d : BitVec 3) (a : BitVec 6) (f : BitVec 1)
  /-- TDRAIN (R273): Drain an accumulator through the epilogue, overwriting the destination. -/
  | tdrain (z : Bool) (d : BitVec 3) (a : BitVec 6) (f : BitVec 1)
  /-- TDRAIN_ADD (R273): Drain an accumulator and add it indivisibly into the destination. -/
  | tdrainAdd (z : Bool) (d : BitVec 3) (a : BitVec 6) (f : BitVec 1)
  /-- TSTAT (R274): Read an accumulator's status. -/
  | tstat (z : Bool) (d : BitVec 6) (a : BitVec 3)
  /-- RULELD (R292): Load Flowstone rule entries and form a new generation. -/
  | ruleld (z : Bool) (a : BitVec 6) (b : BitVec 6)
  /-- RULEOFF (R293): Clear Flowstone rule entries in a new generation. -/
  | ruleoff (z : Bool) (a : BitVec 6)
  /-- FLUSHW (R294): Flush the Flowstone window. -/
  | flushw (z : Bool)
  /-- RULEQ (R295): Read a rule header or a Flowstone counter. -/
  | ruleq (z : Bool) (d : BitVec 6) (a : BitVec 6)
  /-- ETAIL (R325): Hand a sublist to a chain, binding it if needed. -/
  | etail (z : Bool) (a : BitVec 6) (b : BitVec 6)
  /-- WAITSEQ (R326): Wait for a completion word to reach a target. -/
  | waitseq (a : BitVec 6) (b : BitVec 6)
  /-- SEQR (R327): Read a chain's TAIL. -/
  | seqr (z : Bool) (d : BitVec 6) (a : BitVec 6)
  /-- COLL (R328): Issue this rank's part of a collective. -/
  | coll (z : Bool) (a : BitVec 6)
  /-- COMMQ (R329): Read a communicator's configuration. -/
  | commq (z : Bool) (d : BitVec 6) (a : BitVec 6)
  /-- ERID (R353): Read where the replicas of the block run. -/
  | erid (z : Bool) (d : BitVec 6)
  /-- ESIG (R354): Read the signature of the records a release would publish. -/
  | esig (z : Bool) (d : BitVec 5)
  /-- ESTAT (R355): Read the launch's Echo state. -/
  | estat (z : Bool) (d : BitVec 6)
  /-- EINJ (R356): Flip a bit of a register in one replica. -/
  | einj (z : Bool) (a : BitVec 6) (b : BitVec 6)
  /-- TRAP (R384): Raise a software trap. -/
  | trap (i : BitVec 16)
  /-- SREAD (R386): Read a system register. -/
  | sread (z : Bool) (d : BitVec 6) (s : BitVec 11)
  /-- SWRITE (R386): Write SLIM from public data. -/
  | swrite (z : Bool) (a : BitVec 6) (s : BitVec 11)
  /-- CLKR (R387): Read the core's cycle counter. -/
  | clkr (z : Bool) (d : BitVec 6)
  /-- RAND (R388): Read 64 random bits from the module generator. -/
  | rand (z : Bool) (d : BitVec 6) (f : BitVec 1)
  /-- CAPR (R412): Read a dword of the capability list. -/
  | capr (z : Bool) (d : BitVec 6) (a : BitVec 6)
  /-- SLOG (R413): Append a record to the software log. -/
  | slog (z : Bool) (a : BitVec 6) (b : BitVec 6)
  /-- SPDM_REQUEST (R404): An SPDM message from the host or a peer (GET_MEASUREMENTS, secured-session setup, IDE_KM key programming) is served by the Lantern pair. -/
  | spdmRequest (kind : Nat) (arg : Nat)
  /-- LINK_KEY_INSTALL (R408): The Lantern pair installs the new link key that a port requested, and traffic stalled under the old key resumes. -/
  | linkKeyInstall (k : Nat)
  /-- PORT_RETRAIN (R403): The driver retrains a quarantined Llynyo port, which leaves quarantine, trains and repeats attestation. -/
  | portRetrain (k : Nat)
  /-- MODULE_RESET (R411): Power-on or a fundamental reset clears all state and the Lantern pair initialises the module. -/
  | moduleReset
  /-- THERMAL_STOP (R411): At 110 °C die temperature the module stops and drops the host link. -/
  | thermalStop
  /-- ASID_CREATE (R405): Mailbox command creating an ASID with empty tables. -/
  | asidCreate
  /-- ASID_DESTROY (R405): Mailbox command freeing an ASID, BUSY while a launch exists. -/
  | asidDestroy
  /-- LHANDLE (R405): Mailbox command returning or allocating the handle of an owner set. -/
  | lhandle
  /-- MAP (R405): Mailbox command writing a page-table leaf and purging translation caches. -/
  | map
  /-- UNMAP (R405): Mailbox command invalidating a page-table leaf and purging translation caches. -/
  | unmap
  /-- SETTAG (R405): Mailbox command changing LABEL, ACL, PIN or PEERW of a page tag. -/
  | settag
  /-- ACL (R405): Mailbox command defining the principal set of an ACL handle. -/
  | acl
  /-- CRED (R405): Mailbox command defining a credential and its rule-table right. -/
  | cred
  /-- CTXKEY (R410): Mailbox command drawing a new context key for an ASID. -/
  | ctxkey
  /-- POOLADD (R401): Mailbox command adding a frame to a tier's free pool. -/
  | pooladd
  /-- POOLDEL (R401): Mailbox command removing a frame from a tier's free pool. -/
  | pooldel
  /-- DEBUG_READ (R398): DCMD 1 reads the selected item of a halted warp into DDATA and DLABEL. -/
  | debugRead
  /-- DEBUG_WRITE (R398): DCMD 2 writes DDATA into the selected V or G register of a halted warp. -/
  | debugWrite
  /-- DEBUG_RESUME (R398): DCMD 3 resumes the selected halted warp at the clause after HALT. -/
  | debugResume
  /-- DPOP (R398): Writing 1 to DPOP removes the head record of the halt queue. -/
  | dpop
  /-- YIELD (R170): Give up the issue slot and set yield marks. -/
  | yield
  /-- TRET (R385): Return from the trap handler to the resume point. -/
  | tret
  /-- HALT (R389): Stop the warp for the debugger. -/
  | halt
  deriving DecidableEq, Repr

end Sys2Proof
end

