-- ==== Sys2Proof/Machine/State.lean ====
section
/-! DEFINITION. The state of the machine as plain data: every register, queue and table the specification names, the
reasons a step can stop, and the state right after module reset.  Sparse collections are lists of a key and a
value, keys strictly rising; registers and memory list no entry equal to what an unlisted key reads as. -/
namespace Sys2Proof.Machine

/-- A sparse collection: keys strictly rising. -/
abbrev Tab (β : Type) := List (Nat × β)

/-- Why the machine stops.  Every trap of the manual is a next state; these are not traps. -/
inductive Fault where
  /-- Raised by an instruction of a warp when no warp is at the place State.cur names: there is no issuer.  Safe: the
  manual gives an instruction only to a warp. -/
  | noIssuer
  /-- Raised by an encoded instruction that is not well formed: decoding refuses such a word (R26), so no step runs
  it.  Safe. -/
  | illFormed
  deriving DecidableEq, Repr

/-- Why a step has no meaning. -/
inductive Refusal where
  /-- Raised by an arm of exec that has no meaning yet; the string is its mnemonic.  Safe. -/
  | notModelled (mnemonic : String)
  deriving DecidableEq, Repr

/-! ## Memory -/

/-- The memories (R10, R11).  A byte's key in `gal` is core * 2^20 + offset; in `dram` it is the physical address.
`glab` holds granule labels by physical Gallery address / 64. -/
structure Memory where
  gal : List Host.Cell
  glab : Tab Label
  dram : List Host.Cell
  deriving DecidableEq, Repr

/-! ## Operations in flight -/

/-- One lane's share of an access: the Gallery address, the physical address, operand values, the join of the lane's source
labels, and the words of its operand registers as they are recorded (R337). -/
structure LaneOp where
  lane : Nat
  ga : Nat
  pa : Nat
  v : Word
  n : Word
  lab : Label
  opnds : List Word
  deriving DecidableEq, Repr

/-- One lane's result: value, label, and whether the source was damaged (R369). -/
structure LaneRes where
  lane : Nat
  val : Word
  lab : Label
  dmg : Bool
  deriving DecidableEq, Repr

/-- External bytes that a tile instruction reads, within one granule, as the committing replica's core read them at issue and Echo
delivered them (R336, log entry 12): where they lie, the bytes, which of them are damaged, and their label. -/
structure ExtPiece where
  pa : Nat
  bytes : List Byte
  bad : List Bool
  lab : Label
  deriving DecidableEq, Repr

/-- A tile instruction with the operands captured at issue (R275).  `op` is the code of R281; `a` and `b` are
operand pairs (Gn, Gn+1); `bands` are the band scales read at issue, bits 0 and 1 of `bandDmg` say which of pair a's two were
damaged and bits 2 and 3 which of pair b's, and bits 0 and 1 of `late` that a replacement reads those of pair a or b when it
executes (R283); `ra` and `rb` are the descriptor registers; `ext` are the external bytes delivered, and `lost` what the
publication before it has discarded (R259). -/
structure TileOp where
  op : Nat
  fmt : Nat
  acc : Nat
  a : Word × Word
  b : Word × Word
  imm : BitVec 16
  addr : Word
  blk : List Byte
  blkDmg : Bool
  bands : List (BitVec 16)
  bandDmg : Nat
  late : Nat
  cap : Label
  ra : Nat
  rb : Nat
  ext : List ExtPiece
  lost : Option (Nat × Label × Label)
  deriving DecidableEq, Repr

/-- A tile operation that writes the Gallery: TTRN, or a drain that is not skipped (R259, R264). -/
def TileOp.writes (o : TileOp) : Bool := o.op == 2 || ((o.op == 5 || o.op == 6) && !o.blkDmg)

/-- What a pending operation does (R27), with its captured operands (R29). -/
inductive Work where
  /-- VLD: bytes, sign extension. -/
  | load (reg size : Nat) (sx : Bool) (lanes : List LaneOp)
  /-- GLD. -/
  | gload (reg : Nat) (l : LaneOp)
  /-- The special functions: results known at issue. -/
  | special (reg : Nat)
  /-- Atomics: `ret` the result register of ATOMR; op of R234, 11 XADD, 12 XCLR; size in bytes. -/
  | atomic (ret : Option Nat) (op size : Nat) (lanes : List LaneOp)
  /-- XRND. -/
  | xrnd (reg : Nat) (lanes : List LaneOp)
  /-- RPUSH and RPUSH.T (`ret` its result register): ring descriptor, word and source label. -/
  | push (ret : Option Nat) (l : LaneOp)
  /-- RPOP and RPOP.T. -/
  | pop (reg : Nat) (tform : Bool) (l : LaneOp)
  /-- LAUNCH: result register, queue, the record's bytes as read at issue. -/
  | launch (reg q : Nat) (rec : List Byte) (lab : Label)
  /-- RAND. -/
  | rand (reg : Nat)
  /-- A tile instruction. -/
  | tile (t : TileOp)
  /-- A hand-over of ETAIL that was given up (R325): descriptor and G[b]. -/
  | etail (l : LaneOp)
  deriving DecidableEq, Repr

/-- A pending operation (R27).  `stage`: 0 issued, 1 performed with its results in `res`; `ord` is the order and level of
the ORD before it, which stands with it when it is issued again (R200). -/
structure Pend where
  id : Nat
  flag : Option Nat
  work : Work
  res : List LaneRes
  stage : Nat
  pc : Word
  hdr : Word
  word : BitVec 32
  cap : Label
  rule : Option Nat
  ord : Option (Nat × Nat)
  deriving DecidableEq, Repr

/-- A mark (R30, R264, R358): a deferred fault, the flag it stands on, and the operation to issue again. -/
structure FlagMark where
  flag : Option Nat
  code : Nat
  addr : Word
  aux : Word
  srcl : Option Label
  dstl : Option Label
  mask : Mask
  op : Pend
  deriving DecidableEq, Repr

/-- A held request (R377): 0 ETAIL, 1 RULELD, 2 RULEOFF, with its captured operands (an ETAIL's in `op`, whose work is
etail) and, for a rule request, the first index in `first` and the entries read at issue. -/
structure HeldReq where
  kind : Nat
  op : Pend
  first : Nat
  ds : List Word
  deriving Repr, DecidableEq

/-! ## Warp control -/

/-- The running clause (R26, R46): its header, the next word, its lane group, its flag selects (15 none), and its words from
the header on, as they were decoded before it started. -/
structure Run where
  hdr : Word
  pos : Word
  grp : Mask
  setA : Nat
  setB : Nat
  words : List (BitVec 32)
  deriving DecidableEq, Repr

/-- A rejoin register (R145, R147): `next` is where its lanes go at release; `fresh` says it was armed in handler
mode (R385). -/
structure JReg where
  expect : Mask
  arrived : Mask
  armed : Bool
  lost : Bool
  xit : Bool
  depth : Nat
  region : Label
  outer : Label
  target : Word
  next : Word
  fresh : Bool
  deriving DecidableEq, Repr

/-- A loop counter (R150); `order` tells which of the active loops started last. -/
structure LoopCtr where
  count : Nat
  active : Bool
  first : Word
  last : Word
  order : Nat
  deriving DecidableEq, Repr

/-- Lanes parked by PARK on a granule (R153); with no lane yet it is the watch that a once-performed PARK has armed for a replica
which has not parked its group yet (R336). -/
structure Parked where
  lanes : Mask
  gran : Nat
  woken : Bool
  deriving DecidableEq, Repr

/-- A phase-buffer entry (R180): granule, 64 bytes of data, byte mask, label, Gallery address, the arbiter's order of its
last write, whether its storage is damaged (R369), and the acquires of R189 that follow when it is performed: for each the
scope code of its level, 8 for every slice. -/
structure PhaseEntry where
  gran : Nat
  data : BitVec 512
  bytes : BitVec 64
  lab : Label
  ga : Nat
  stamp : Nat
  dmg : Bool
  acq : List Nat
  deriving DecidableEq, Repr

/-- A trap (R357, R360): the frame's contents, the running clause to resume, and the operations to issue again. -/
structure Trap where
  code : Nat
  point : Nat
  mask : Mask
  grp : Mask
  pc : Word
  hdr : Word
  addr : Word
  aux : Word
  srcl : Option Label
  dstl : Option Label
  word : BitVec 32
  rword : Nat
  rule : Option Nat
  event : Option (Nat × Nat)
  tfl : Label
  run : Option Run
  resume : Word
  again : List Pend
  deriving DecidableEq, Repr

/-- Handler mode (R364): the trapping group, WCL at the trap, whether a lane of the group exited in the handler, where to
resume, the operations that TRET issues again, and the flags of those that it has issued (R357). -/
structure Handler where
  grp : Mask
  wcl : Label
  exited : Bool
  run : Option Run
  pc : Word
  rword : Nat
  again : List Pend
  flags : List Nat
  deriving DecidableEq, Repr

/-- What a warp waits for between clauses (R376). -/
inductive Wait where
  /-- Nothing. -/
  | none
  /-- The completion of a phase of a level (R243). -/
  | bar (level phase : Nat)
  /-- WAITSEQ: the word's Gallery and physical address, the target, and the labels of its registers (R326).  The clause
  ends, or traps at the WAITSEQ, when the wait is over. -/
  | seq (ga pa target : Nat) (cap : Label)
  /-- The flags of a reissued instruction, before the reading instruction (R357). -/
  | flags (fs : List Nat)
  deriving DecidableEq, Repr

/-- Whether a warp may run. -/
inductive Status where
  /-- It runs. -/
  | running
  /-- Stopped by a trap whose notice the monitor has not decided (R359). -/
  | trapped
  /-- Stopped for good: its gang was stopped or killed, or its launch cancelled (R365, R73). -/
  | stopped
  /-- Stopped at a clause boundary by a freeze (R370). -/
  | frozen
  /-- Stopped for a pre-emption (R376). -/
  | preempted
  /-- Stopped by HALT (R389). -/
  | halted
  deriving DecidableEq, Repr

/-- A record (R337): RKIND, address, label, byte mask and data; its image has the label's handle. -/
structure Record where
  kind : Nat
  addr : Nat
  lab : Label
  mask : Word
  data : List Word
  deriving DecidableEq, Repr

/-- What a replica sends Echo at an event (R340, R343): whether it is a release, and of which level, whether it is
once-performed and still to be performed, the signature (SUM, XF, COUNT), the instruction's own records, and the labels of the
registers that it reads (R362).  Echo's
answer: granted once the event has committed, the entry that could not be published in this replica (R196), and what the
once-performed operation gave. -/
structure EchoWait where
  event : Nat
  release : Bool
  once : Bool
  level : Nat
  sig : Nat × Nat × Nat
  ops : List Record
  reads : Label
  granted : Bool
  failed : Option (Nat × Label × Label)
  vals : List Word
  labs : List Label
  deriving DecidableEq, Repr

/-- The name state of R256 and R276 for one accumulator name, with its row labels as they stand at issue (R260). -/
structure NameSt where
  held : Bool
  tset : Bool
  int : Bool
  bset : Bool
  bands : List (BitVec 16)
  rows : Tab Label
  deriving DecidableEq, Repr

/-- A held item of a replica (R335): an atomic lane, with the atomic it belongs to.  kind as RKIND of R337. -/
structure HeldItem where
  by_ : Pend
  kind : Nat
  l : LaneOp
  op : Nat
  size : Nat
  deriving DecidableEq, Repr

/-- The registers of a warp (R10, R14, R20).  Keys: V 32*r + lane, G r, P r, M r; labels of P 32*p + lane.  `dmg`
lists the damaged register words: file * 4096 + key, files 0 V, 1 G, 2 P, 3 M (R369). -/
structure WRegs where
  v : Tab Word
  vl : Tab Label
  g : Tab Word
  gl : Tab Label
  p : Tab Mask
  pl : Tab Label
  m : Tab Mask
  ml : Tab Label
  dmg : List Nat
  deriving DecidableEq, Repr

/-- A warp (R8, R62): its registers and its whole control state.  `got` holds what Echo has delivered to the tile instruction
that issues, of its once-performed reads, in order (R336).  `passed` names the Echo events that the instruction
at hand has already completed (8 more than its name: begun), and 4 when its own access is held; `arrivals` counts for each level the phases that it has
arrived in, and `arrived` holds that count while the arrived bit is set (R242); `exitAt` is the warp's
latest EXIT and its word (R358), and `atSafe` tells of a warp stopped for a pre-emption that it stopped converged at a safe
point (R378). -/
structure Warp where
  index : Nat
  regs : WRegs
  pc : Tab Word
  exited : Mask
  yielded : Mask
  yieldNew : Mask
  parked : List Parked
  j : Tab JReg
  lc : Tab LoopCtr
  loops : Nat
  wcl : Label
  slim : Word
  tfw : Tab Word
  tfl : Label
  handler : Option Handler
  overdue : Nat
  arrived : Tab Nat
  arrivals : Tab Nat
  phase : List PhaseEntry
  ord : Option (Nat × Nat)
  pend : List Pend
  issued : Nat
  marks : List FlagMark
  held : List HeldReq
  items : List HeldItem
  wait : Wait
  run : Option Run
  trap : Option Trap
  status : Status
  request : Status
  window : List Pend
  names : Tab NameSt
  counters : Tab Word
  slab : Label
  events : Nat
  commits : Nat
  echo : Option EchoWait
  passed : List Nat
  got : List (List Word × List Label)
  haltPc : Word
  exitAt : Option (Run × BitVec 32)
  atSafe : Bool
  deriving DecidableEq, Repr

/-! ## Tiles -/

/-- A physical accumulator tile (R254, R256): holder (warp key and name), elements by 128*r + n, state, damage log.
Its row labels stand with the holder's name. -/
structure Tile where
  owner : Option (Nat × Nat)
  elems : Tab (BitVec 32)
  int : Bool
  tset : Bool
  bset : Bool
  bands : List (BitVec 16)
  dsc : BitVec 32
  dmgCount : Nat
  dmgFirst : Nat
  dmg : List Nat
  deriving DecidableEq, Repr

/-- A unit of work of the matrix engine (R285, R289): one instruction, or a group of originals with its replacement;
`failed` is the publication entry that a group's replayed drain reports, and `met` are the damaged granules that the stopped
group read (R290). -/
structure TileUnit where
  warp : Nat
  rule : Option Nat
  orig : List Pend
  repl : List (Nat × TileOp)
  failed : Option (Nat × Label × Label)
  met : List Nat
  deriving DecidableEq, Repr

/-- The block a core holds (R57): launch, block index b, replica. -/
structure Block where
  launch : Nat
  b : Nat
  rep : Nat
  started : Bool
  deriving DecidableEq, Repr

/-! ## Rings and chains -/

/-- A producer of a ring (R238): a warp (launch, b, WARP and 0), or a chain (its descriptor's address, and 1 in the last
place). -/
abbrev Producer := Nat × Nat × Nat × Nat

/-- An armed ring (R235, R237): keyed by its descriptor's physical address.  Slot states: 1 filling, 2 full, 3 held, and
a free slot is not listed; `owner` names each reserved slot's producer, `consumer` the warp that is bound (R239), `seen` every
producer since RINIT, `waiting` the pushes that wait (warp and operation), in the order the home bank saw them. -/
structure Ring where
  base : Nat
  basePa : Nat
  kind : Nat
  lsize : Nat
  count : Nat
  allow : Nat
  lab : Label
  asid : Nat
  put : Nat
  take : Nat
  taken : Nat
  slots : Tab Nat
  owner : Tab Producer
  consumer : Option Producer
  seen : List Producer
  waiting : List (Nat × Nat)
  deriving DecidableEq, Repr

/-- A sublist handed over (R301): first entry, count, the captured label, and the warp and Echo event that handed it
over. -/
structure SubList where
  first : Nat
  count : Nat
  lab : Label
  launch : Nat
  b : Nat
  warp : Nat
  event : Nat
  deriving DecidableEq, Repr

/-- A slot of a buffer ring that a chain has reserved and is to fill (R237, R311): its number, the bytes of its rows, and for
each denied row the address and the tag that denied it (R312). -/
structure Filling where
  num : Nat
  data : List Byte
  denied : List (Nat × Word)
  deriving DecidableEq, Repr

/-- A chain entry that has started (R302): its number, its granule, the sublist it came with, its dwords as read when it
started (`fresh` says that they are to be read, for the first time or again after a resume), its control label, its status
code, its progress, the labels of a failed check (the join, and the label that did not dominate), the ring it delivers into,
whether that ring has been disarmed meanwhile (R311), and the slot that it fills (R237). -/
structure Entry where
  num : Nat
  ga : Nat
  sub : SubList
  fresh : Bool
  dw : List Word
  ctl : Label
  code : Nat
  fva : Nat
  denied : Nat
  chunks : Nat
  bad : Option (Label × Label)
  ring : Option Nat
  disarmed : Bool
  slot : Option Filling
  deriving DecidableEq, Repr

/-- A bound chain (R298, R301), keyed by its descriptor's physical address: its engine, its completion word, the block
that bound it, TAIL, SEQ, HALT, the sublists that wait, the rest of the one being walked, the entries that have started and
not been passed by SEQ, and the number of the next one. -/
structure Chain where
  engine : Nat
  ga : Nat
  cword : Nat
  launch : Nat
  b : Nat
  tail : Nat
  seq : Nat
  halt : Nat
  subs : List SubList
  walk : Option SubList
  entries : List Entry
  next : Nat
  detached : Bool
  deriving DecidableEq, Repr

/-! ## Contexts and cores -/

/-- A context that a core's shadow planes or the save area hold (R380): the block, its warps, slice, granule labels
and tiles, damaged granules, the withdrawn tile units (R265), and what the slice's banks hold of rings and chains. -/
structure Context where
  part : Nat
  block : Option Block
  warps : Tab Warp
  gal : List Host.Cell
  glab : Tab Label
  tiles : Tab Tile
  dmg : List Nat
  engine : List TileUnit
  rings : Tab Ring
  chains : Tab Chain
  haltAt : Tab (Nat × Option (Label × Label))
  sealedBy : Option Nat
  deriving DecidableEq, Repr

/-- A granule that a core's snapshot holds (R181), and whether its storage is damaged (R369). -/
structure Snap where
  data : BitVec 512
  lab : Label
  dmg : Bool
  deriving DecidableEq, Repr

/-- A core (R7).  `corrected` counts the corrected errors at each store (R369). -/
structure Core where
  block : Option Block
  dmg : List Nat
  snapshot : Tab Snap
  tiles : Tab Tile
  engine : List TileUnit
  allocs : List Nat
  last : Tab Nat
  notices : List Nat
  latec : Word
  clk : Word
  fenced : Bool
  frozen : Bool
  shadow : Option Context
  moving : Bool
  corrected : List (Store × Nat)
  deriving DecidableEq, Repr

/-! ## Launches -/

/-- A launch record's fields (R52). -/
structure LRec where
  flags : Nat
  entry : Word
  trapent : Word
  cword : Word
  cseq : Nat
  arg : Word
  units : Nat
  lanes : Nat
  permit : Nat
  nreg : Nat
  ngrant : Nat
  win : Nat
  stk : Nat
  launchl : Nat
  ownact : Nat
  cred : Word
  grants : List Word
  deps : List (Word × Word)
  levels : List Nat
  prins : List Nat
  regions : List (Word × Word)
  deriving DecidableEq, Repr

/-- An event that committed while a re-cloned replica had yet to pass it (R351): the block, warp and number, the committed
signature, whether its once-performed results are still to come, the external entries that could not be published, the marks
of its held items, its results, and the bytes that its operations left in private granules, by core of the gang and offset. -/
structure KeptEvent where
  b : Nat
  w : Nat
  event : Nat
  sig : Nat × Nat × Nat
  once : Bool
  failed : List (Nat × Label × Label)
  marks : List (Nat × FlagMark)
  vals : List Word
  labs : List Label
  writes : List (Nat × Nat × List Byte)
  deriving DecidableEq, Repr

/-- A gang, or a block of a launch without a cluster level (R49, R365 to R368): the cores of each replica in block
order, what happened to it, and its Echo state (R332, R333, R349).  `stop` gives for each stopped replica the first trap
of its warps, as LVL2 and WARP above the code (R365); `failed` says that its staging faulted (R61), `skipped` that a
granule was not written back (R63); `lost` lists the cores that have lost a vote (R351), `echoPast` is the detail of an Echo failure before its relaunch (R352),
`lastEv` the block, warp and number of the event that committed last (R347).  `clone` is the replica that is being re-cloned,
and whether its cores have swapped the copy in; `kept` are the events that it has yet to pass (R351). -/
structure Gang where
  cores : List (List Nat)
  staged : Bool
  failed : Bool
  skipped : Bool
  stop : Tab Nat
  kill : Option Nat
  echoFail : Option Nat
  published : Bool
  relaunched : Bool
  done : List Nat
  live : List Nat
  commit : Nat
  gen : Nat
  ended : Bool
  lost : List Nat
  echoAgain : Bool
  echoPast : Option Nat
  lastEv : Nat × Nat × Nat
  clone : Option (Nat × Bool)
  kept : List KeptEvent
  deriving DecidableEq, Repr

/-- The capability fields that can change, as they stood when a launch was placed (R392). -/
structure CapSnap where
  fenced : List Nat
  contained : List Nat
  up : List Nat
  deriving DecidableEq, Repr

/-- A launch from its verdict to its completion (R55 to R67). -/
structure Launch where
  queue : Nat
  slot : Option Nat
  asid : Nat
  cwordAsid : Nat
  record : LRec
  label : Label
  rulesRight : Bool
  eligible : Bool
  placed : Nat
  gangs : Tab Gang
  cancelled : Bool
  stagingFault : Bool
  completed : Option (Nat × Nat)
  refused : Option (Nat × Nat)
  bars : Tab Nat
  caps : CapSnap
  vloss : Nat
  recln : Nat
  strag : Nat
  deriving DecidableEq, Repr

/-! ## The hub -/

/-- A queue descriptor (R55); `waiting` lists the LAUNCHes that wait for a free slot (R72): warp and operation. -/
structure Queue where
  ring : Word
  devq : Bool
  en : Bool
  asid : Nat
  prio : Nat
  logn : Nat
  head : Nat
  tail : Nat
  seen : Nat
  coreMask : BitVec 640
  dbdrop : Bool
  ovf : Bool
  consumed : List Nat
  waiting : List (Nat × Nat)
  deriving DecidableEq, Repr

/-- A page-table entry (R395): dword 0, and dword 1, which is a leaf's page tag (R219). -/
structure Leaf where
  dw : Word
  tag : Word
  deriving DecidableEq, Repr

/-- A credential (R405). -/
structure Cred where
  owners : List Nat
  prins : List Nat
  rules : Bool
  deriving DecidableEq, Repr

/-- An address space (R394): its table entry, label table (R208), endorsement table (R216: uses and target by owner),
ACL table, credentials, context key and save counter. -/
structure Asid where
  valid : Bool
  dbg : Bool
  part : Nat
  ptroot : Word
  sumpd : Word
  slogd : Word
  secure : Bool
  session : Bool
  labels : Tab Label
  endorse : Tab (Nat × Label)
  acls : Tab (List Nat)
  creds : Tab Cred
  key : Option Nat
  saves : Nat
  deriving DecidableEq, Repr

/-- A partition block (R396): PCTL, PSTAT, CSA, the slice map, the rule generations (R279) and the saved contexts. -/
structure Partition where
  req : Nat
  state : Nat
  pend : Bool
  rej : Bool
  csa : Word
  maplen : Nat
  smap : Tab Nat
  gens : Tab (Tab Word)
  gen : Nat
  saved : Tab Context
  deriving DecidableEq, Repr

/-- A communicator (R318): dword 0, its ranks, and the parts its ranks have queued. -/
structure Comm where
  dw : Word
  ranks : List Nat
  deriving DecidableEq, Repr

/-- A rank's part of a collective that has not ended (R320, R323): the number of the collective, the command's dwords and
address, the block that issued it, the captured label, its progress, its code (R304): 0 until it ends; the die whose
collective engine holds it (R328), and the physical address of a completion object beyond the gang's windows. -/
structure Part where
  comm : Nat
  rank : Nat
  index : Nat
  dw : List Word
  cmd : Nat
  launch : Nat
  b : Nat
  lab : Label
  chunks : Nat
  paused : Bool
  code : Nat
  die : Nat
  far : Option Nat
  deriving DecidableEq, Repr

/-- The input of a chunk (R322): the communicator, the collective's number, the chunk, and for each contributing rank the bytes
and label of its lines; it is kept until every engine has delivered it. -/
structure ChunkInput where
  comm : Nat
  index : Nat
  chunk : Nat
  lines : List (List (List Byte × Label))
  deriving DecidableEq, Repr

/-- A hand-over that waits, in the order in which the descriptors' home banks received them (R301, R377): the launch, block and
warp that issued it, its operation's number, and whether its chain's halt has given it up (R325). -/
structure HandedOver where
  launch : Nat
  b : Nat
  warp : Nat
  id : Nat
  up : Bool
  deriving DecidableEq, Repr

/-- A memory controller (R314, R399): `counts` are the accesses by page of the epoch that ended last, `rows` the activations
of the rows that reached the threshold in the refresh window (R317). -/
structure Controller where
  hptc : Word
  proposed : Word
  migrated : Word
  skipped : Word
  rhcfg : Word
  careplay : Word
  contained : Bool
  counts : Tab Nat
  rows : Tab Nat
  deriving DecidableEq, Repr

/-- A proposed or running migration (R314, R316): ASID, VA page number, target tier, frames, pieces copied, whether it has
begun, and who asked: a tracker, or an entry of a chain, by the chain's key and the entry's number.  One that has copied
every piece and no longer runs waits for its entry, whose context is swapped out. -/
structure Migration where
  asid : Nat
  page : Nat
  tier : Nat
  old : Nat
  new : Nat
  pieces : Nat
  begun : Bool
  mc : Nat
  entry : Option (Nat × Nat)
  deriving DecidableEq, Repr

/-- A Llynyo port (R403, R407, R408): STATE, peer, counters, and its link key's invocations; the translations exchanged at
attestation (R224), `labels` the owner set of a peer's handle by ASID * 4096 + handle and `acls` the handle here of a peer's
ACL handle by ASID * 2^20 + handle; `arrived` the last flit delivered, as ASID, label handle and ACL handle here (none: an ACL
that allows no principal), and `status` the last status returned to a sender. -/
structure Port where
  state : Nat
  peer : Nat
  retries : Word
  macfail : Word
  invocations : Nat
  requested : Bool
  stalled : Bool
  retrying : Bool
  delivered : Nat
  labels : Tab Label
  acls : Tab Nat
  arrived : Option (Nat × Nat × Option Nat)
  status : Nat
  deriving DecidableEq, Repr

/-- The debug block (R398). -/
structure Debug where
  dsel : Word
  dreg : Word
  ddata : Word
  dlabel : Word
  dstat : Nat
  halts : List (Word × Word)
  late : List (Word × Word)
  deriving DecidableEq, Repr

/-- The Lantern mailbox (R405): the request's dwords, the response's dwords, STATUS, and GO. -/
structure Mailbox where
  request : Tab Word
  response : Tab Word
  status : Nat
  go : Bool
  deriving DecidableEq, Repr

/-- A supervisor notice (R374): kind 1 snapshot, 2 kill, 3 relaunch, 4 fence, 5 pre-empt request, 6 resume request,
7 controller contained, 8 random-number source disabled, 9 context tag mismatch, 10 logged transient, 11 cancel,
12 vote loss (R415); with what it names. -/
structure Notice where
  kind : Nat
  data : List Nat
  words : List Word
  deriving DecidableEq, Repr

/-- Which agent moves next, in the model's agenda (log entry 2). -/
inductive Sel where
  /-- The warp slot's turn in its quadrant: one header or one instruction of warp `slot` of core `c`. -/
  | issue (c slot : Nat)
  /-- A step of a device. -/
  | device (i : Instr)
  deriving DecidableEq, Repr

/-- Core self-tests to run (R348, R371): the cores still to test, those that have passed, whether one has failed, and what
asked for them: 0 a lasting kill, 1 an Echo mismatch, which fences every core when none fails, 2 a late transition. -/
structure CoreTest where
  cores : List Nat
  passed : List Nat
  failed : Bool
  why : Nat
  deriving DecidableEq, Repr

/-- The hub die (R393 to R411).  `ptes` are the page-table entries by physical address / 16 (R395), `tables` counts the tables
that the Lantern pair has taken for them; `spdm` is the last answer to GET_MEASUREMENTS (R404). -/
structure Hub where
  hubctl : Word
  qtbase : Word
  astbase : Word
  poolwm : Word
  commerr : Word
  queues : Tab Queue
  asids : Tab Asid
  ptes : Tab Leaf
  tables : Nat
  parts : Tab Partition
  comms : Tab Comm
  parcels : List Part
  colls : Tab Nat
  lastComm : Tab Nat
  inputs : List ChunkInput
  handovers : List HandedOver
  ctrls : Tab Controller
  pool0 : List Nat
  pool1 : List Nat
  migrations : List Migration
  ports : Tab Port
  debugBlock : Debug
  mailbox : Mailbox
  rngOff : Bool
  hseq : Nat
  notices : List Notice
  tests : List CoreTest
  hostSession : Bool
  ideKeys : List Nat
  spdm : List Word
  lastQueue : Tab Nat
  lastCore : Tab Nat
  testFuse : Bool
  moduleNumber : Nat
  thermal : Bool
  deriving DecidableEq, Repr

/-- The whole machine.  `haltAt` gives for a completion word's physical address the Gallery address of the entry or command
that halted last and the labels of its failed check (R361).  `cur` is the warp (core * 32 + slot) whose instruction runs,
`free` the counter that free values are drawn at, `tick` the core event arbiters' order, `agenda` which agent moves next, and `round` the place in the
model's own order when it is empty (log entry 2). -/
structure State where
  mem : Memory
  cores : Tab Core
  warps : Tab Warp
  rings : Tab Ring
  chains : Tab Chain
  haltAt : Tab (Nat × Option (Label × Label))
  launches : Tab Launch
  nextLaunch : Nat
  hub : Hub
  cur : Nat
  free : Nat
  tick : Nat
  rr : Nat
  round : Nat
  agenda : List Sel
  deriving DecidableEq, Repr

/-! ## First values -/

/-- No register holds anything but zero, and every label is public (R62). -/
def WRegs.zero : WRegs := ⟨[], [], [], [], [], [], [], [], []⟩

/-- A rejoin register at a warp's first instruction (R62, R145). -/
def JReg.clear : JReg := ⟨0, 0, false, false, false, 0, [], [], 0, 0, false⟩

/-- A loop counter at a warp's first instruction (R62, R150). -/
def LoopCtr.clear : LoopCtr := ⟨0, false, 0, 0, 0⟩

/-- A name that is not held (R254). -/
def NameSt.free : NameSt := ⟨false, false, false, false, [], []⟩

/-- A warp whose registers hold zero and which has no pending work; its block's start gives the rest (R62). -/
def Warp.zero : Warp where
  index := 0
  regs := WRegs.zero
  pc := []
  exited := 0
  yielded := 0
  yieldNew := 0
  parked := []
  j := []
  lc := []
  loops := 0
  wcl := []
  slim := 0
  tfw := []
  tfl := []
  handler := none
  overdue := 0
  arrived := []
  arrivals := []
  phase := []
  ord := none
  pend := []
  issued := 0
  marks := []
  held := []
  items := []
  wait := .none
  run := none
  trap := none
  status := .running
  request := .running
  window := []
  names := []
  counters := []
  slab := []
  events := 0
  commits := 0
  echo := none
  passed := []
  got := []
  haltPc := 0
  exitAt := none
  atSafe := false

/-- A free tile (R254); its pending drain scale is 1.0 (R256). -/
def Tile.free : Tile := ⟨none, [], false, false, false, [], 0x3F800000#32, 0, 0, []⟩

/-- A core at module reset (R411): idle, not fenced, LATEC 0 (R383), cycle count 0 (R387).  The quadrants' last
granted slots are the model's (log entry 4): unlisted, each reads as the quadrant's last slot. -/
def Core.zero : Core := ⟨none, [], [], [], [], [], [], [], 0, 0, false, false, none, false, []⟩

/-- A page-table entry that nothing has written: not valid (R395). -/
def Leaf.zero : Leaf := ⟨0, 0⟩

/-- A queue descriptor at reset (R55). -/
def Queue.zero : Queue := ⟨0, false, false, 0, 0, 0, 0, 0, 0, 0, false, false, [], []⟩

/-- An ASID that does not exist (R394). -/
def Asid.zero : Asid := ⟨false, false, 0, 0, 0, 0, false, false, [], [], [], [], none, 0⟩

/-- A partition block at reset (R396), its rule table with one generation of zero entries (R279). -/
def Partition.zero : Partition := ⟨0, 0, false, false, 0, 0, [], [(0, [])], 0, []⟩

/-- A communicator that does not exist (R318). -/
def Comm.zero : Comm := ⟨0, []⟩

/-- No rank's part of a collective. -/
def Part.zero : Part := ⟨0, 0, 0, [], 0, 0, 0, [], 0, false, 0, 0, none⟩

/-- A memory controller at reset: UPTH 0xFFFF, EPOCH 1,000 (R314), RHCFG 0x1000_0190 (R399). -/
def Controller.zero : Controller := ⟨0xFFFF000003E80000#64, 0, 0, 0, 0x10000190#64, 0, false, [], []⟩

/-- A port at reset: down (R403). -/
def Port.zero : Port := ⟨0, 0, 0, 0, 0, false, false, false, 0, [], [], none, 0⟩

/-- The hub at module reset (R393, R411). -/
def Hub.zero : Hub where
  hubctl := 0
  qtbase := 0
  astbase := 0
  poolwm := 0
  commerr := 0
  queues := []
  asids := []
  ptes := []
  tables := 0
  parts := []
  comms := []
  parcels := []
  colls := []
  lastComm := []
  inputs := []
  handovers := []
  ctrls := []
  pool0 := []
  pool1 := []
  migrations := []
  ports := []
  debugBlock := ⟨0, 0, 0, 0, 0, [], []⟩
  mailbox := ⟨[], [], 0, false⟩
  rngOff := false
  hseq := 0
  notices := []
  tests := []
  hostSession := false
  ideKeys := []
  spdm := []
  lastQueue := []
  lastCore := []
  testFuse := false
  moduleNumber := 0
  thermal := false

/-- The machine right after module reset (R411): no launch, no warp, no ASID; every register at its reset value. -/
def State.reset : State where
  mem := ⟨[], [], []⟩
  cores := []
  warps := []
  rings := []
  chains := []
  haltAt := []
  launches := []
  nextLaunch := 0
  hub := Hub.zero
  cur := 0
  free := 0
  tick := 0
  rr := 0
  round := 0
  agenda := []

end Sys2Proof.Machine
end

