-- ==== Sys2Proof/Machine/Mem.lean ====
section
/-! DEFINITION. The memories and labels: bytes of the Gallery and of main memory, granule labels, and owner sets. -/
namespace Sys2Proof.Machine

/-! ## Bytes -/

/-- What a byte that nothing has written reads as: zero (log entry 3: the specification gives no power-on contents). -/
def emptyByte : Byte := 0

/-- What a granule label that nothing has written reads as: public (log entry 3). -/
def emptyLabel : Label := []

/-- One byte of a memory. -/
def readByte (m : List Host.Cell) (a : Nat) : Byte := aget emptyByte m a

/-- A memory with one byte written. -/
def writeByte (m : List Host.Cell) (a : Nat) (v : Byte) : List Host.Cell := aset emptyByte m a v

/-- `n` bytes from an address up. -/
def readBytes (m : List Host.Cell) (a : Nat) : Nat → List Byte
  | 0 => []
  | n + 1 => readByte m a :: readBytes m (a + 1) n

/-- A memory with bytes written from an address up. -/
def writeBytes (m : List Host.Cell) (a : Nat) : List Byte → List Host.Cell
  | [] => m
  | b :: t => writeBytes (writeByte m a b) (a + 1) t

/-- The number in `n` bytes, little-endian. -/
def readNum (m : List Host.Cell) (a n : Nat) : Nat := ofBytes (readBytes m a n)

/-- A memory with a number's `n` low bytes written, little-endian. -/
def writeNum (m : List Host.Cell) (a n x : Nat) : List Host.Cell := writeBytes m a (toBytes n x)

/-- The label of the granule that holds a physical Gallery address. -/
def granLabel (m : Memory) (pa : Nat) : Label := aget emptyLabel m.glab (pa / 64)

/-- A memory with one granule's label replaced. -/
def setGranLabel (m : Memory) (pa : Nat) (l : Label) : Memory :=
  { m with glab := aset emptyLabel m.glab (pa / 64) l }

/-- A memory with Gallery bytes written. -/
def Memory.writeGal (m : Memory) (pa : Nat) (bs : List Byte) : Memory := { m with gal := writeBytes m.gal pa bs }

/-- A memory with main-memory bytes written. -/
def Memory.writeDram (m : Memory) (pa : Nat) (bs : List Byte) : Memory := { m with dram := writeBytes m.dram pa bs }

/-- Keys strictly rising from a bound, and no value equal to the default. -/
def tabOk {β : Type} [DecidableEq β] (d : β) : Nat → List (Nat × β) → Bool
  | _, [] => true
  | b, (k, v) :: t => decide (b ≤ k) && decide (v ≠ d) && tabOk d (k + 1) t

/-- The canonical form of the memories: equal memories are equal lists. -/
def Memory.wf (m : Memory) : Bool :=
  tabOk emptyByte 0 m.gal && tabOk emptyLabel 0 m.glab && tabOk emptyByte 0 m.dram

/-! ## Owner sets (R206, R207) -/

/-- The union of two owner sets, each strictly rising. -/
def joinL (x y : Label) : Label := y.foldl (fun acc o => insNat o acc) x

/-- The union of a list of owner sets. -/
def joinAll (ls : List Label) : Label := ls.foldl joinL []

/-- L1 dominates L2 when it holds every owner of L2.  A set of more than eight owners is dominated by nothing (R211). -/
def dominates (l1 l2 : Label) : Bool := decide (l2.length ≤ Config.maxOwners) && l2.all fun o => l1.contains o

/-- The handle of an owner set in a label table, if it has one; the public set's is 0 (R207). -/
def handleIn (t : Tab Label) (l : Label) : Option Nat :=
  if l = [] then some 0
  else match t with
    | [] => none
    | (h, x) :: r => if x = l then some h else handleIn r l

/-- The lowest handle above `h` that a label table does not bind; `n` is how many handles are left to try. -/
def lowestFree (t : Tab Label) : Nat → Nat → Option Nat
  | _, 0 => none
  | h, n + 1 => match kget t h with
    | none => some h
    | some _ => lowestFree t (h + 1) n

/-- A label table that binds an owner set (R209): a set already bound keeps its handle, a new one takes the lowest
unbound handle; none when the set holds more than eight owners or the table is full. -/
def bindIn (t : Tab Label) (l : Label) : Option (Tab Label) :=
  match handleIn t l with
  | some _ => some t
  | none =>
    if l.length ≤ Config.maxOwners then (lowestFree t 1 (Config.handles - 1)).map fun h => kset t h l else none

/-- A label table that binds every set of a list, in order. -/
def bindAll (t : Tab Label) : List Label → Option (Tab Label)
  | [] => some t
  | l :: r => match bindIn t l with
    | some t' => bindAll t' r
    | none => none

/-- The owner set a handle names, if it is bound (R207). -/
def setOf (t : Tab Label) (h : Nat) : Option Label := if h = 0 then some [] else kget t h

end Sys2Proof.Machine
end

