-- ==== Sys2Proof/Machine/Window.lean ====
section
/-! DEFINITION. Flowstone's rules: the fields of a rule entry, which entries are well formed, and the matching of a
window (R280 to R285). -/
namespace Sys2Proof.Machine

/-- The kinds of operand `p` of an operation (R281): 0 none, 1 accumulator, 2 pair, 3 immediate, 4 address,
5 parameter block. -/
def operandKind (op p : Nat) : Nat :=
  match op, p with
  | 0, 0 => 1
  | 0, 1 => 2
  | 0, 2 => 2
  | 1, 0 => 1
  | 2, 0 => 2
  | 2, 1 => 2
  | 3, 0 => 1
  | 3, 1 => 3
  | 4, 0 => 1
  | 4, 1 => 4
  | 5, 0 => 1
  | 5, 1 => 5
  | 6, 0 => 1
  | 6, 1 => 5
  | 7, 0 => 1
  | 7, 1 => 3
  | _, _ => 0

/-- The pair that operand `p` of a tile instruction is (R281): TMMA's A and B, TTRN's D and S. -/
def pairOf (t : TileOp) (p : Nat) : Word × Word :=
  if t.op = 2 then (if p = 0 then t.a else t.b) else (if p = 1 then t.a else t.b)

/-- The captured value of operand `p`, as numbers to compare (R282: value-equal). -/
def operandVal (t : TileOp) (p : Nat) : List Nat :=
  match operandKind t.op p with
  | 1 => [t.acc]
  | 2 => [(pairOf t p).1.toNat, (pairOf t p).2.toNat]
  | 3 => [t.imm.toNat]
  | 4 => [t.addr.toNat]
  | 5 => t.addr.toNat :: t.blk.map BitVec.toNat
  | _ => []

/-- What two pairs have equal when they are chunk-equal (R282): BASE, ROT, BLK, KSTEPS, TPITCH and RPITCH. -/
def chunkVal (q : Word × Word) : List Nat :=
  [bits q.1 0 32, bits q.2 60 4, bits q.2 58 1, bits q.2 51 7, bits q.2 32 19, bits q.2 0 19]

/-! ## Rule entries -/

/-- Dword `i` of entry `k` of a rule table (R280). -/
def ruleDw (tbl : Tab Word) (k i : Nat) : Word := aget 0 tbl (8 * k + i)

/-- The eight dwords of entry `k`. -/
def ruleOf (tbl : Tab Word) (k : Nat) : List Word := (List.range 8).map (ruleDw tbl k)

/-- A dword of an entry. -/
def dwOf (e : List Word) (i : Nat) : Word := nth 0 e i

/-- VALID (R280). -/
def ruleValid (e : List Word) : Bool := bit (dwOf e 0) 31
/-- CLASS (R280). -/
def ruleClass (e : List Word) : Nat := bits (dwOf e 0) 26 2
/-- The pattern length (R280). -/
def ruleNpat (e : List Word) : Nat := bits (dwOf e 0) 24 2 + 2
/-- The replacement length (R280). -/
def ruleNrep (e : List Word) : Nat := bits (dwOf e 0) 22 2 + 1
/-- REQ (R280). -/
def ruleReq (e : List Word) : Nat := bits (dwOf e 0) 8 5
/-- Pattern slot `i` (R280). -/
def patSlot (e : List Word) (i : Nat) : Word := dwOf e (1 + i)
/-- Replacement slot `i` (R280). -/
def repSlot (e : List Word) (i : Nat) : Word := dwOf e (5 + i)
/-- OP of a slot. -/
def slotOp (w : Word) : Nat := bits w 60 4
/-- FMT of a slot. -/
def slotFmt (w : Word) : Nat := bits w 56 4
/-- EQp of a pattern slot (R282). -/
def slotEq (w : Word) (p : Nat) : Nat := bits w (49 - 7 * p) 7
/-- PRED of a pattern slot (R282). -/
def slotPred (w : Word) : Nat := bits w 0 6
/-- Xp of a replacement slot (R283). -/
def slotX (w : Word) (p : Nat) : Nat := bits w (44 - 12 * p) 12
/-- KIND of an equality field. -/
def eqKind (q : Nat) : Nat := q / 32
/-- SLOT of an equality field. -/
def eqSlot (q : Nat) : Nat := q / 8 % 4
/-- OPND of an equality field. -/
def eqOpnd (q : Nat) : Nat := q / 2 % 4
/-- USE of a source field (R283). -/
def xUse (x : Nat) : Bool := x / 2048 % 2 == 1
/-- SLOT of a source field. -/
def xSlot (x : Nat) : Nat := x / 512 % 4
/-- OPND of a source field. -/
def xOpnd (x : Nat) : Nat := x / 128 % 4
/-- BSEP of a source field. -/
def xBsep (x : Nat) : Bool := x / 64 % 2 == 1
/-- BSLOT of a source field. -/
def xBslot (x : Nat) : Nat := x / 16 % 4
/-- BOPND of a source field. -/
def xBopnd (x : Nat) : Nat := x / 4 % 4

/-- FMT is valid for an OP (R284): TMMA 0 to 5, TTRN 0 to 4, or 15; always 15 for other operations. -/
def fmtOk (op fmt : Nat) : Bool :=
  fmt == 15 || (op == 0 && decide (fmt ≤ 5)) || (op == 2 && decide (fmt ≤ 4))

/-- An equality field of slot `i`, operand `p`, names only an earlier slot and an operand of the same kind; chunk-equal
applies to pairs (R282, R284). -/
def eqOk (e : List Word) (i p : Nat) : Bool :=
  let q := slotEq (patSlot e i) p
  let kind := operandKind (slotOp (patSlot e i)) p
  q % 2 == 0 && (eqKind q == 0 || (decide (eqKind q ≤ 2) && decide (eqSlot q < i) && kind != 0 &&
    operandKind (slotOp (patSlot e (eqSlot q))) (eqOpnd q) == kind && (eqKind q != 2 || kind == 2)))

/-- The predicate bits that an OP admits (R282). -/
def predMask (op : Nat) : Nat :=
  match op with
  | 0 => 0x30
  | 3 => 0x01
  | 5 => 0x0E
  | 6 => 0x0E
  | _ => 0

/-- A pattern slot satisfies R282 (R284, point 2). -/
def patOk (e : List Word) (i : Nat) : Bool :=
  let w := patSlot e i
  decide (slotOp w ≤ 6) && fmtOk (slotOp w) (slotFmt w) && bits w 6 29 == 0 &&
  eqOk e i 0 && eqOk e i 1 && eqOk e i 2 && (slotPred w &&& (0x3F ^^^ predMask (slotOp w))) == 0

/-- A source field of a replacement slot satisfies R283 (R284, point 3). -/
def xOk (e : List Word) (w : Word) (p : Nat) : Bool :=
  let x := slotX w p
  let kind := operandKind (slotOp w) p
  if kind = 0 then x == 0
  else xUse x && x % 4 == 0 && decide (xSlot x < ruleNpat e) &&
    operandKind (slotOp (patSlot e (xSlot x))) (xOpnd x) == kind &&
    (if xBsep x then kind == 2 && decide (xBslot x < ruleNpat e) &&
        operandKind (slotOp (patSlot e (xBslot x))) (xBopnd x) == 2
     else x / 4 % 16 == 0)

/-- A replacement slot satisfies R283. -/
def repOk (e : List Word) (w : Word) : Bool :=
  decide (slotOp w ≤ 7) && fmtOk (slotOp w) (slotFmt w) && bits w 0 20 == 0 && xOk e w 0 && xOk e w 1 && xOk e w 2 &&
  (slotFmt w != 15 || !(slotOp w == 0 || slotOp w == 2) ||
    slotOp (patSlot e (xSlot (slotX w 0))) == slotOp w)

/-- The operations that R284, point 4, keeps in place. -/
def keptOp (op : Nat) : Bool := op == 1 || op == 4 || op == 5 || op == 6

/-- The indices below `n` whose slot operation a test accepts. -/
def slotsWith (f : Nat → Word) (t : Nat → Bool) (n : Nat) : List Nat :=
  (List.range n).filter fun i => t (slotOp (f i))

/-- A replacement slot takes every operand, with BSEP 0, from the same operand of pattern slot `i` (R284, point 4). -/
def sameOperands (w : Word) (i : Nat) : Bool :=
  (List.range 3).all fun p =>
    operandKind (slotOp w) p == 0 || (xSlot (slotX w p) == i && xOpnd (slotX w p) == p && !xBsep (slotX w p))

/-- The binding, draining and freeing slots correspond one to one, in order (R284, point 4). -/
def keptOk (e : List Word) : Bool :=
  let ps := slotsWith (patSlot e) keptOp (ruleNpat e)
  let rs := slotsWith (repSlot e) keptOp (ruleNrep e)
  decide (ps.length = rs.length) && (ps.zip rs).all fun pr =>
    slotOp (patSlot e pr.1) == slotOp (repSlot e pr.2) && sameOperands (repSlot e pr.2) pr.1

/-- At most one replacement slot writes the Gallery, and it is the last one (R284, point 5). -/
def lastWriter (e : List Word) : Bool :=
  (slotsWith (repSlot e) (fun op => op == 2 || op == 5 || op == 6) (ruleNrep e)).all fun i => i + 1 == ruleNrep e

/-- X0 and X1 of a replacement slot name operands 0 and 1 of pattern slot `i`, wherever its bands are from. -/
def namesOperands (w : Word) (i : Nat) : Bool :=
  [0, 1].all fun p => xSlot (slotX w p) == i && xOpnd (slotX w p) == p

/-- Every pattern TTRN keeps its replacement, or REQ has ELIDE (R284, point 6). -/
def elideOk (e : List Word) : Bool :=
  ruleReq e / 16 % 2 == 1 || (slotsWith (patSlot e) (· == 2) (ruleNpat e)).all fun i =>
    (slotsWith (repSlot e) (· == 2) (ruleNrep e)).any fun r => namesOperands (repSlot e r) i

/-- A well-formed entry (R284). -/
def ruleOk (e : List Word) : Bool :=
  e.all (· == 0#64) ||
  (ruleValid e && bits (dwOf e 0) 32 32 == 0 && bits (dwOf e 0) 28 3 == 0 && bits (dwOf e 0) 13 9 == 0 &&
   bits (dwOf e 0) 0 8 == 0 && decide (ruleNpat e ≤ 4) && decide (ruleNrep e ≤ 3) && decide (ruleNrep e ≤ ruleNpat e) &&
   ((List.range 4).all fun i => if i < ruleNpat e then patOk e i else patSlot e i == 0#64) &&
   ((List.range 3).all fun i => if i < ruleNrep e then repOk e (repSlot e i) else repSlot e i == 0#64) &&
   keptOk e && lastWriter e && elideOk e)

/-! ## Matching -/

/-- The tile operation of a pending instruction. -/
def tileOf (p : Pend) : Option TileOp :=
  match p.work with
  | .tile t => some t
  | _ => none

/-- A tile operation that matches nothing: what stands where a window has none. -/
def noTile : TileOp := ⟨15, 0, 0, (0, 0), (0, 0), 0, 0, [], false, [], 0, 0, [], 0, 0, [], none⟩

/-- The tile operation at a window position. -/
def tileAt (win : List Pend) (i : Nat) : TileOp := ((win[i]?).bind tileOf).getD noTile

/-- A byte of a captured parameter block (R271). -/
def blkByte (t : TileOp) (i : Nat) : Nat := numAt t.blk i 1
/-- FREE (R271). -/
def blkFree (t : TileOp) : Bool := blkByte t 0x16 / 4 % 2 == 1
/-- BIASEN (R271). -/
def blkBiasen (t : TileOp) : Bool := blkByte t 0x16 / 2 % 2 == 1
/-- ACT (R271). -/
def blkAct (t : TileOp) : Nat := blkByte t 0x15 % 4
/-- OFMT (R271). -/
def blkOfmt (t : TileOp) : Nat := blkByte t 0x14 % 16
/-- ROT (R271). -/
def blkRot (t : TileOp) : Nat := blkByte t 0x14 / 16

/-- The immediate is a positive normal power of two (R282, P2SCALE). -/
def powerOfTwo (x : BitVec 16) : Bool :=
  !x.getLsbD 15 && x.toNat % 128 == 0 && decide (1 ≤ x.toNat / 128) && decide (x.toNat / 128 ≤ 254)

/-- Predicate bit `k` of a pattern slot holds of a tile instruction (R282). -/
def predHolds (t : TileOp) (k : Nat) : Bool :=
  match k with
  | 0 => powerOfTwo t.imm
  | 1 => blkFree t
  | 2 => blkOfmt t != 7
  | 3 => blkAct t == 0
  | 4 => !bit t.a.2 59
  | 5 => !bit t.b.2 59
  | _ => true

/-- Operand `p` of window position `x` meets its equality field (R282). -/
def eqHolds (win : List Pend) (i : Nat) (x : TileOp) (q p : Nat) : Bool :=
  let y := tileAt win (i + eqSlot q)
  match eqKind q with
  | 0 => true
  | 1 => operandVal x p == operandVal y (eqOpnd q)
  | _ => chunkVal (pairOf x p) == chunkVal (pairOf y (eqOpnd q))

/-- A tile instruction meets pattern slot `w` at position `i` (R285).  A drain with a damaged parameter block matches
no rule (R264). -/
def slotFits (win : List Pend) (i : Nat) (w : Word) (x : TileOp) : Bool :=
  x.op == slotOp w && !x.blkDmg && (slotFmt w == 15 || x.fmt == slotFmt w) &&
  eqHolds win i x (slotEq w 0) 0 && eqHolds win i x (slotEq w 1) 1 && eqHolds win i x (slotEq w 2) 2 &&
  ((List.range 6).all fun k => !(slotPred w).testBit k || predHolds x k)

/-- The pattern of an entry fits the window from position `i` (R285). -/
def ruleFits (win : List Pend) (e : List Word) (i : Nat) : Bool :=
  (List.range (ruleNpat e)).all fun s => slotFits win i (patSlot e s) (tileAt win (i + s))

/-- PERMIT has the bit of the rule's class and every bit of its REQ (R278). -/
def permitted (permit : Nat) (e : List Word) : Bool :=
  permit.testBit (ruleClass e) && (ruleReq e &&& permit) == ruleReq e

/-- A pair with SBASE and BANDEN of another (R283, BSEP). -/
def withBands (q band : Word × Word) : Word × Word :=
  ((q.1 &&& 0xFFFFFFFF#64) ||| (band.1 &&& 0xFFFFFFFF00000000#64),
   (q.2 &&& ~~~(1#64 <<< 59)) ||| (band.2 &&& (1#64 <<< 59)))

/-- What a source field supplies as a pair: the pair, its two band scales, which of the two were damaged, and whether they
are still to be read, because no original read them at issue (R283). -/
def sourcePair (win : List Pend) (i x : Nat) : (Word × Word) × List (BitVec 16) × Nat × Bool :=
  let t := tileAt win (i + xSlot x)
  let q := pairOf t (xOpnd x)
  let bt := if xBsep x then tileAt win (i + xBslot x) else t
  let bo := if xBsep x then xBopnd x else xOpnd x
  let bq := pairOf bt bo
  let k := if bo = 1 then 0 else 1
  let pair := if xBsep x then withBands q bq else q
  if bt.op = 0 then (pair, (bt.bands.drop (2 * k)).take 2, bt.bandDmg / 4 ^ k % 4, false)
  else (pair, [0x3F80#16, 0x3F80#16], 0, bit bq.2 59)

/-- The accumulator a source field supplies. -/
def sourceAcc (win : List Pend) (i x : Nat) : Nat := (tileAt win (i + xSlot x)).acc

/-- The tile operation of a replacement slot (R283). -/
def buildRep (win : List Pend) (i : Nat) (w : Word) : TileOp :=
  let x0 := slotX w 0
  let x1 := slotX w 1
  let x2 := slotX w 2
  let t0 := tileAt win (i + xSlot x0)
  let t1 := tileAt win (i + xSlot x1)
  let fmt := if slotFmt w = 15 then t0.fmt else slotFmt w
  let base := { noTile with op := slotOp w, fmt := fmt, acc := sourceAcc win i x0 }
  match slotOp w with
  | 0 =>
    let a := sourcePair win i x1
    let b := sourcePair win i x2
    { base with
      a := a.1, b := b.1, bands := a.2.1 ++ b.2.1, bandDmg := a.2.2.1 + 4 * b.2.2.1,
      late := b2n a.2.2.2 + 2 * b2n b.2.2.2, ra := t0.ra, rb := t0.rb }
  | 1 => base
  | 2 => { base with acc := 0, a := (sourcePair win i x0).1, b := (sourcePair win i x1).1 }
  | 4 => { base with addr := t1.addr, ra := t1.ra }
  | 5 => { base with addr := t1.addr, blk := t1.blk, ra := t1.ra }
  | 6 => { base with addr := t1.addr, blk := t1.blk, ra := t1.ra }
  | _ => { base with imm := t1.imm }

/-- The first rule of pattern length `len` that fits at position `i`, from index `k` on: its index, whether it is
permitted; and whether an earlier one of this length fitted without being permitted (R285). -/
def findRule (tbl : Tab Word) (win : List Pend) (permit i len : Nat) : Nat → Nat → Option Nat × Bool
  | _, 0 => (none, false)
  | k, n + 1 =>
    let e := ruleOf tbl k
    if ruleValid e && ruleNpat e == len && ruleFits win e i then
      if permitted permit e then (some k, false) else ((findRule tbl win permit i len (k + 1) n).1, true)
    else findRule tbl win permit i len (k + 1) n

/-- The rule that applies at position `i`, longest pattern first, and whether some fitting rule was refused. -/
def chooseRule (tbl : Tab Word) (win : List Pend) (permit i : Nat) : List Nat → Option Nat × Bool
  | [] => (none, false)
  | len :: rest =>
    match findRule tbl win permit i len 0 256 with
    | (some k, r) => (some k, r)
    | (none, r) =>
      let q := chooseRule tbl win permit i rest
      (q.1, r || q.2)

/-- The result of matching: units in order, and how much REWRITTEN, REFUSED and REMOVED gain (R291). -/
structure Matched where
  units : List TileUnit
  rewritten : Nat
  refused : Nat
  removed : Nat
  deriving DecidableEq, Repr

/-- The matching of a window from position `i` on (R285); `fuel` bounds the positions left. -/
def matchFrom (tbl : Tab Word) (win : List Pend) (permit wk : Nat) : Nat → Nat → Matched
  | _, 0 => ⟨[], 0, 0, 0⟩
  | i, fuel + 1 =>
    match win[i]? with
    | none => ⟨[], 0, 0, 0⟩
    | some p =>
      let lens := (List.range 3).reverse.map (· + 2) |>.filter fun len => decide (len ≤ win.length - i)
      match chooseRule tbl win permit i lens with
      | (some k, _) =>
        let e := ruleOf tbl k
        let orig := (win.drop i).take (ruleNpat e)
        let repl := (List.range (ruleNrep e)).map fun r => (r, buildRep win i (repSlot e r))
        let m := matchFrom tbl win permit wk (i + ruleNpat e) fuel
        { m with
          units := ⟨wk, some k, orig, repl, none, []⟩ :: m.units
          rewritten := m.rewritten + 1
          removed := m.removed + (ruleNpat e - ruleNrep e) }
      | (none, r) =>
        let m := matchFrom tbl win permit wk (i + 1) fuel
        { m with units := ⟨wk, none, [p], [], none, []⟩ :: m.units, refused := m.refused + b2n r }

/-- Flowstone's result for a window (R285).  With PERMIT = 0 nothing is rewritten (R278), and no rule is looked at for
a table without entries. -/
def matchWindow (tbl : Tab Word) (win : List Pend) (permit wk : Nat) : Matched :=
  if tbl.isEmpty then ⟨win.map fun p => ⟨wk, none, [p], [], none, []⟩, 0, 0, 0⟩
  else matchFrom tbl win permit wk 0 win.length

end Sys2Proof.Machine
end

