-- ==== Sys2Proof/Machine/Ops.lean ====
section
/-! DEFINITION. The named operations every meaning is written over: the parts of the state, the issuer of an
instruction, registers and their labels, translation and Gallery addresses, and taking a trap, delivering it and
returning from it. -/
namespace Sys2Proof.Machine

/-! ## The parts of the state -/

/-- A core. -/
def State.core (s : State) (c : Nat) : Core := aget Core.zero s.cores c
/-- A state with one core replaced. -/
def State.setCore (s : State) (c : Nat) (k : Core) : State := { s with cores := aset Core.zero s.cores c k }
/-- A state with one core changed. -/
def State.modCore (s : State) (c : Nat) (f : Core → Core) : State := s.setCore c (f (s.core c))
/-- A warp, if the slot holds one. -/
def State.warp (s : State) (k : Nat) : Option Warp := kget s.warps k
/-- A state with one warp replaced. -/
def State.setWarp (s : State) (k : Nat) (w : Warp) : State := { s with warps := kset s.warps k w }
/-- A state with one warp changed, where the slot holds one. -/
def State.modWarp (s : State) (k : Nat) (f : Warp → Warp) : State :=
  match s.warp k with
  | some w => s.setWarp k (f w)
  | none => s
/-- A state with the hub changed. -/
def State.modHub (s : State) (f : Hub → Hub) : State := { s with hub := f s.hub }
/-- An address space. -/
def State.asidOf (s : State) (a : Nat) : Asid := aget Asid.zero s.hub.asids a
/-- A state with one address space changed. -/
def State.modAsid (s : State) (a : Nat) (f : Asid → Asid) : State :=
  s.modHub fun h => { h with asids := aset Asid.zero h.asids a (f (aget Asid.zero h.asids a)) }
/-- A partition. -/
def State.partOf (s : State) (p : Nat) : Partition := aget Partition.zero s.hub.parts p
/-- A state with one partition changed. -/
def State.modPart (s : State) (p : Nat) (f : Partition → Partition) : State :=
  s.modHub fun h => { h with parts := aset Partition.zero h.parts p (f (aget Partition.zero h.parts p)) }
/-- A launch. -/
def State.launchOf (s : State) (l : Nat) : Option Launch := kget s.launches l
/-- A state with one launch changed. -/
def State.modLaunch (s : State) (l : Nat) (f : Launch → Launch) : State :=
  match s.launchOf l with
  | some x => { s with launches := kset s.launches l (f x) }
  | none => s
/-- A state with one gang of a launch changed. -/
def State.modGang (s : State) (l g : Nat) (f : Gang → Gang) : State :=
  s.modLaunch l fun x => match kget x.gangs g with
    | some y => { x with gangs := kset x.gangs g (f y) }
    | none => x
/-- A state with a supervisor notice added, as the hub event arbiter orders it (R374). -/
def State.notify (s : State) (kind : Nat) (data : List Nat) (words : List Word) : State :=
  s.modHub fun h => { h with notices := h.notices ++ [⟨kind, data, words⟩], hseq := h.hseq + 1 }
/-- An event corrected at a core's store: counted there, and logged (R369). -/
def State.logCorrected (s : State) (c : Nat) (loc : Store) : State :=
  (s.modCore c fun k => { k with corrected := (loc, (k.corrected.lookup loc).getD 0 + 1) :: k.corrected.filter (·.1 != loc) }).notify
    10 [3, c] []
/-- The contexts of swapped-out blocks: in the cores' shadow planes and in the save areas (R380). -/
def State.contexts (s : State) : List Context :=
  s.cores.filterMap (·.2.shadow) ++ s.hub.parts.flatMap fun p => p.2.saved.map (·.2)
/-- A state with every context of a swapped-out block changed. -/
def State.mapContexts (s : State) (f : Context → Context) : State :=
  let s := { s with cores := s.cores.map fun (p : Nat × Core) => (p.1, { p.2 with shadow := p.2.shadow.map f }) }
  s.modHub fun h =>
    { h with parts := h.parts.map fun (p : Nat × Partition) => (p.1, { p.2 with saved := p.2.saved.map fun q => (q.1, f q.2) }) }
/-- A state whose free-value counter has moved past a drawn value. -/
def State.drew (s : State) : State := { s with free := s.free + 1 }

/-! ## A launch's shape (R48 to R50) -/

/-- COUNT of a level entry (R53). -/
def lvlCount (e : Nat) : Nat := e % 2 ^ 24
/-- DOMAIN of a level entry (R53). -/
def lvlDomain (e : Nat) : Nat := e / 2 ^ 24 % 8
/-- SCOPE of a level entry (R53). -/
def lvlScope (e : Nat) : Nat := e / 2 ^ 27 % 8
/-- The entry of level `n`, 2 to 7; levels 0 and 1 have none. -/
def LRec.level (r : LRec) (n : Nat) : Nat := if n < 2 then 0 else nth 0 r.levels (n - 2)
/-- Level `n` is declared (R48). -/
def LRec.declared (r : LRec) (n : Nat) : Bool := decide (n < 2) || lvlCount (r.level n) != 0
/-- The highest declared level (R48). -/
def LRec.top (r : LRec) : Nat := ([7, 6, 5, 4, 3].find? fun n => lvlCount (r.level n) != 0).getD 2
/-- The scope code of a level (R182): levels 0 and 1 have scope core. -/
def LRec.scope (r : LRec) (n : Nat) : Nat := lvlScope (r.level n)
/-- The launch has a cluster level (R49). -/
def LRec.clustered (r : LRec) : Bool := r.declared 3 && lvlDomain (r.level 3) == 1
/-- Blocks of one gang: C3 with a cluster level, else 1 (R49). -/
def LRec.gangBlocks (r : LRec) : Nat := if r.clustered then lvlCount (r.level 3) else 1
/-- The product of the counts of levels 3 to `n` (R50). -/
def LRec.blocksUpTo (r : LRec) (n : Nat) : Nat :=
  ([3, 4, 5, 6, 7].filter (· ≤ n)).foldl (fun a m => a * (if r.declared m then lvlCount (r.level m) else 1)) 1
/-- The number of blocks of the launch (R50). -/
def LRec.blocks (r : LRec) : Nat := r.units * r.blocksUpTo r.top
/-- The replication factor (R53). -/
def LRec.repl (r : LRec) : Nat := r.flags % 4
/-- TRAPV (R53). -/
def LRec.trapv (r : LRec) : Bool := r.flags / 16 % 2 == 1
/-- COSIDE (R53). -/
def LRec.coside (r : LRec) : Bool := r.flags / 8 % 2 == 1
/-- LVLn of block `b` (R48, R50), for n ≥ 2: its index within its level-(n+1) unit, or at the highest declared level
within the launch; an undeclared level reads as 0. -/
def LRec.lvl (r : LRec) (b n : Nat) : Nat :=
  if !r.declared n then 0
  else if n = r.top then b / r.blocksUpTo n
  else b / r.blocksUpTo n % lvlCount (r.level (n + 1))
/-- The level-n unit a block belongs to, numbered over the whole launch. -/
def LRec.unitOf (r : LRec) (b n : Nat) : Nat := b / r.blocksUpTo n

/-! ## The issuer -/

/-- The registers an instruction names: those it reads and writes (V, G, P, M), whether it is a flush point of R277, and the
V registers that it reads in lanes of their own, with those lanes. -/
structure Uses where
  rv : List Nat := []
  rg : List Nat := []
  rp : List Nat := []
  rm : List Nat := []
  wv : List Nat := []
  wg : List Nat := []
  wp : List Nat := []
  wm : List Nat := []
  flush : Bool := false
  cross : List (Nat × Mask) := []
  deriving DecidableEq, Repr

/-- The issuing warp with its place: core, slot, block, launch, gang, and the running clause; `ext` are the external bytes that Echo
has delivered for a tile instruction (R336). -/
structure Ctx where
  wk : Nat
  core : Nat
  slot : Nat
  w : Warp
  blk : Block
  la : Launch
  gi : Nat
  gang : Gang
  run : Run
  word : BitVec 32
  uses : Uses
  ext : List ExtPiece
  deriving DecidableEq, Repr

/-- The issuing lane group. -/
def Ctx.grp (x : Ctx) : Mask := x.run.grp
/-- The address of the instruction. -/
def Ctx.pc (x : Ctx) : Word := x.run.pos
/-- The launch record. -/
def Ctx.lr (x : Ctx) : LRec := x.la.record
/-- The ASID. -/
def Ctx.asid (x : Ctx) : Nat := x.la.asid
/-- The partition. -/
def Ctx.part (x : Ctx) (s : State) : Nat := (s.asidOf x.la.asid).part
/-- The label table of the issuer's ASID. -/
def Ctx.labels (x : Ctx) (s : State) : Tab Label := (s.asidOf x.la.asid).labels
/-- WCL as it stands. -/
def Ctx.wcl (x : Ctx) : Label := x.w.wcl
/-- The launch is replicated. -/
def Ctx.replicated (x : Ctx) : Bool := decide (2 ≤ x.la.record.repl)

/-- The context of warp `k`, with a given clause and word. -/
def ctxOf (s : State) (k : Nat) (run : Run) (word : BitVec 32) : Option Ctx :=
  match s.warp k with
  | none => none
  | some w =>
    match (s.core (k / 32)).block with
    | none => none
    | some b =>
      match s.launchOf b.launch with
      | none => none
      | some la =>
        let gi := b.b / la.record.gangBlocks
        match kget la.gangs gi with
        | none => none
        | some g => some ⟨k, k / 32, k % 32, w, b, la, gi, g, run, word, {}, []⟩

/-! ## Registers -/

/-- V[r][l]. -/
def WRegs.getV (q : WRegs) (r l : Nat) : Word := aget 0 q.v (32 * r + l)
/-- label(V[r][l]). -/
def WRegs.labV (q : WRegs) (r l : Nat) : Label := aget [] q.vl (32 * r + l)
/-- G[r]. -/
def WRegs.getG (q : WRegs) (r : Nat) : Word := aget 0 q.g r
/-- label(G[r]). -/
def WRegs.labG (q : WRegs) (r : Nat) : Label := aget [] q.gl r
/-- Every lane's copy of P[p]; P7 always reads as true (R15). -/
def WRegs.getP (q : WRegs) (p : Nat) : Mask := if p = 7 then 0xFFFFFFFF#32 else aget 0 q.p p
/-- label(P[p][l]); P7 is public. -/
def WRegs.labP (q : WRegs) (p l : Nat) : Label := if p = 7 then [] else aget [] q.pl (32 * p + l)
/-- M[r]. -/
def WRegs.getM (q : WRegs) (r : Nat) : Mask := aget 0 q.m r
/-- label(M[r]). -/
def WRegs.labM (q : WRegs) (r : Nat) : Label := aget [] q.ml r

/-- The damaged words without one that has been written whole. -/
def undamage (d : List Nat) (k : Nat) : List Nat := d.filter (· != k)

/-- V[r][l] written with its label. -/
def WRegs.setV (q : WRegs) (r l : Nat) (v : Word) (lab : Label) : WRegs :=
  { q with
    v := aset 0 q.v (32 * r + l) v, vl := aset [] q.vl (32 * r + l) lab,
    dmg := undamage q.dmg (32 * r + l) }
/-- G[r] written with its label. -/
def WRegs.setG (q : WRegs) (r : Nat) (v : Word) (lab : Label) : WRegs :=
  { q with g := aset 0 q.g r v, gl := aset [] q.gl r lab, dmg := undamage q.dmg (4096 + r) }
/-- P[p][l] written with its label; P7 always reads as true, so a write to it is discarded (R15).  The register has one damage
mark, which any lane's write clears (log entry 11). -/
def WRegs.setP (q : WRegs) (p l : Nat) (v : Bool) (lab : Label) : WRegs :=
  if p = 7 then q
  else
    let m := aget 0 q.p p
    { q with
      p := aset 0 q.p p (if v then m ||| laneBit l else m &&& ~~~(laneBit l)),
      pl := aset [] q.pl (32 * p + l) lab,
      dmg := undamage q.dmg (8192 + p) }
/-- M[r] written with its label. -/
def WRegs.setM (q : WRegs) (r : Nat) (v : Mask) (lab : Label) : WRegs :=
  { q with m := aset 0 q.m r v, ml := aset [] q.ml r lab, dmg := undamage q.dmg (12288 + r) }

/-- The damage key of a lane's V word, of a G, P or M register: file * 4096 + key. -/
def dmgKeyV (r l : Nat) : Nat := 32 * r + l
/-- The damage key of a G register. -/
def dmgKeyG (r : Nat) : Nat := 4096 + r
/-- The damage key of a P register. -/
def dmgKeyP (p : Nat) : Nat := 8192 + p
/-- The damage key of an M register. -/
def dmgKeyM (r : Nat) : Nat := 12288 + r

/-- The label of every register an instruction reads, in every lane of a group (R362). -/
def readLabels (q : WRegs) (u : Uses) (grp : Mask) : Label :=
  joinAll ((u.rv.flatMap fun r => (lanesOf grp).map (q.labV r)) ++ u.rg.map q.labG ++
    (u.rp.flatMap fun p => (lanesOf grp).map (q.labP p)) ++ u.rm.map q.labM)

/-! ## Translation (R219, R395) -/

/-- Entry `i` of the page table at a physical address (R395): entries of 16 bytes. -/
def State.pte (s : State) (table i : Nat) : Leaf := aget Leaf.zero s.hub.ptes (table / 16 + i)
/-- A state with entry `i` of a page table written, as the Lantern pair writes it. -/
def State.setPte (s : State) (table i : Nat) (e : Leaf) : State :=
  s.modHub fun h => { h with ptes := aset Leaf.zero h.ptes (table / 16 + i) e }
/-- The level-1 table of an address space: PTROOT (R394). -/
def State.rootOf (s : State) (asid : Nat) : Nat := bits (s.asidOf asid).ptroot 16 36 * 2 ^ 16
/-- A pointer is valid and well formed (R395): TYPE 0, and dword 1 zero. -/
def pointerOk (e : Leaf) : Bool :=
  bit e.dw 0 && bits e.dw 3 2 == 0 && bits e.dw 52 12 == 0 && bits e.dw 5 11 == 0 && e.tag == 0
/-- The table that a pointer names. -/
def tableOf (e : Leaf) : Nat := bits e.dw 16 36 * 2 ^ 16
/-- The table that entry `i` of a table points to. -/
def State.below (s : State) (table i : Nat) : Option Nat :=
  let e := s.pte table i
  if pointerOk e then some (tableOf e) else none

/-- A leaf's dword 0 and tag are well formed for a TYPE (R219, R395). -/
def leafOk (lf : Leaf) (ty low : Nat) : Bool :=
  bit lf.dw 0 && bits lf.dw 3 2 == ty && bits lf.dw 52 12 == 0 && bits lf.dw 5 11 == 0 &&
  bits lf.dw 16 (low - 16) == 0 && bits lf.tag 37 27 == 0 && decide (bits lf.tag 35 2 ≤ 1)

/-- The indices of a virtual address into the three levels (R395). -/
def ix1 (va : Nat) : Nat := va / 2 ^ 40 % 2 ^ 12
/-- The level-2 index. -/
def ix2 (va : Nat) : Nat := va / 2 ^ 30 % 2 ^ 10
/-- The level-3 index. -/
def ix3 (va : Nat) : Nat := va / 2 ^ 19 % 2 ^ 11

/-- The level-2 table for a virtual address of an address space, if a pointer leads there. -/
def table2 (s : State) (asid va : Nat) : Option Nat := s.below (s.rootOf asid) (ix1 va)
/-- The level-3 table for a virtual address, if pointers lead there. -/
def table3 (s : State) (asid va : Nat) : Option Nat := (table2 s asid va).bind fun t => s.below t (ix2 va)

/-- The leaf that covers a virtual address, with the number of its offset bits, by the walk from PTROOT (R395): 1 GiB at level
2, 32 MiB and 512 KiB at level 3.  Any other form of entry is a translation fault. -/
def leafAt (s : State) (asid va : Nat) : Option (Leaf × Nat) :=
  match table2 s asid va with
  | none => none
  | some t =>
    let e := s.pte t (ix2 va)
    if leafOk e 3 30 then some (e, 30)
    else match s.below t (ix2 va) with
      | none => none
      | some u =>
        let e := s.pte u (ix3 va)
        if leafOk e 2 25 then some (e, 25) else if leafOk e 1 19 then some (e, 19) else none

/-- The physical address and leaf of a virtual address of an ASID, or none: a translation fault (R395). -/
def translate (s : State) (asid va : Nat) : Option (Nat × Leaf) :=
  if 2 ^ 52 ≤ va then none
  else (leafAt s asid va).map fun p => (bits p.1.dw 0 52 / 2 ^ p.2 * 2 ^ p.2 + va % 2 ^ p.2, p.1)

/-- Write permission W of a leaf. -/
def leafW (lf : Leaf) : Bool := bit lf.dw 1
/-- Code permission X of a leaf. -/
def leafX (lf : Leaf) : Bool := bit lf.dw 2

/-- The controller of a physical address is contained (R400). -/
def contained (s : State) (pa : Nat) : Bool := (aget Controller.zero s.hub.ctrls (Config.controllerOf pa)).contained

/-- Bytes of one line of main memory as they are read: damaged data from a contained controller (R400). -/
def dramBytes (s : State) (pa n : Nat) : List Byte :=
  if contained s pa then (List.range n).map fun i => Config.damagedByte (pa + i) else readBytes s.mem.dram pa n

/-- The word of code at a virtual address: the page must be mapped with V = 1 and X = 1 (R143). -/
def fetchWord (s : State) (asid : Nat) (va : Word) : Option (BitVec 32) :=
  match translate s asid va.toNat with
  | some (pa, lf) => if leafX lf then some (BitVec.ofNat 32 (ofBytes (dramBytes s pa 4))) else none
  | none => none

/-- The word at an address of the running clause, as it was decoded (R26). -/
def Run.wordAt (r : Run) (a : Word) : Option (BitVec 32) := r.words[(a - r.hdr).toNat / 4]?

/-! ## Gallery addresses (R172 to R174, R334) -/

/-- The core that a virtual slice number names for a block (R172); an entry that names a fenced core names nothing
that can be accessed (R371), and one that names a core of the issuer's own gang cannot be used (R174, R334). -/
def sliceCore (x : Ctx) (s : State) (v : Nat) : Option Nat :=
  let own := nth [] x.gang.cores x.blk.rep
  if v < 16 then
    if x.lr.clustered then own[v]? else if v = 0 then some x.core else none
  else
    let p := s.partOf (x.part s)
    if v - 16 < p.maplen then
      let c := aget 0 p.smap (v - 16)
      if (s.core c).fenced || x.gang.cores.any (·.contains c) then none else some c
    else none

/-- A grant entry covers a granule for reading, or for writing with GW (R53, R174). -/
def grantCovers (e : Word) (g : Nat) (wr : Bool) : Bool :=
  decide (bits e 0 26 ≤ g) && decide (g < bits e 0 26 + bits e 26 20) && (!wr || bit e 46)

/-- The physical address of one byte of the Gallery, if the block may access it in this direction (R174). -/
def galByte (x : Ctx) (s : State) (ga : Nat) (wr : Bool) : Option Nat :=
  if 2 ^ 32 ≤ ga then none
  else match sliceCore x s (ga / 2 ^ 20) with
    | none => none
    | some c =>
      if (decide (ga / 2 ^ 20 < 16) && decide (ga % 2 ^ 20 < 4096 * x.lr.win)) ||
          x.lr.grants.any (grantCovers · (ga / 64) wr) then some (c * 2 ^ 20 + ga % 2 ^ 20) else none

/-- The physical address of an access of `n` bytes that does not cross a granule. -/
def galPa (x : Ctx) (s : State) (ga n : Nat) (wr : Bool) : Option Nat :=
  match galByte x s ga wr, galByte x s (ga + n - 1) wr with
  | some pa, some _ => some pa
  | _, _ => none

/-- Every granule of `n` bytes from `ga` is accessible: the physical addresses of the granules' first bytes. -/
def galGranules (x : Ctx) (s : State) (ga n : Nat) (wr : Bool) : Option (List Nat) :=
  ((List.range ((ga + n + 63) / 64 - ga / 64)).map fun i => (ga / 64 + i) * 64).mapM fun g =>
    galPa x s (max g ga) (min (g + 64) (ga + n) - max g ga) wr |>.map fun pa => pa / 64 * 64

/-- The slice of an address is in a scope (R182). -/
def inScope (core scope pa : Nat) : Bool :=
  let c := pa / 2 ^ 20
  match scope with
  | 0 => c == core
  | 1 => c / 4 == core / 4
  | 2 => c / 160 == core / 160
  | _ => true

/-! ## Flushing the window (R277, R285) -/

/-- Add to a Flowstone counter (R291). -/
def addCounter (t : Tab Word) (sel n : Nat) : Tab Word := aset 0 t sel (aget 0 t sel + wd n)

/-- The rule table of the generation a gang matches against (R279). -/
def gangRules (s : State) (asid gen : Nat) : Tab Word :=
  aget [] (s.partOf (s.asidOf asid).part).gens gen

/-- A flush: the window is matched and its units go to the core's matrix engine in order (R277, R285); its instructions
are now among the warp's pending operations. -/
def flushWindow (s : State) (k : Nat) : State :=
  match ctxOf s k ⟨0, 0, 0, 15, 15, []⟩ 0 with
  | none => s
  | some x =>
    if x.w.window.isEmpty then s
    else
      let m := matchWindow (gangRules s x.asid x.gang.gen) x.w.window x.lr.permit k
      let s := s.setWarp k { x.w with
        window := []
        pend := x.w.pend ++ x.w.window
        counters := addCounter (addCounter (addCounter x.w.counters 0x101 m.rewritten) 0x102 m.refused) 0x104 m.removed }
      s.modCore x.core fun c => { c with engine := c.engine ++ m.units }

/-! ## Traps -/

/-- How the body of an instruction ends early. -/
inductive Stop where
  /-- A trap, with the state it is taken in. -/
  | trap (t : Trap) (s : State)
  /-- The instruction has not executed yet: it waits in this state. -/
  | stall (s : State)
  /-- The machine stops. -/
  | fault (f : Fault)

/-- A trap at the issuing instruction, POINT 0 (R357, R360): its mask is the group's, its frame label is formed by
R362, and the clause resumes at the instruction, or at the ORD before it (R200). -/
def Ctx.mkTrap (x : Ctx) (code : Nat) : Trap where
  code := code
  point := 0
  mask := x.grp
  grp := x.grp
  pc := x.pc
  hdr := x.run.hdr
  addr := 0
  aux := 0
  srcl := none
  dstl := none
  word := x.word
  rword := 0
  rule := none
  event := none
  tfl := joinL x.w.wcl (readLabels x.w.regs x.uses x.grp)
  run := some (if x.w.ord.isSome then { x.run with pos := x.run.pos - 4 } else x.run)
  resume := x.run.hdr
  again := []

/-- End an instruction with a trap at POINT 0 that reports a mask, an address and a detail. -/
def Ctx.trap {α : Type} (x : Ctx) (s : State) (code : Nat) (mask : Mask) (addr aux : Word) : Except Stop α :=
  .error (.trap { x.mkTrap code with mask := mask, addr := addr, aux := aux } s)

/-- End an instruction with a trap for the whole group. -/
def Ctx.trapG {α : Type} (x : Ctx) (s : State) (code : Nat) : Except Stop α := x.trap s code x.grp 0 0

/-- End an instruction with a label trap: the join that had to be dominated and the label that failed (R360). -/
def Ctx.trapL {α : Type} (x : Ctx) (s : State) (code : Nat) (mask : Mask) (addr : Word) (src dst : Label) :
    Except Stop α :=
  .error (.trap { x.mkTrap code with mask := mask, addr := addr, srcl := some src, dstl := some dst } s)

/-- A warp's request once its trap has been taken. -/
def untrap (r : Status) : Status := if r = .trapped then .running else r

/-- TAKING A TRAP (R357, R359): the window is flushed (R277), the whole warp stops with its lane groups' PCs as they
are, and the trap goes as a notice to the core event arbiter.  The frame is written when the monitor serves it. -/
def takeTrap (s : State) (k : Nat) (t : Trap) : State :=
  let s := flushWindow s k
  let s := s.modWarp k fun w =>
    { w with trap := some t, status := .trapped, request := untrap w.request, run := none, ord := none, passed := [],
             got := [], echo := none }
  s.modCore (k / 32) fun c => { c with notices := c.notices ++ [k] }

/-- An ASID's label table replaced by one that binds more sets; the hub event arbiter orders each allocation (R209, R222). -/
def State.setLabels (s : State) (asid : Nat) (t : Tab Label) : State :=
  let n := t.length - (s.asidOf asid).labels.length
  (s.modAsid asid fun a => { a with labels := t }).modHub fun h => { h with hseq := h.hseq + n }

/-- A state whose label table binds a set, if it can be bound (R209). -/
def bindLabel (s : State) (asid : Nat) (l : Label) : Option State :=
  if l = [] then some s else (bindIn (s.asidOf asid).labels l).map (s.setLabels asid)

/-- A state whose label table binds every set of a list (R209); none when one cannot be bound. -/
def bindLabels (s : State) (asid : Nat) (ls : List Label) : Option State :=
  if ls.all (· == []) then some s else (bindAll (s.asidOf asid).labels ls).map (s.setLabels asid)

/-- The handle of a bound set; 0 where it has none. -/
def handleOf (s : State) (asid : Nat) (l : Label) : Nat := (handleIn (s.asidOf asid).labels l).getD 0

/-- The eight frame words of a trap (R360), with the handles of its labels. -/
def frameWords (t : Trap) (hs hd : Nat) : List Word :=
  let lv := match t.srcl with
    | some l => decide (l.length ≤ Config.maxOwners)
    | none => false
  let z := t.mask.toNat * 2 ^ 32 + t.rword * 2 ^ 24 + (match t.rule with
    | some r => r * 2 ^ 16 + 2 ^ 15
    | none => 0) + t.point * 2 ^ 10 + t.code
  [wd z, t.pc, t.hdr, t.addr, t.aux,
   (if lv then wd (hs * 2 ^ 32 + 2 ^ 12 + hd) else wd hd),
   (match t.event with
    | some (n, r) => wd (n % 2 ^ 32 * 2 ^ 32 + 4 + r)
    | none => 0),
   if t.point = 1 then 0 else zx t.word]

/-- The monitor writes the trap frame and its label (R360, R362).  A join of at most eight owners that had to be
dominated receives its handle here (R209, R360), and so does the label that failed. -/
def writeFrame (s : State) (k asid : Nat) (t : Trap) : State :=
  let s := (bindLabel s asid (t.srcl.getD [])).getD s
  let s := (bindLabel s asid (t.dstl.getD [])).getD s
  let hs := handleOf s asid (t.srcl.getD [])
  let hd := handleOf s asid (t.dstl.getD [])
  let ws := frameWords t hs hd
  s.modWarp k fun w =>
    { w with
      tfw := (List.range 8).foldl (fun q i => aset 0 q i (nth 0 ws i)) w.tfw
      tfl := t.tfl }

/-- Lanes' PCs set to one address. -/
def setPcs (pc : Tab Word) (m : Mask) (a : Word) : Tab Word :=
  (lanesOf m).foldl (fun q l => aset 0 q l a) pc

/-- The status of a warp that the monitor lets go on: frozen with its cluster (R370), stopped where a pre-emption has asked it
to stop (R376), else running. -/
def goesOn (s : State) (k : Nat) (w : Warp) : Status :=
  if (s.core (k / 32)).frozen then .frozen else if w.request = .preempted then .preempted else .running

/-- DELIVERY of a trap to the launch's handler (R364): handler mode, WCL raised to join(WCL, TFL), the trapping group
at TRAPENT, the overdue count restarted (R155). -/
def deliverTrap (s : State) (k : Nat) (t : Trap) (trapent : Word) : State :=
  s.modWarp k fun w =>
    { w with
      handler := some ⟨t.grp, w.wcl, false, t.run, t.resume, t.rword, t.again, []⟩
      wcl := joinL w.wcl t.tfl
      pc := setPcs w.pc (t.grp &&& ~~~w.exited) trapent
      overdue := 0
      trap := none
      status := goesOn s k w
      request := if goesOn s k w = .preempted then .running else w.request
      j := w.j.map fun p => (p.1, { p.2 with fresh := false }) }

/-- THE RETURN from a handler (R385): the trapping group's non-exited lanes go to the resume point, WCL returns to its
value at the trap when no lane of the group exited in the handler, and handler mode ends.  The clause that the trap cut
resumes where it was cut, for the lanes that have not exited; parked groups wake (R153).  The instructions to issue again are the caller's. -/
def returnFromTrap (w : Warp) (h : Handler) : Warp :=
  { w with
    handler := none
    wcl := if h.exited then w.wcl else h.wcl
    pc := setPcs w.pc (h.grp &&& ~~~w.exited) h.pc
    run := h.run.map fun r => { r with grp := r.grp &&& ~~~w.exited }
    parked := w.parked.map fun p => { p with woken := true } }

end Sys2Proof.Machine
end

