-- ==== Sys2Proof/Machine/Dram.lean ====
section
/-! DEFINITION. Main memory as the device reaches it through an address space (R395, R400), page labels and ACLs (R219 to
R221), and the rings that the device writes there: sump records (R222, R223). -/
namespace Sys2Proof.Machine

/-! ## Bytes of main memory -/

/-- Bytes of one line written to main memory; a contained controller discards them (R400). -/
def writeLine (s : State) (pa : Nat) (bs : List Byte) : State :=
  if contained s pa then s else { s with mem := s.mem.writeDram pa bs }

/-- Where a running migration has copied the piece that holds an address: the same byte of its new frame (R316). -/
def movedTo (pa : Nat) : List Migration → Option Nat
  | [] => none
  | m :: t =>
    if m.begun && m.old == pa / 2 ^ 19 && decide (pa % 2 ^ 19 / 256 < m.pieces) then some (m.new * 2 ^ 19 + pa % 2 ^ 19)
    else movedTo pa t

/-- A WRITE TO MAIN MEMORY of bytes of one line: a page that migrates takes it in its new frame too, once the piece has been
copied (R316). -/
def writeDramPa (s : State) (pa : Nat) (bs : List Byte) : State :=
  let s := writeLine s pa bs
  match movedTo pa s.hub.migrations with
  | some q => writeLine s q bs
  | none => s

/-- A range of addresses cut at 64-byte lines: address and length of each part. -/
def lineParts (va n : Nat) : List (Nat × Nat) :=
  if n = 0 then []
  else (List.range ((va + n - 1) / 64 - va / 64 + 1)).map fun i =>
    let a := max va ((va / 64 + i) * 64)
    (a, min (va + n) ((va / 64 + i + 1) * 64) - a)

/-- Bytes read through an address space; none where an address does not translate. -/
def readVa (s : State) (asid va n : Nat) : Option (List Byte) :=
  ((lineParts va n).mapM fun p => (translate s asid p.1).map fun q => dramBytes s q.1 p.2).map List.flatten

/-- A number of `n` bytes read through an address space. -/
def readVaNum (s : State) (asid va n : Nat) : Option Nat := (readVa s asid va n).map ofBytes

/-- Bytes written through an address space; lines that do not translate are not written. -/
def writeVa (s : State) (asid va : Nat) (bs : List Byte) : State :=
  (lineParts va bs.length).foldl (fun s p =>
    match translate s asid p.1 with
    | some q => writeDramPa s q.1 ((bs.drop (p.1 - va)).take p.2)
    | none => s) s

/-- A dword written through an address space. -/
def writeVaDw (s : State) (asid va : Nat) (v : Nat) : State := writeVa s asid va (toBytes 8 v)

/-! ## Page tags (R219, R220) -/

/-- LABEL of a page tag, as an owner set. -/
def tagLabel (s : State) (asid : Nat) (tag : Word) : Label := (setOf (s.asidOf asid).labels (bits tag 0 12)).getD []

/-- A principal may read a page (R220). -/
def aclAllows (s : State) (asid prin : Nat) (tag : Word) : Bool :=
  let h := bits tag 12 20
  h == 0 || (prin != 0 && (aget [] (s.asidOf asid).acls h).contains prin)

/-! ## Records the device writes (R222, R223) -/

/-- A 32-byte record written to the ring of a descriptor (R223): dropped without a descriptor or a base, and counted in
DROPS when the ring is full. -/
def ringPut (s : State) (asid desc : Nat) (ds : List Word) : State :=
  if desc = 0 then s
  else match readVa s asid desc 64 with
    | none => s
    | some h =>
      let base := numAt h 0 8
      let n := 2 ^ (numAt h 8 1 % 32)
      let head := numAt h 0x10 8
      let tail := numAt h 0x18 8
      if base = 0 then s
      else if n ≤ (tail + 2 ^ 64 - head) % 2 ^ 64 then writeVaDw s asid (desc + 0x20) (numAt h 0x20 8 + 1)
      else
        let s := writeVa s asid (base + 32 * (tail % n)) (ds.flatMap fun d => toBytes 8 d.toNat)
        writeVaDw s asid (desc + 0x18) (tail + 1)

/-- The hub event arbiter's next sequence number (R222), used up. -/
def nextSeq (s : State) : State × Nat := (s.modHub fun h => { h with hseq := h.hseq + 1 }, s.hub.hseq)

/-- A sump record (R222). -/
def sumpRecord (s : State) (asid kind va prin tag block gseq : Nat) : State :=
  let r := nextSeq s
  ringPut r.1 asid (r.1.asidOf asid).sumpd.toNat
    [wd (kind * 2 ^ 60 + asid * 2 ^ 47 + va / 32 % 2 ^ 47), wd (prin * 2 ^ 37 + tag % 2 ^ 37),
     wd (block % 2 ^ 32 * 2 ^ 32 + gseq % 2 ^ 32), wd r.2]

end Sys2Proof.Machine
end

