-- ==== Sys2Proof/WellFormed.lean ====
section
/-! DEFINITION. Which instructions are well formed: the required values and ranges of R18, R21, R24, R26 and R31 to
R37 that the fixed bits of a row do not already say.  A word whose instruction is not well formed is
ILLEGAL-ENCODING (R26).  For a step of a device: its unit exists. -/
namespace Sys2Proof

/-- A flag select of a clause header names F0 to F11, or 15 for none (R23). -/
def flagOk (f : BitVec 4) : Bool := decide (f.toNat < 12) || f == 15#4

/-- The system register numbers of R37 and R383. -/
def sysRegOk (s : BitVec 11) : Bool :=
  decide (s.toNat ≤ 5) || decide (0x10 ≤ s.toNat ∧ s.toNat ≤ 0x17) ||
  decide (0x20 ≤ s.toNat ∧ s.toNat ≤ 0x27) || decide (0x30 ≤ s.toNat ∧ s.toNat ≤ 0x3F)

/-- The checks of R26 on one instruction's fields.  A UL len above 255 is not among them (log entry 10). -/
def wellFormed : Instr → Bool
  | .clauseHeader _ a b _ => flagOk a && flagOk b
  | .longLatencyComplete w _ => decide (w < 20480)
  | .parkWake w => decide (w < 20480)
  | .atomicPerform w _ => decide (w < 20480)
  | .barrierWaitEnd w => decide (w < 20480)
  | .waitseqObserve w => decide (w < 20480)
  | .ringPushAdmit w _ => decide (w < 20480)
  | .ringPopTake w _ => decide (w < 20480)
  | .tileAllocate c => decide (c < 640)
  | .tileExecute c => decide (c < 640)
  | .flowstoneGroupExecute c => decide (c < 640)
  | .heldRequestAccept w => decide (w < 20480)
  | .launchRecordCopy w _ => decide (w < 20480)
  | .doorbellWrite q _ => decide (q < 4096)
  | .queueEnableWrite q _ _ _ => decide (q < 4096)
  | .enqueueVerdict q => decide (q < 4096)
  | .launchEligible q => decide (q < 4096)
  | .blockPlace _ _ => true
  | .windowStaging _ _ => true
  | .blockRetire _ _ => true
  | .launchComplete _ => true
  | .trapNotice c => decide (c < 640)
  | .damageSnapshot k => decide (k < 160)
  | .gangRelaunch _ _ => true
  | .coreSelfTest c _ => decide (c < 640)
  | .eccCorrect c _ => decide (c < 640)
  | .lateTransitionReplay c _ => decide (c < 640)
  | .preemptRequest p => decide (p < 64)
  | .resumeRequest p => decide (p < 64)
  | .coreSwap c => decide (c < 640)
  | .contextSaveMove c => decide (c < 640)
  | .contextResumeLoad p c _ => decide (p < 64) && decide (c < 640)
  | .echoCompare _ _ w => decide (w < 32)
  | .onceOpRendezvous _ _ w => decide (w < 32)
  | .echoStraggler _ _ w => decide (w < 32)
  | .reclone _ _ r => decide (r < 3)
  | .engineChunk _ _ failures => decide (failures ≤ 2)
  | .migr _ => true
  | .hptEpochEnd m => decide (m < 16)
  | .rowHammerThrottle m _ => decide (m < 16)
  | .caParityAlert m _ => decide (m < 16)
  | .collectiveChunk comm => decide (comm < 64)
  | .flitReceive k _ _ => decide (k < 18)
  | .linkKeyUpdateRequest k => decide (k < 18)
  | .linkKeyStall k => decide (k < 18)
  | .portAttest k _ _ => decide (k < 18)
  | .commTableWrite off _ => decide (off < 0x100000)
  | .registerWrite off _ => decide (off < 0x180000)
  | .vadd _ _ _ _ _ _ => true
  | .vaddsS _ _ _ _ _ _ => true
  | .vaddsZ _ _ _ _ _ _ => true
  | .vsub _ _ _ _ _ _ => true
  | .vsubsS _ _ _ _ _ _ => true
  | .vsubsZ _ _ _ _ _ _ => true
  | .vmul _ _ _ _ _ _ => true
  | .vmulhS _ _ _ _ _ _ => true
  | .vmulhZ _ _ _ _ _ _ => true
  | .vmad _ _ _ _ _ _ => true
  | .vdot4S8 _ _ _ _ _ => true
  | .vand _ _ _ _ _ => true
  | .vor _ _ _ _ _ => true
  | .vxor _ _ _ _ _ => true
  | .vshl _ _ _ _ _ _ => true
  | .vshr _ _ _ _ _ _ => true
  | .vsar _ _ _ _ _ _ => true
  | .vminS _ _ _ _ _ _ => true
  | .vminZ _ _ _ _ _ _ => true
  | .vmaxS _ _ _ _ _ _ => true
  | .vmaxZ _ _ _ _ _ _ => true
  | .vsel _ _ _ _ _ => true
  | .vshufL _ _ _ _ _ => true
  | .vshufE _ _ _ _ _ _ => true
  | .vcmp _ _ _ _ _ _ _ => true
  | .vmovi _ _ _ _ _ => true
  | .vmov _ _ _ _ => true
  | .vnot _ _ _ _ => true
  | .vabs _ _ _ _ _ => true
  | .vclz _ _ _ _ _ => true
  | .vpop _ _ _ _ _ => true
  | .vextS _ _ _ _ w => w != 3#2
  | .vextZ _ _ _ _ w => w != 3#2
  | .vnar _ _ _ _ w => w != 0#2
  | .vnars _ _ _ _ w => w != 0#2
  | .vbcast _ _ _ _ => true
  | .vred _ _ _ _ o w => decide (o.toNat ≤ 7) || (decide (o.toNat ≤ 10) && w != 3#2)
  | .vscan _ _ _ _ o w => decide (o.toNat ≤ 7) || (decide (o.toNat ≤ 10) && w != 3#2)
  | .vfadd _ _ _ _ _ w => w != 3#2
  | .vfsub _ _ _ _ _ w => w != 3#2
  | .vfmul _ _ _ _ _ w => w != 3#2
  | .vfma _ _ _ _ _ w => w != 3#2
  | .vfmin _ _ _ _ _ w => w != 3#2
  | .vfmax _ _ _ _ _ w => w != 3#2
  | .vfcmp _ _ _ _ _ _ w => w != 3#2
  | .vfabs _ _ _ _ w => w != 3#2
  | .vfneg _ _ _ _ w => w != 3#2
  | .vrcp _ _ _ _ _ => true
  | .vrsq _ _ _ _ _ => true
  | .vexp2 _ _ _ _ _ => true
  | .vlog2 _ _ _ _ _ => true
  | .vcvt _ _ _ _ m => decide (m.toNat ≤ 0x21)
  | .vpack6 _ _ _ _ => true
  | .vunpk6 _ _ _ _ => true
  | .vqb4 _ _ _ _ => true
  | .vdqb4 _ _ _ _ => true
  | .vldS8 _ _ _ _ _ _ _ => true
  | .vldZ8 _ _ _ _ _ _ _ => true
  | .vldS16 _ _ _ _ _ _ _ => true
  | .vldZ16 _ _ _ _ _ _ _ => true
  | .vld32 _ _ _ _ _ _ _ => true
  | .vld64 _ _ _ _ _ _ _ => true
  | .vst8 _ _ _ _ _ _ => true
  | .vst16 _ _ _ _ _ _ => true
  | .vst32 _ _ _ _ _ _ => true
  | .vst64 _ _ _ _ _ _ => true
  | .atom _ _ t _ _ o _ => decide (o.toNat ≤ 10) && (o != 9#4 || !t.getLsbD 0)
  | .atomr _ _ t _ _ o _ _ => decide (o.toNat ≤ 10) && (o != 9#4 || !t.getLsbD 0)
  | .atomXadd _ _ _ _ _ => true
  | .xclr _ _ _ _ => true
  | .xrnd _ _ _ _ _ _ => true
  | .gadd _ _ _ _ => true
  | .gaddImm _ _ _ _ => true
  | .gsub _ _ _ _ => true
  | .gmul _ _ _ _ => true
  | .gmulhS _ _ _ _ => true
  | .gmulhZ _ _ _ _ => true
  | .gmad _ _ _ _ => true
  | .gdivS _ _ _ _ => true
  | .gdivZ _ _ _ _ => true
  | .gremS _ _ _ _ => true
  | .gremZ _ _ _ _ => true
  | .gand _ _ _ _ => true
  | .gor _ _ _ _ => true
  | .gxor _ _ _ _ => true
  | .gnot _ _ _ => true
  | .gshl _ _ _ _ => true
  | .gshr _ _ _ _ => true
  | .gsar _ _ _ _ => true
  | .grot _ _ _ _ => true
  | .gminS _ _ _ _ => true
  | .gminZ _ _ _ _ => true
  | .gmaxS _ _ _ _ => true
  | .gmaxZ _ _ _ _ => true
  | .gmov _ _ _ => true
  | .gclz _ _ _ => true
  | .gpop _ _ _ => true
  | .gbfxS _ _ _ _ => true
  | .gbfxZ _ _ _ _ => true
  | .gbfi _ _ _ _ => true
  | .gmovi _ _ _ => true
  | .gmovh _ _ _ => true
  | .glea _ _ _ _ _ => true
  | .gcmp _ _ _ _ c => decide (c.toNat ≤ 7)
  | .gsel _ _ _ _ _ => true
  | .grdl _ _ _ _ => true
  | .gwrl _ _ _ _ => true
  | .gbal _ _ _ => true
  | .gpopm _ _ _ => true
  | .gffs _ _ _ => true
  | .bra _ p _ _ => p != 7#3
  | .braUncond _ => true
  | .bru _ _ => true
  | .bruz _ _ => true
  | .brx _ => true
  | .call n p _ _ => !(n == 1#1 && p == 7#3)
  | .callx n p _ _ => !(n == 1#1 && p == 7#3)
  | .ret n p _ => !(n == 1#1 && p == 7#3)
  | .jset _ _ _ _ => true
  | .join _ => true
  | .jstat _ _ _ => true
  | .exit n p => !(n == 1#1 && p == 7#3)
  | .loop k _ _ => k != 3#2
  | .loopg k _ _ => k != 3#2
  | .lbrk k _ => k != 3#2
  | .park _ _ => true
  | .nop _ => true
  | .gld _ _ _ _ _ => true
  | .gst _ _ _ _ => true
  | .ord _ o l => decide (o.toNat ≤ 4) && l != 0#3
  | .phrel _ l => decide (2 ≤ l.toNat)
  | .phacq _ l => decide (2 ≤ l.toNat)
  | .phase _ l => decide (2 ≤ l.toNat)
  | .enter _ n => n != 0#13
  | .leave _ n => n != 0#13
  | .spill _ _ _ => true
  | .fill _ _ _ => true
  | .lgetV _ _ _ => true
  | .lgetG _ _ _ => true
  | .lgetGranule _ _ _ => true
  | .lgetP _ _ _ => true
  | .lsetv _ _ _ => true
  | .lraise _ _ _ => true
  | .lclear _ _ _ => true
  | .ljoin _ _ _ _ => true
  | .ldom _ _ _ _ => true
  | .lown _ _ _ _ => true
  | .dcls _ _ _ _ => true
  | .dclsT _ _ _ _ _ => true
  | .endorse _ _ _ => true
  | .endrev _ _ => true
  | .endq _ _ _ => true
  | .bar l => decide (2 ≤ l.toNat)
  | .bara _ l => decide (2 ≤ l.toNat)
  | .barw l => decide (2 ≤ l.toNat)
  | .rinit _ _ => true
  | .rpush _ _ _ _ => true
  | .rpop _ _ _ _ => true
  | .rpushT _ _ _ _ _ => true
  | .rpopT _ _ _ _ => true
  | .rstat _ _ _ => true
  | .launch _ _ _ _ _ => true
  | .lcancel _ _ => true
  | .lstat _ _ _ => true
  | .tmma _ _ _ _ m _ => decide (m.toNat ≤ 5)
  | .tzero _ _ _ => true
  | .ttrn _ _ _ m _ => decide (m.toNat ≤ 4)
  | .tscl _ _ _ _ => true
  | .tlda _ _ _ _ => true
  | .tdrain _ _ _ _ => true
  | .tdrainAdd _ _ _ _ => true
  | .tstat _ _ _ => true
  | .ruleld _ _ _ => true
  | .ruleoff _ _ => true
  | .flushw _ => true
  | .ruleq _ _ _ => true
  | .etail _ _ _ => true
  | .waitseq _ _ => true
  | .seqr _ _ _ => true
  | .coll _ _ => true
  | .commq _ _ _ => true
  | .erid _ _ => true
  | .esig _ _ => true
  | .estat _ _ => true
  | .einj _ _ _ => true
  | .trap _ => true
  | .sread _ _ s => sysRegOk s
  | .swrite _ _ s => sysRegOk s
  | .clkr _ _ => true
  | .rand _ _ _ => true
  | .capr _ _ _ => true
  | .slog _ _ _ => true
  | .spdmRequest _ _ => true
  | .linkKeyInstall k => decide (k < 18)
  | .portRetrain k => decide (k < 18)
  | .moduleReset => true
  | .thermalStop => true
  | .asidCreate => true
  | .asidDestroy => true
  | .lhandle => true
  | .map => true
  | .unmap => true
  | .settag => true
  | .acl => true
  | .cred => true
  | .ctxkey => true
  | .pooladd => true
  | .pooldel => true
  | .debugRead => true
  | .debugWrite => true
  | .debugResume => true
  | .dpop => true
  | .yield => true
  | .tret => true
  | .halt => true

end Sys2Proof
end

