-- ==== Sys2Proof/Decode.lean ====
section
/-! DEFINITION. Decoding of a word and the encoder, from the formats and opcode maps of 02_encoding.md.  A word
that the maps do not assign, whose required fields hold other values, or whose instruction is not well formed
decodes to none: ILLEGAL-ENCODING (R13, R26). -/
namespace Sys2Proof

/-- The field of `n` bits whose lowest bit is `lo`. -/
def field (w : BitVec 32) (lo n : Nat) : BitVec n := w.extractLsb' lo n

/-- The boundary bit B (R12). -/
def bitB (w : BitVec 32) : Bool := w.getLsbD 30

/-- The bit a Boolean stands for. -/
def bitOf (z : Bool) : BitVec 1 := if z then 1#1 else 0#1

/-- The per-lane set by major opcode (R31, R32): the one row whose fixed fields all hold their
values, or none: an unassigned major or minor, or a required field with another value (R13). -/
def decodeLane (major : Nat) (w : BitVec 32) : Option Instr :=
  match major with
  | 0x00 =>
    some (.vadd (bitB w) (field w 20 3) (field w 14 6) (field w 8 6) (field w 2 6) (field w 0 2))
  | 0x01 =>
    some (.vaddsS (bitB w) (field w 20 3) (field w 14 6) (field w 8 6) (field w 2 6) (field w 0 2))
  | 0x02 =>
    some (.vaddsZ (bitB w) (field w 20 3) (field w 14 6) (field w 8 6) (field w 2 6) (field w 0 2))
  | 0x03 =>
    some (.vsub (bitB w) (field w 20 3) (field w 14 6) (field w 8 6) (field w 2 6) (field w 0 2))
  | 0x04 =>
    some (.vsubsS (bitB w) (field w 20 3) (field w 14 6) (field w 8 6) (field w 2 6) (field w 0 2))
  | 0x05 =>
    some (.vsubsZ (bitB w) (field w 20 3) (field w 14 6) (field w 8 6) (field w 2 6) (field w 0 2))
  | 0x06 =>
    some (.vmul (bitB w) (field w 20 3) (field w 14 6) (field w 8 6) (field w 2 6) (field w 0 2))
  | 0x07 =>
    some (.vmulhS (bitB w) (field w 20 3) (field w 14 6) (field w 8 6) (field w 2 6) (field w 0 2))
  | 0x08 =>
    some (.vmulhZ (bitB w) (field w 20 3) (field w 14 6) (field w 8 6) (field w 2 6) (field w 0 2))
  | 0x09 =>
    some (.vmad (bitB w) (field w 20 3) (field w 14 6) (field w 8 6) (field w 2 6) (field w 0 2))
  | 0x0a =>
    if field w 0 2 = 0x2#2 then some (.vdot4S8 (bitB w) (field w 20 3) (field w 14 6) (field w 8 6) (field w 2 6))
    else none
  | 0x0b =>
    if field w 0 2 = 0x3#2 then some (.vand (bitB w) (field w 20 3) (field w 14 6) (field w 8 6) (field w 2 6))
    else none
  | 0x0c =>
    if field w 0 2 = 0x3#2 then some (.vor (bitB w) (field w 20 3) (field w 14 6) (field w 8 6) (field w 2 6))
    else none
  | 0x0d =>
    if field w 0 2 = 0x3#2 then some (.vxor (bitB w) (field w 20 3) (field w 14 6) (field w 8 6) (field w 2 6))
    else none
  | 0x0e =>
    some (.vshl (bitB w) (field w 20 3) (field w 14 6) (field w 8 6) (field w 2 6) (field w 0 2))
  | 0x0f =>
    some (.vshr (bitB w) (field w 20 3) (field w 14 6) (field w 8 6) (field w 2 6) (field w 0 2))
  | 0x10 =>
    some (.vsar (bitB w) (field w 20 3) (field w 14 6) (field w 8 6) (field w 2 6) (field w 0 2))
  | 0x11 =>
    some (.vminS (bitB w) (field w 20 3) (field w 14 6) (field w 8 6) (field w 2 6) (field w 0 2))
  | 0x12 =>
    some (.vminZ (bitB w) (field w 20 3) (field w 14 6) (field w 8 6) (field w 2 6) (field w 0 2))
  | 0x13 =>
    some (.vmaxS (bitB w) (field w 20 3) (field w 14 6) (field w 8 6) (field w 2 6) (field w 0 2))
  | 0x14 =>
    some (.vmaxZ (bitB w) (field w 20 3) (field w 14 6) (field w 8 6) (field w 2 6) (field w 0 2))
  | 0x15 =>
    if field w 0 2 = 0x3#2 then some (.vsel (bitB w) (field w 20 3) (field w 14 6) (field w 8 6) (field w 2 6))
    else none
  | 0x16 =>
    if field w 0 2 = 0x3#2 then some (.vshufL (bitB w) (field w 20 3) (field w 14 6) (field w 8 6) (field w 2 6))
    else none
  | 0x17 =>
    some (.vshufE (bitB w) (field w 20 3) (field w 14 6) (field w 8 6) (field w 2 6) (field w 0 2))
  | 0x18 =>
    some (.vcmp (bitB w) (field w 20 3) (field w 17 3) (field w 14 3) (field w 8 6) (field w 2 6) (field w 0 2))
  | 0x19 =>
    some (.vmovi (bitB w) (field w 20 3) (field w 14 6) (field w 2 12) (field w 0 2))
  | 0x1a =>
    if field w 0 8 = 0x3#8 then some (.vmov (bitB w) (field w 20 3) (field w 14 6) (field w 8 6))
    else if field w 0 8 = 0x7#8 then some (.vnot (bitB w) (field w 20 3) (field w 14 6) (field w 8 6))
    else if field w 2 6 = 0x2#6 then some (.vabs (bitB w) (field w 20 3) (field w 14 6) (field w 8 6) (field w 0 2))
    else if field w 2 6 = 0x3#6 then some (.vclz (bitB w) (field w 20 3) (field w 14 6) (field w 8 6) (field w 0 2))
    else if field w 2 6 = 0x4#6 then some (.vpop (bitB w) (field w 20 3) (field w 14 6) (field w 8 6) (field w 0 2))
    else if field w 2 6 = 0x5#6 then some (.vextS (bitB w) (field w 20 3) (field w 14 6) (field w 8 6) (field w 0 2))
    else if field w 2 6 = 0x6#6 then some (.vextZ (bitB w) (field w 20 3) (field w 14 6) (field w 8 6) (field w 0 2))
    else if field w 2 6 = 0x7#6 then some (.vnar (bitB w) (field w 20 3) (field w 14 6) (field w 8 6) (field w 0 2))
    else if field w 2 6 = 0x8#6 then some (.vnars (bitB w) (field w 20 3) (field w 14 6) (field w 8 6) (field w 0 2))
    else if field w 0 8 = 0x27#8 then some (.vbcast (bitB w) (field w 20 3) (field w 14 6) (field w 8 6))
    else none
  | 0x1b =>
    some (.vred (bitB w) (field w 20 3) (field w 14 6) (field w 8 6) (field w 2 6) (field w 0 2))
  | 0x1c =>
    some (.vscan (bitB w) (field w 20 3) (field w 14 6) (field w 8 6) (field w 2 6) (field w 0 2))
  | 0x20 =>
    some (.vfadd (bitB w) (field w 20 3) (field w 14 6) (field w 8 6) (field w 2 6) (field w 0 2))
  | 0x21 =>
    some (.vfsub (bitB w) (field w 20 3) (field w 14 6) (field w 8 6) (field w 2 6) (field w 0 2))
  | 0x22 =>
    some (.vfmul (bitB w) (field w 20 3) (field w 14 6) (field w 8 6) (field w 2 6) (field w 0 2))
  | 0x23 =>
    some (.vfma (bitB w) (field w 20 3) (field w 14 6) (field w 8 6) (field w 2 6) (field w 0 2))
  | 0x24 =>
    some (.vfmin (bitB w) (field w 20 3) (field w 14 6) (field w 8 6) (field w 2 6) (field w 0 2))
  | 0x25 =>
    some (.vfmax (bitB w) (field w 20 3) (field w 14 6) (field w 8 6) (field w 2 6) (field w 0 2))
  | 0x26 =>
    some (.vfcmp (bitB w) (field w 20 3) (field w 17 3) (field w 14 3) (field w 8 6) (field w 2 6) (field w 0 2))
  | 0x27 =>
    if field w 2 6 = 0x0#6 then some (.vfabs (bitB w) (field w 20 3) (field w 14 6) (field w 8 6) (field w 0 2))
    else if field w 2 6 = 0x1#6 then some (.vfneg (bitB w) (field w 20 3) (field w 14 6) (field w 8 6) (field w 0 2))
    else none
  | 0x28 =>
    if field w 1 7 = 0x0#7 then some (.vrcp (bitB w) (field w 20 3) (field w 14 6) (field w 8 6) (field w 0 1))
    else if field w 1 7 = 0x1#7 then some (.vrsq (bitB w) (field w 20 3) (field w 14 6) (field w 8 6) (field w 0 1))
    else if field w 1 7 = 0x2#7 then some (.vexp2 (bitB w) (field w 20 3) (field w 14 6) (field w 8 6) (field w 0 1))
    else if field w 1 7 = 0x3#7 then some (.vlog2 (bitB w) (field w 20 3) (field w 14 6) (field w 8 6) (field w 0 1))
    else none
  | 0x29 =>
    if field w 0 2 = 0x0#2 then some (.vcvt (bitB w) (field w 20 3) (field w 14 6) (field w 8 6) (field w 2 6))
    else none
  | 0x2a =>
    if field w 0 8 = 0x0#8 then some (.vpack6 (bitB w) (field w 20 3) (field w 14 6) (field w 8 6))
    else if field w 0 8 = 0x4#8 then some (.vunpk6 (bitB w) (field w 20 3) (field w 14 6) (field w 8 6))
    else if field w 0 10 = 0x8#10 then some (.vqb4 (bitB w) (field w 20 3) (field w 14 6) (field w 10 4))
    else if field w 14 2 = 0x0#2 ∧ field w 0 8 = 0xc#8 then some (.vdqb4 (bitB w) (field w 20 3) (field w 16 4) (field w 8 6))
    else none
  | 0x30 =>
    some (.vldS8 (bitB w) (field w 20 3) (field w 14 6) (field w 10 4) (field w 6 4) (field w 1 5) (field w 0 1))
  | 0x31 =>
    some (.vldZ8 (bitB w) (field w 20 3) (field w 14 6) (field w 10 4) (field w 6 4) (field w 1 5) (field w 0 1))
  | 0x32 =>
    some (.vldS16 (bitB w) (field w 20 3) (field w 14 6) (field w 10 4) (field w 6 4) (field w 1 5) (field w 0 1))
  | 0x33 =>
    some (.vldZ16 (bitB w) (field w 20 3) (field w 14 6) (field w 10 4) (field w 6 4) (field w 1 5) (field w 0 1))
  | 0x34 =>
    some (.vld32 (bitB w) (field w 20 3) (field w 14 6) (field w 10 4) (field w 6 4) (field w 1 5) (field w 0 1))
  | 0x35 =>
    some (.vld64 (bitB w) (field w 20 3) (field w 14 6) (field w 10 4) (field w 6 4) (field w 1 5) (field w 0 1))
  | 0x36 =>
    if field w 0 1 = 0x0#1 then some (.vst8 (bitB w) (field w 20 3) (field w 14 6) (field w 10 4) (field w 6 4) (field w 1 5))
    else none
  | 0x37 =>
    if field w 0 1 = 0x0#1 then some (.vst16 (bitB w) (field w 20 3) (field w 14 6) (field w 10 4) (field w 6 4) (field w 1 5))
    else none
  | 0x38 =>
    if field w 0 1 = 0x0#1 then some (.vst32 (bitB w) (field w 20 3) (field w 14 6) (field w 10 4) (field w 6 4) (field w 1 5))
    else none
  | 0x39 =>
    if field w 0 1 = 0x0#1 then some (.vst64 (bitB w) (field w 20 3) (field w 14 6) (field w 10 4) (field w 6 4) (field w 1 5))
    else none
  | 0x3a =>
    if field w 0 1 = 0x0#1 then some (.atom (bitB w) (field w 20 3) (field w 14 6) (field w 10 4) (field w 6 4) (field w 2 4) (field w 1 1))
    else none
  | 0x3b =>
    some (.atomr (bitB w) (field w 20 3) (field w 14 6) (field w 10 4) (field w 6 4) (field w 2 4) (field w 1 1) (field w 0 1))
  | 0x3c =>
    if field w 0 6 = 0x0#6 then some (.atomXadd (bitB w) (field w 20 3) (field w 14 6) (field w 10 4) (field w 6 4))
    else if field w 14 6 = 0x0#6 ∧ field w 0 6 = 0x4#6 then some (.xclr (bitB w) (field w 20 3) (field w 10 4) (field w 6 4))
    else none
  | 0x3d =>
    if field w 1 5 = 0x0#5 then some (.xrnd (bitB w) (field w 20 3) (field w 14 6) (field w 10 4) (field w 6 4) (field w 0 1))
    else none
  | _ => none

/-- The uniform set by major opcode (R35, R36): the one row whose fixed fields all hold their
values, or none: an unassigned major or minor, or a required field with another value (R13). -/
def decodeUniform (major : Nat) (w : BitVec 32) : Option Instr :=
  match major with
  | 0x00 =>
    if field w 0 5 = 0x0#5 then some (.gadd (bitB w) (field w 17 6) (field w 11 6) (field w 5 6))
    else if field w 0 5 = 0x1#5 then some (.gsub (bitB w) (field w 17 6) (field w 11 6) (field w 5 6))
    else if field w 0 5 = 0x2#5 then some (.gmul (bitB w) (field w 17 6) (field w 11 6) (field w 5 6))
    else if field w 0 5 = 0x3#5 then some (.gmulhS (bitB w) (field w 17 6) (field w 11 6) (field w 5 6))
    else if field w 0 5 = 0x4#5 then some (.gmulhZ (bitB w) (field w 17 6) (field w 11 6) (field w 5 6))
    else if field w 0 5 = 0x5#5 then some (.gmad (bitB w) (field w 17 6) (field w 11 6) (field w 5 6))
    else if field w 0 5 = 0x6#5 then some (.gdivS (bitB w) (field w 17 6) (field w 11 6) (field w 5 6))
    else if field w 0 5 = 0x7#5 then some (.gdivZ (bitB w) (field w 17 6) (field w 11 6) (field w 5 6))
    else if field w 0 5 = 0x8#5 then some (.gremS (bitB w) (field w 17 6) (field w 11 6) (field w 5 6))
    else if field w 0 5 = 0x9#5 then some (.gremZ (bitB w) (field w 17 6) (field w 11 6) (field w 5 6))
    else if field w 0 5 = 0xa#5 then some (.gand (bitB w) (field w 17 6) (field w 11 6) (field w 5 6))
    else if field w 0 5 = 0xb#5 then some (.gor (bitB w) (field w 17 6) (field w 11 6) (field w 5 6))
    else if field w 0 5 = 0xc#5 then some (.gxor (bitB w) (field w 17 6) (field w 11 6) (field w 5 6))
    else if field w 0 11 = 0xd#11 then some (.gnot (bitB w) (field w 17 6) (field w 11 6))
    else if field w 0 5 = 0xe#5 then some (.gshl (bitB w) (field w 17 6) (field w 11 6) (field w 5 6))
    else if field w 0 5 = 0xf#5 then some (.gshr (bitB w) (field w 17 6) (field w 11 6) (field w 5 6))
    else if field w 0 5 = 0x10#5 then some (.gsar (bitB w) (field w 17 6) (field w 11 6) (field w 5 6))
    else if field w 0 5 = 0x11#5 then some (.grot (bitB w) (field w 17 6) (field w 11 6) (field w 5 6))
    else if field w 0 5 = 0x12#5 then some (.gminS (bitB w) (field w 17 6) (field w 11 6) (field w 5 6))
    else if field w 0 5 = 0x13#5 then some (.gminZ (bitB w) (field w 17 6) (field w 11 6) (field w 5 6))
    else if field w 0 5 = 0x14#5 then some (.gmaxS (bitB w) (field w 17 6) (field w 11 6) (field w 5 6))
    else if field w 0 5 = 0x15#5 then some (.gmaxZ (bitB w) (field w 17 6) (field w 11 6) (field w 5 6))
    else if field w 0 11 = 0x16#11 then some (.gmov (bitB w) (field w 17 6) (field w 11 6))
    else if field w 0 11 = 0x17#11 then some (.gclz (bitB w) (field w 17 6) (field w 11 6))
    else if field w 0 11 = 0x18#11 then some (.gpop (bitB w) (field w 17 6) (field w 11 6))
    else if field w 0 5 = 0x19#5 then some (.gbfxS (bitB w) (field w 17 6) (field w 11 6) (field w 5 6))
    else if field w 0 5 = 0x1a#5 then some (.gbfxZ (bitB w) (field w 17 6) (field w 11 6) (field w 5 6))
    else if field w 0 5 = 0x1b#5 then some (.gbfi (bitB w) (field w 17 6) (field w 11 6) (field w 5 6))
    else none
  | 0x01 =>
    some (.gaddImm (bitB w) (field w 17 6) (field w 11 6) (field w 0 11))
  | 0x02 =>
    some (.gmovi (bitB w) (field w 17 6) (field w 0 17))
  | 0x03 =>
    if field w 16 1 = 0x0#1 then some (.gmovh (bitB w) (field w 17 6) (field w 0 16))
    else none
  | 0x04 =>
    if field w 2 3 = 0x0#3 then some (.glea (bitB w) (field w 17 6) (field w 11 6) (field w 5 6) (field w 0 2))
    else none
  | 0x05 =>
    some (.gcmp (bitB w) (field w 17 6) (field w 11 6) (field w 5 6) (field w 0 5))
  | 0x06 =>
    some (.gsel (bitB w) (field w 17 6) (field w 11 6) (field w 5 6) (field w 0 5))
  | 0x07 =>
    if field w 0 5 = 0x0#5 then some (.grdl (bitB w) (field w 17 6) (field w 11 6) (field w 5 6))
    else if field w 0 5 = 0x1#5 then some (.gwrl (bitB w) (field w 17 6) (field w 11 6) (field w 5 6))
    else if field w 20 3 = 0x0#3 ∧ field w 14 3 = 0x0#3 ∧ field w 0 11 = 0x2#11 then some (.gbal (bitB w) (field w 17 3) (field w 11 3))
    else if field w 14 3 = 0x0#3 ∧ field w 0 11 = 0x3#11 then some (.gpopm (bitB w) (field w 17 6) (field w 11 3))
    else if field w 14 3 = 0x0#3 ∧ field w 0 11 = 0x4#11 then some (.gffs (bitB w) (field w 17 6) (field w 11 3))
    else none
  | 0x10 =>
    if field w 30 1 = 1#1 ∧ field w 16 7 = 0x38#7 then some (.braUncond (field w 0 16))
    else if field w 30 1 = 1#1 then some (.bra (field w 22 1) (field w 19 3) (field w 16 3) (field w 0 16))
    else none
  | 0x11 =>
    if field w 30 1 = 1#1 ∧ field w 16 1 = 0x1#1 then some (.bru (field w 17 6) (field w 0 16))
    else if field w 30 1 = 1#1 ∧ field w 16 1 = 0x0#1 then some (.bruz (field w 17 6) (field w 0 16))
    else none
  | 0x12 =>
    if field w 30 1 = 1#1 ∧ field w 17 6 = 0x0#6 ∧ field w 0 11 = 0x0#11 then some (.brx (field w 11 6))
    else none
  | 0x13 =>
    if field w 30 1 = 1#1 then some (.call (field w 22 1) (field w 19 3) (field w 13 6) (field w 0 13))
    else none
  | 0x14 =>
    if field w 30 1 = 1#1 ∧ field w 0 7 = 0x0#7 then some (.callx (field w 22 1) (field w 19 3) (field w 13 6) (field w 7 6))
    else none
  | 0x15 =>
    if field w 30 1 = 1#1 ∧ field w 0 13 = 0x0#13 then some (.ret (field w 22 1) (field w 19 3) (field w 13 6))
    else none
  | 0x16 =>
    some (.jset (bitB w) (field w 20 3) (field w 14 6) (field w 0 14))
  | 0x17 =>
    if field w 30 1 = 1#1 ∧ field w 0 20 = 0x0#20 then some (.join (field w 20 3))
    else none
  | 0x18 =>
    if field w 14 3 = 0x0#3 ∧ field w 0 11 = 0x0#11 then some (.jstat (bitB w) (field w 17 6) (field w 11 3))
    else none
  | 0x19 =>
    if field w 30 1 = 1#1 ∧ field w 0 19 = 0x0#19 then some (.exit (field w 22 1) (field w 19 3))
    else none
  | 0x1a =>
    if field w 30 1 = 1#1 then some (.loop (field w 21 2) (field w 9 12) (field w 0 9))
    else none
  | 0x1b =>
    if field w 30 1 = 1#1 ∧ field w 9 6 = 0x0#6 then some (.loopg (field w 21 2) (field w 15 6) (field w 0 9))
    else none
  | 0x1c =>
    if field w 30 1 = 1#1 ∧ field w 0 15 = 0x0#15 then some (.lbrk (field w 21 2) (field w 15 6))
    else none
  | 0x1d =>
    if field w 30 1 = 1#1 ∧ field w 17 6 = 0x0#6 ∧ field w 0 5 = 0x0#5 then some (.park (field w 11 6) (field w 5 6))
    else none
  | 0x1e =>
    if field w 30 1 = 1#1 ∧ field w 0 23 = 0x0#23 then some .yield
    else none
  | 0x1f =>
    if field w 0 23 = 0x0#23 then some (.nop (bitB w))
    else none
  | 0x20 =>
    some (.gld (bitB w) (field w 17 6) (field w 11 6) (field w 1 10) (field w 0 1))
  | 0x21 =>
    if field w 0 1 = 0x0#1 then some (.gst (bitB w) (field w 17 6) (field w 11 6) (field w 1 10))
    else none
  | 0x22 =>
    if field w 0 17 = 0x0#17 then some (.ord (bitB w) (field w 20 3) (field w 17 3))
    else none
  | 0x23 =>
    if field w 0 20 = 0x0#20 then some (.phrel (bitB w) (field w 20 3))
    else if field w 0 20 = 0x20000#20 then some (.phacq (bitB w) (field w 20 3))
    else if field w 0 20 = 0x40000#20 then some (.phase (bitB w) (field w 20 3))
    else none
  | 0x24 =>
    if field w 13 10 = 0x0#10 then some (.enter (bitB w) (field w 0 13))
    else none
  | 0x25 =>
    if field w 13 10 = 0x0#10 then some (.leave (bitB w) (field w 0 13))
    else none
  | 0x26 =>
    if field w 8 9 = 0x0#9 then some (.spill (bitB w) (field w 17 6) (field w 0 8))
    else none
  | 0x27 =>
    if field w 8 9 = 0x0#9 then some (.fill (bitB w) (field w 17 6) (field w 0 8))
    else none
  | 0x28 =>
    if field w 0 11 = 0x0#11 then some (.lgetV (bitB w) (field w 17 6) (field w 11 6))
    else if field w 0 11 = 0x1#11 then some (.lgetG (bitB w) (field w 17 6) (field w 11 6))
    else if field w 0 11 = 0x2#11 then some (.lgetGranule (bitB w) (field w 17 6) (field w 11 6))
    else if field w 14 3 = 0x0#3 ∧ field w 0 11 = 0x3#11 then some (.lgetP (bitB w) (field w 17 6) (field w 11 3))
    else none
  | 0x29 =>
    if field w 0 11 = 0x0#11 then some (.lsetv (bitB w) (field w 17 6) (field w 11 6))
    else none
  | 0x2a =>
    if field w 17 6 = 0x0#6 ∧ field w 0 5 = 0x0#5 then some (.lraise (bitB w) (field w 11 6) (field w 5 6))
    else none
  | 0x2b =>
    if field w 17 6 = 0x0#6 ∧ field w 0 5 = 0x0#5 then some (.lclear (bitB w) (field w 11 6) (field w 5 6))
    else none
  | 0x2c =>
    if field w 0 5 = 0x0#5 then some (.ljoin (bitB w) (field w 17 6) (field w 11 6) (field w 5 6))
    else if field w 0 5 = 0x1#5 then some (.ldom (bitB w) (field w 17 6) (field w 11 6) (field w 5 6))
    else if field w 3 8 = 0x1#8 then some (.lown (bitB w) (field w 17 6) (field w 11 6) (field w 0 3))
    else none
  | 0x2d =>
    if field w 0 5 = 0x0#5 then some (.dcls (bitB w) (field w 17 6) (field w 11 6) (field w 5 6))
    else none
  | 0x2e =>
    if field w 3 2 = 0x0#2 then some (.dclsT (bitB w) (field w 17 6) (field w 11 6) (field w 5 6) (field w 0 3))
    else none
  | 0x2f =>
    if field w 17 6 = 0x0#6 ∧ field w 0 5 = 0x0#5 then some (.endorse (bitB w) (field w 11 6) (field w 5 6))
    else if field w 17 6 = 0x0#6 ∧ field w 0 11 = 0x1#11 then some (.endrev (bitB w) (field w 11 6))
    else if field w 0 11 = 0x2#11 then some (.endq (bitB w) (field w 17 6) (field w 11 6))
    else none
  | 0x30 =>
    if field w 30 1 = 1#1 ∧ field w 0 20 = 0x0#20 then some (.bar (field w 20 3))
    else if field w 0 20 = 0x20000#20 then some (.bara (bitB w) (field w 20 3))
    else if field w 30 1 = 1#1 ∧ field w 0 20 = 0x40000#20 then some (.barw (field w 20 3))
    else none
  | 0x31 =>
    if field w 17 6 = 0x0#6 ∧ field w 0 11 = 0x0#11 then some (.rinit (bitB w) (field w 11 6))
    else none
  | 0x32 =>
    if field w 17 6 = 0x0#6 ∧ field w 1 4 = 0x0#4 then some (.rpush (bitB w) (field w 11 6) (field w 5 6) (field w 0 1))
    else none
  | 0x33 =>
    if field w 1 10 = 0x0#10 then some (.rpop (bitB w) (field w 17 6) (field w 11 6) (field w 0 1))
    else none
  | 0x34 =>
    if field w 1 4 = 0x0#4 then some (.rpushT (bitB w) (field w 17 6) (field w 11 6) (field w 5 6) (field w 0 1))
    else none
  | 0x35 =>
    if field w 17 1 = 0x0#1 ∧ field w 1 10 = 0x0#10 then some (.rpopT (bitB w) (field w 18 5) (field w 11 6) (field w 0 1))
    else none
  | 0x36 =>
    if field w 0 11 = 0x0#11 then some (.rstat (bitB w) (field w 17 6) (field w 11 6))
    else none
  | 0x38 =>
    if field w 1 4 = 0x0#4 then some (.launch (bitB w) (field w 17 6) (field w 11 6) (field w 5 6) (field w 0 1))
    else none
  | 0x39 =>
    if field w 17 6 = 0x0#6 ∧ field w 0 11 = 0x0#11 then some (.lcancel (bitB w) (field w 11 6))
    else none
  | 0x3a =>
    if field w 0 11 = 0x0#11 then some (.lstat (bitB w) (field w 17 6) (field w 11 6))
    else none
  | 0x40 =>
    if field w 20 3 = 0x0#3 ∧ field w 11 1 = 0x0#1 ∧ field w 5 1 = 0x0#1 then some (.tmma (bitB w) (field w 17 3) (field w 12 5) (field w 6 5) (field w 1 4) (field w 0 1))
    else none
  | 0x41 =>
    if field w 20 3 = 0x0#3 ∧ field w 1 16 = 0x0#16 then some (.tzero (bitB w) (field w 17 3) (field w 0 1))
    else none
  | 0x42 =>
    if field w 17 1 = 0x0#1 ∧ field w 5 7 = 0x0#7 then some (.ttrn (bitB w) (field w 18 5) (field w 12 5) (field w 1 4) (field w 0 1))
    else none
  | 0x43 =>
    if field w 17 3 = 0x0#3 then some (.tscl (bitB w) (field w 20 3) (field w 1 16) (field w 0 1))
    else none
  | 0x44 =>
    if field w 20 3 = 0x0#3 ∧ field w 1 10 = 0x0#10 then some (.tlda (bitB w) (field w 17 3) (field w 11 6) (field w 0 1))
    else none
  | 0x45 =>
    if field w 20 3 = 0x0#3 ∧ field w 1 10 = 0x0#10 then some (.tdrain (bitB w) (field w 17 3) (field w 11 6) (field w 0 1))
    else none
  | 0x46 =>
    if field w 20 3 = 0x0#3 ∧ field w 1 10 = 0x0#10 then some (.tdrainAdd (bitB w) (field w 17 3) (field w 11 6) (field w 0 1))
    else none
  | 0x47 =>
    if field w 14 3 = 0x0#3 ∧ field w 0 11 = 0x0#11 then some (.tstat (bitB w) (field w 17 6) (field w 11 3))
    else none
  | 0x48 =>
    if field w 17 6 = 0x0#6 ∧ field w 0 5 = 0x0#5 then some (.ruleld (bitB w) (field w 11 6) (field w 5 6))
    else none
  | 0x49 =>
    if field w 17 6 = 0x0#6 ∧ field w 0 11 = 0x0#11 then some (.ruleoff (bitB w) (field w 11 6))
    else none
  | 0x4a =>
    if field w 0 23 = 0x0#23 then some (.flushw (bitB w))
    else none
  | 0x4b =>
    if field w 0 11 = 0x0#11 then some (.ruleq (bitB w) (field w 17 6) (field w 11 6))
    else none
  | 0x50 =>
    if field w 17 6 = 0x0#6 ∧ field w 0 5 = 0x0#5 then some (.etail (bitB w) (field w 11 6) (field w 5 6))
    else none
  | 0x51 =>
    if field w 30 1 = 1#1 ∧ field w 17 6 = 0x0#6 ∧ field w 0 5 = 0x0#5 then some (.waitseq (field w 11 6) (field w 5 6))
    else none
  | 0x52 =>
    if field w 0 11 = 0x0#11 then some (.seqr (bitB w) (field w 17 6) (field w 11 6))
    else none
  | 0x53 =>
    if field w 17 6 = 0x0#6 ∧ field w 0 11 = 0x0#11 then some (.coll (bitB w) (field w 11 6))
    else none
  | 0x54 =>
    if field w 0 11 = 0x0#11 then some (.commq (bitB w) (field w 17 6) (field w 11 6))
    else none
  | 0x58 =>
    if field w 0 17 = 0x0#17 then some (.erid (bitB w) (field w 17 6))
    else none
  | 0x59 =>
    if field w 0 18 = 0x0#18 then some (.esig (bitB w) (field w 18 5))
    else none
  | 0x5a =>
    if field w 0 17 = 0x0#17 then some (.estat (bitB w) (field w 17 6))
    else none
  | 0x5b =>
    if field w 17 6 = 0x0#6 ∧ field w 0 5 = 0x0#5 then some (.einj (bitB w) (field w 11 6) (field w 5 6))
    else none
  | 0x60 =>
    if field w 30 1 = 1#1 ∧ field w 17 6 = 0x0#6 ∧ field w 0 1 = 0x0#1 then some (.trap (field w 1 16))
    else none
  | 0x61 =>
    if field w 30 1 = 1#1 ∧ field w 0 23 = 0x0#23 then some .tret
    else none
  | 0x62 =>
    if field w 11 6 = 0x0#6 then some (.sread (bitB w) (field w 17 6) (field w 0 11))
    else none
  | 0x63 =>
    if field w 17 6 = 0x0#6 then some (.swrite (bitB w) (field w 11 6) (field w 0 11))
    else none
  | 0x64 =>
    if field w 0 17 = 0x0#17 then some (.clkr (bitB w) (field w 17 6))
    else none
  | 0x65 =>
    if field w 1 16 = 0x0#16 then some (.rand (bitB w) (field w 17 6) (field w 0 1))
    else none
  | 0x66 =>
    if field w 30 1 = 1#1 ∧ field w 0 23 = 0x0#23 then some .halt
    else none
  | 0x67 =>
    if field w 0 11 = 0x0#11 then some (.capr (bitB w) (field w 17 6) (field w 11 6))
    else none
  | 0x68 =>
    if field w 17 6 = 0x0#6 ∧ field w 0 5 = 0x0#5 then some (.slog (bitB w) (field w 11 6) (field w 5 6))
    else none
  | 0x7f =>
    if field w 30 1 = 0#1 ∧ field w 0 2 = 0x0#2 then some (.clauseHeader (field w 11 12) (field w 7 4) (field w 3 4) (field w 2 1))
    else none
  | _ => none

/-- The word's instruction by set and major opcode (R12), before the checks of R26 on its fields. -/
def decodeRaw (w : BitVec 32) : Option Instr :=
  if w.getLsbD 31 then decodeUniform (field w 23 7).toNat w else decodeLane (field w 23 7).toNat w

/-- The instruction of a word, or none where the word is ILLEGAL-ENCODING (R26). -/
def decode (w : BitVec 32) : Option Instr :=
  match decodeRaw w with
  | some i => if wellFormed i then some i else none
  | none => none

/-- The word of an instruction, written from the formats and opcode maps of R14 to R36, highest field first.
A step of a device has no word. -/
def encode : Instr → Option (BitVec 32)
  | .clauseHeader w a b s => some (0x1#1 ++ 0x0#1 ++ 0x7f#7 ++ w ++ a ++ b ++ s ++ 0x0#2)
  | .longLatencyComplete _ _ => none
  | .parkWake _ => none
  | .atomicPerform _ _ => none
  | .barrierWaitEnd _ => none
  | .waitseqObserve _ => none
  | .ringPushAdmit _ _ => none
  | .ringPopTake _ _ => none
  | .tileAllocate _ => none
  | .tileExecute _ => none
  | .flowstoneGroupExecute _ => none
  | .heldRequestAccept _ => none
  | .launchRecordCopy _ _ => none
  | .doorbellWrite _ _ => none
  | .queueEnableWrite _ _ _ _ => none
  | .enqueueVerdict _ => none
  | .launchEligible _ => none
  | .blockPlace _ _ => none
  | .windowStaging _ _ => none
  | .blockRetire _ _ => none
  | .launchComplete _ => none
  | .trapNotice _ => none
  | .damageSnapshot _ => none
  | .gangRelaunch _ _ => none
  | .coreSelfTest _ _ => none
  | .eccCorrect _ _ => none
  | .lateTransitionReplay _ _ => none
  | .preemptRequest _ => none
  | .resumeRequest _ => none
  | .coreSwap _ => none
  | .contextSaveMove _ => none
  | .contextResumeLoad _ _ _ => none
  | .echoCompare _ _ _ => none
  | .onceOpRendezvous _ _ _ => none
  | .echoStraggler _ _ _ => none
  | .reclone _ _ _ => none
  | .engineChunk _ _ _ => none
  | .migr _ => none
  | .hptEpochEnd _ => none
  | .rowHammerThrottle _ _ => none
  | .caParityAlert _ _ => none
  | .collectiveChunk _ => none
  | .flitReceive _ _ _ => none
  | .linkKeyUpdateRequest _ => none
  | .linkKeyStall _ => none
  | .portAttest _ _ _ => none
  | .commTableWrite _ _ => none
  | .registerWrite _ _ => none
  | .vadd z g d a b w => some (0x0#1 ++ bitOf z ++ 0x0#7 ++ g ++ d ++ a ++ b ++ w)
  | .vaddsS z g d a b w => some (0x0#1 ++ bitOf z ++ 0x1#7 ++ g ++ d ++ a ++ b ++ w)
  | .vaddsZ z g d a b w => some (0x0#1 ++ bitOf z ++ 0x2#7 ++ g ++ d ++ a ++ b ++ w)
  | .vsub z g d a b w => some (0x0#1 ++ bitOf z ++ 0x3#7 ++ g ++ d ++ a ++ b ++ w)
  | .vsubsS z g d a b w => some (0x0#1 ++ bitOf z ++ 0x4#7 ++ g ++ d ++ a ++ b ++ w)
  | .vsubsZ z g d a b w => some (0x0#1 ++ bitOf z ++ 0x5#7 ++ g ++ d ++ a ++ b ++ w)
  | .vmul z g d a b w => some (0x0#1 ++ bitOf z ++ 0x6#7 ++ g ++ d ++ a ++ b ++ w)
  | .vmulhS z g d a b w => some (0x0#1 ++ bitOf z ++ 0x7#7 ++ g ++ d ++ a ++ b ++ w)
  | .vmulhZ z g d a b w => some (0x0#1 ++ bitOf z ++ 0x8#7 ++ g ++ d ++ a ++ b ++ w)
  | .vmad z g d a b w => some (0x0#1 ++ bitOf z ++ 0x9#7 ++ g ++ d ++ a ++ b ++ w)
  | .vdot4S8 z g d a b => some (0x0#1 ++ bitOf z ++ 0xa#7 ++ g ++ d ++ a ++ b ++ 0x2#2)
  | .vand z g d a b => some (0x0#1 ++ bitOf z ++ 0xb#7 ++ g ++ d ++ a ++ b ++ 0x3#2)
  | .vor z g d a b => some (0x0#1 ++ bitOf z ++ 0xc#7 ++ g ++ d ++ a ++ b ++ 0x3#2)
  | .vxor z g d a b => some (0x0#1 ++ bitOf z ++ 0xd#7 ++ g ++ d ++ a ++ b ++ 0x3#2)
  | .vshl z g d a b w => some (0x0#1 ++ bitOf z ++ 0xe#7 ++ g ++ d ++ a ++ b ++ w)
  | .vshr z g d a b w => some (0x0#1 ++ bitOf z ++ 0xf#7 ++ g ++ d ++ a ++ b ++ w)
  | .vsar z g d a b w => some (0x0#1 ++ bitOf z ++ 0x10#7 ++ g ++ d ++ a ++ b ++ w)
  | .vminS z g d a b w => some (0x0#1 ++ bitOf z ++ 0x11#7 ++ g ++ d ++ a ++ b ++ w)
  | .vminZ z g d a b w => some (0x0#1 ++ bitOf z ++ 0x12#7 ++ g ++ d ++ a ++ b ++ w)
  | .vmaxS z g d a b w => some (0x0#1 ++ bitOf z ++ 0x13#7 ++ g ++ d ++ a ++ b ++ w)
  | .vmaxZ z g d a b w => some (0x0#1 ++ bitOf z ++ 0x14#7 ++ g ++ d ++ a ++ b ++ w)
  | .vsel z p d a b => some (0x0#1 ++ bitOf z ++ 0x15#7 ++ p ++ d ++ a ++ b ++ 0x3#2)
  | .vshufL z g d a b => some (0x0#1 ++ bitOf z ++ 0x16#7 ++ g ++ d ++ a ++ b ++ 0x3#2)
  | .vshufE z g d a b w => some (0x0#1 ++ bitOf z ++ 0x17#7 ++ g ++ d ++ a ++ b ++ w)
  | .vcmp z g p c a b w => some (0x0#1 ++ bitOf z ++ 0x18#7 ++ g ++ p ++ c ++ a ++ b ++ w)
  | .vmovi z g d i w => some (0x0#1 ++ bitOf z ++ 0x19#7 ++ g ++ d ++ i ++ w)
  | .vmov z g d a => some (0x0#1 ++ bitOf z ++ 0x1a#7 ++ g ++ d ++ a ++ 0x3#8)
  | .vnot z g d a => some (0x0#1 ++ bitOf z ++ 0x1a#7 ++ g ++ d ++ a ++ 0x7#8)
  | .vabs z g d a w => some (0x0#1 ++ bitOf z ++ 0x1a#7 ++ g ++ d ++ a ++ 0x2#6 ++ w)
  | .vclz z g d a w => some (0x0#1 ++ bitOf z ++ 0x1a#7 ++ g ++ d ++ a ++ 0x3#6 ++ w)
  | .vpop z g d a w => some (0x0#1 ++ bitOf z ++ 0x1a#7 ++ g ++ d ++ a ++ 0x4#6 ++ w)
  | .vextS z g d a w => some (0x0#1 ++ bitOf z ++ 0x1a#7 ++ g ++ d ++ a ++ 0x5#6 ++ w)
  | .vextZ z g d a w => some (0x0#1 ++ bitOf z ++ 0x1a#7 ++ g ++ d ++ a ++ 0x6#6 ++ w)
  | .vnar z g d a w => some (0x0#1 ++ bitOf z ++ 0x1a#7 ++ g ++ d ++ a ++ 0x7#6 ++ w)
  | .vnars z g d a w => some (0x0#1 ++ bitOf z ++ 0x1a#7 ++ g ++ d ++ a ++ 0x8#6 ++ w)
  | .vbcast z g d a => some (0x0#1 ++ bitOf z ++ 0x1a#7 ++ g ++ d ++ a ++ 0x27#8)
  | .vred z g d a o w => some (0x0#1 ++ bitOf z ++ 0x1b#7 ++ g ++ d ++ a ++ o ++ w)
  | .vscan z g d a o w => some (0x0#1 ++ bitOf z ++ 0x1c#7 ++ g ++ d ++ a ++ o ++ w)
  | .vfadd z g d a b w => some (0x0#1 ++ bitOf z ++ 0x20#7 ++ g ++ d ++ a ++ b ++ w)
  | .vfsub z g d a b w => some (0x0#1 ++ bitOf z ++ 0x21#7 ++ g ++ d ++ a ++ b ++ w)
  | .vfmul z g d a b w => some (0x0#1 ++ bitOf z ++ 0x22#7 ++ g ++ d ++ a ++ b ++ w)
  | .vfma z g d a b w => some (0x0#1 ++ bitOf z ++ 0x23#7 ++ g ++ d ++ a ++ b ++ w)
  | .vfmin z g d a b w => some (0x0#1 ++ bitOf z ++ 0x24#7 ++ g ++ d ++ a ++ b ++ w)
  | .vfmax z g d a b w => some (0x0#1 ++ bitOf z ++ 0x25#7 ++ g ++ d ++ a ++ b ++ w)
  | .vfcmp z g p c a b w => some (0x0#1 ++ bitOf z ++ 0x26#7 ++ g ++ p ++ c ++ a ++ b ++ w)
  | .vfabs z g d a w => some (0x0#1 ++ bitOf z ++ 0x27#7 ++ g ++ d ++ a ++ 0x0#6 ++ w)
  | .vfneg z g d a w => some (0x0#1 ++ bitOf z ++ 0x27#7 ++ g ++ d ++ a ++ 0x1#6 ++ w)
  | .vrcp z g d a f => some (0x0#1 ++ bitOf z ++ 0x28#7 ++ g ++ d ++ a ++ 0x0#7 ++ f)
  | .vrsq z g d a f => some (0x0#1 ++ bitOf z ++ 0x28#7 ++ g ++ d ++ a ++ 0x1#7 ++ f)
  | .vexp2 z g d a f => some (0x0#1 ++ bitOf z ++ 0x28#7 ++ g ++ d ++ a ++ 0x2#7 ++ f)
  | .vlog2 z g d a f => some (0x0#1 ++ bitOf z ++ 0x28#7 ++ g ++ d ++ a ++ 0x3#7 ++ f)
  | .vcvt z g d a m => some (0x0#1 ++ bitOf z ++ 0x29#7 ++ g ++ d ++ a ++ m ++ 0x0#2)
  | .vpack6 z g d a => some (0x0#1 ++ bitOf z ++ 0x2a#7 ++ g ++ d ++ a ++ 0x0#8)
  | .vunpk6 z g d a => some (0x0#1 ++ bitOf z ++ 0x2a#7 ++ g ++ d ++ a ++ 0x4#8)
  | .vqb4 z g d a => some (0x0#1 ++ bitOf z ++ 0x2a#7 ++ g ++ d ++ a ++ 0x8#10)
  | .vdqb4 z g d a => some (0x0#1 ++ bitOf z ++ 0x2a#7 ++ g ++ d ++ 0x0#2 ++ a ++ 0xc#8)
  | .vldS8 z g t b i d f => some (0x0#1 ++ bitOf z ++ 0x30#7 ++ g ++ t ++ b ++ i ++ d ++ f)
  | .vldZ8 z g t b i d f => some (0x0#1 ++ bitOf z ++ 0x31#7 ++ g ++ t ++ b ++ i ++ d ++ f)
  | .vldS16 z g t b i d f => some (0x0#1 ++ bitOf z ++ 0x32#7 ++ g ++ t ++ b ++ i ++ d ++ f)
  | .vldZ16 z g t b i d f => some (0x0#1 ++ bitOf z ++ 0x33#7 ++ g ++ t ++ b ++ i ++ d ++ f)
  | .vld32 z g t b i d f => some (0x0#1 ++ bitOf z ++ 0x34#7 ++ g ++ t ++ b ++ i ++ d ++ f)
  | .vld64 z g t b i d f => some (0x0#1 ++ bitOf z ++ 0x35#7 ++ g ++ t ++ b ++ i ++ d ++ f)
  | .vst8 z g t b i d => some (0x0#1 ++ bitOf z ++ 0x36#7 ++ g ++ t ++ b ++ i ++ d ++ 0x0#1)
  | .vst16 z g t b i d => some (0x0#1 ++ bitOf z ++ 0x37#7 ++ g ++ t ++ b ++ i ++ d ++ 0x0#1)
  | .vst32 z g t b i d => some (0x0#1 ++ bitOf z ++ 0x38#7 ++ g ++ t ++ b ++ i ++ d ++ 0x0#1)
  | .vst64 z g t b i d => some (0x0#1 ++ bitOf z ++ 0x39#7 ++ g ++ t ++ b ++ i ++ d ++ 0x0#1)
  | .atom z g t b i o s => some (0x0#1 ++ bitOf z ++ 0x3a#7 ++ g ++ t ++ b ++ i ++ o ++ s ++ 0x0#1)
  | .atomr z g t b i o s f => some (0x0#1 ++ bitOf z ++ 0x3b#7 ++ g ++ t ++ b ++ i ++ o ++ s ++ f)
  | .atomXadd z g t b i => some (0x0#1 ++ bitOf z ++ 0x3c#7 ++ g ++ t ++ b ++ i ++ 0x0#6)
  | .xclr z g b i => some (0x0#1 ++ bitOf z ++ 0x3c#7 ++ g ++ 0x0#6 ++ b ++ i ++ 0x4#6)
  | .xrnd z g t b i f => some (0x0#1 ++ bitOf z ++ 0x3d#7 ++ g ++ t ++ b ++ i ++ 0x0#5 ++ f)
  | .gadd z d a b => some (0x1#1 ++ bitOf z ++ 0x0#7 ++ d ++ a ++ b ++ 0x0#5)
  | .gaddImm z d a i => some (0x1#1 ++ bitOf z ++ 0x1#7 ++ d ++ a ++ i)
  | .gsub z d a b => some (0x1#1 ++ bitOf z ++ 0x0#7 ++ d ++ a ++ b ++ 0x1#5)
  | .gmul z d a b => some (0x1#1 ++ bitOf z ++ 0x0#7 ++ d ++ a ++ b ++ 0x2#5)
  | .gmulhS z d a b => some (0x1#1 ++ bitOf z ++ 0x0#7 ++ d ++ a ++ b ++ 0x3#5)
  | .gmulhZ z d a b => some (0x1#1 ++ bitOf z ++ 0x0#7 ++ d ++ a ++ b ++ 0x4#5)
  | .gmad z d a b => some (0x1#1 ++ bitOf z ++ 0x0#7 ++ d ++ a ++ b ++ 0x5#5)
  | .gdivS z d a b => some (0x1#1 ++ bitOf z ++ 0x0#7 ++ d ++ a ++ b ++ 0x6#5)
  | .gdivZ z d a b => some (0x1#1 ++ bitOf z ++ 0x0#7 ++ d ++ a ++ b ++ 0x7#5)
  | .gremS z d a b => some (0x1#1 ++ bitOf z ++ 0x0#7 ++ d ++ a ++ b ++ 0x8#5)
  | .gremZ z d a b => some (0x1#1 ++ bitOf z ++ 0x0#7 ++ d ++ a ++ b ++ 0x9#5)
  | .gand z d a b => some (0x1#1 ++ bitOf z ++ 0x0#7 ++ d ++ a ++ b ++ 0xa#5)
  | .gor z d a b => some (0x1#1 ++ bitOf z ++ 0x0#7 ++ d ++ a ++ b ++ 0xb#5)
  | .gxor z d a b => some (0x1#1 ++ bitOf z ++ 0x0#7 ++ d ++ a ++ b ++ 0xc#5)
  | .gnot z d a => some (0x1#1 ++ bitOf z ++ 0x0#7 ++ d ++ a ++ 0xd#11)
  | .gshl z d a b => some (0x1#1 ++ bitOf z ++ 0x0#7 ++ d ++ a ++ b ++ 0xe#5)
  | .gshr z d a b => some (0x1#1 ++ bitOf z ++ 0x0#7 ++ d ++ a ++ b ++ 0xf#5)
  | .gsar z d a b => some (0x1#1 ++ bitOf z ++ 0x0#7 ++ d ++ a ++ b ++ 0x10#5)
  | .grot z d a b => some (0x1#1 ++ bitOf z ++ 0x0#7 ++ d ++ a ++ b ++ 0x11#5)
  | .gminS z d a b => some (0x1#1 ++ bitOf z ++ 0x0#7 ++ d ++ a ++ b ++ 0x12#5)
  | .gminZ z d a b => some (0x1#1 ++ bitOf z ++ 0x0#7 ++ d ++ a ++ b ++ 0x13#5)
  | .gmaxS z d a b => some (0x1#1 ++ bitOf z ++ 0x0#7 ++ d ++ a ++ b ++ 0x14#5)
  | .gmaxZ z d a b => some (0x1#1 ++ bitOf z ++ 0x0#7 ++ d ++ a ++ b ++ 0x15#5)
  | .gmov z d a => some (0x1#1 ++ bitOf z ++ 0x0#7 ++ d ++ a ++ 0x16#11)
  | .gclz z d a => some (0x1#1 ++ bitOf z ++ 0x0#7 ++ d ++ a ++ 0x17#11)
  | .gpop z d a => some (0x1#1 ++ bitOf z ++ 0x0#7 ++ d ++ a ++ 0x18#11)
  | .gbfxS z d a b => some (0x1#1 ++ bitOf z ++ 0x0#7 ++ d ++ a ++ b ++ 0x19#5)
  | .gbfxZ z d a b => some (0x1#1 ++ bitOf z ++ 0x0#7 ++ d ++ a ++ b ++ 0x1a#5)
  | .gbfi z d a b => some (0x1#1 ++ bitOf z ++ 0x0#7 ++ d ++ a ++ b ++ 0x1b#5)
  | .gmovi z d i => some (0x1#1 ++ bitOf z ++ 0x2#7 ++ d ++ i)
  | .gmovh z d i => some (0x1#1 ++ bitOf z ++ 0x3#7 ++ d ++ 0x0#1 ++ i)
  | .glea z d a b s => some (0x1#1 ++ bitOf z ++ 0x4#7 ++ d ++ a ++ b ++ 0x0#3 ++ s)
  | .gcmp z d a b c => some (0x1#1 ++ bitOf z ++ 0x5#7 ++ d ++ a ++ b ++ c)
  | .gsel z d a b c => some (0x1#1 ++ bitOf z ++ 0x6#7 ++ d ++ a ++ b ++ c)
  | .grdl z d a b => some (0x1#1 ++ bitOf z ++ 0x7#7 ++ d ++ a ++ b ++ 0x0#5)
  | .gwrl z d a b => some (0x1#1 ++ bitOf z ++ 0x7#7 ++ d ++ a ++ b ++ 0x1#5)
  | .gbal z d a => some (0x1#1 ++ bitOf z ++ 0x7#7 ++ 0x0#3 ++ d ++ 0x0#3 ++ a ++ 0x2#11)
  | .gpopm z d a => some (0x1#1 ++ bitOf z ++ 0x7#7 ++ d ++ 0x0#3 ++ a ++ 0x3#11)
  | .gffs z d a => some (0x1#1 ++ bitOf z ++ 0x7#7 ++ d ++ 0x0#3 ++ a ++ 0x4#11)
  | .bra n p j o => some (0x1#1 ++ 0x1#1 ++ 0x10#7 ++ n ++ p ++ j ++ o)
  | .braUncond o => some (0x1#1 ++ 0x1#1 ++ 0x10#7 ++ 0x38#7 ++ o)
  | .bru a o => some (0x1#1 ++ 0x1#1 ++ 0x11#7 ++ a ++ 0x1#1 ++ o)
  | .bruz a o => some (0x1#1 ++ 0x1#1 ++ 0x11#7 ++ a ++ 0x0#1 ++ o)
  | .brx a => some (0x1#1 ++ 0x1#1 ++ 0x12#7 ++ 0x0#6 ++ a ++ 0x0#11)
  | .call n p v o => some (0x1#1 ++ 0x1#1 ++ 0x13#7 ++ n ++ p ++ v ++ o)
  | .callx n p v a => some (0x1#1 ++ 0x1#1 ++ 0x14#7 ++ n ++ p ++ v ++ a ++ 0x0#7)
  | .ret n p v => some (0x1#1 ++ 0x1#1 ++ 0x15#7 ++ n ++ p ++ v ++ 0x0#13)
  | .jset z j a o => some (0x1#1 ++ bitOf z ++ 0x16#7 ++ j ++ a ++ o)
  | .join j => some (0x1#1 ++ 0x1#1 ++ 0x17#7 ++ j ++ 0x0#20)
  | .jstat z d j => some (0x1#1 ++ bitOf z ++ 0x18#7 ++ d ++ 0x0#3 ++ j ++ 0x0#11)
  | .exit n p => some (0x1#1 ++ 0x1#1 ++ 0x19#7 ++ n ++ p ++ 0x0#19)
  | .loop k c l => some (0x1#1 ++ 0x1#1 ++ 0x1a#7 ++ k ++ c ++ l)
  | .loopg k a l => some (0x1#1 ++ 0x1#1 ++ 0x1b#7 ++ k ++ a ++ 0x0#6 ++ l)
  | .lbrk k a => some (0x1#1 ++ 0x1#1 ++ 0x1c#7 ++ k ++ a ++ 0x0#15)
  | .park a b => some (0x1#1 ++ 0x1#1 ++ 0x1d#7 ++ 0x0#6 ++ a ++ b ++ 0x0#5)
  | .nop z => some (0x1#1 ++ bitOf z ++ 0x1f#7 ++ 0x0#23)
  | .gld z d b i f => some (0x1#1 ++ bitOf z ++ 0x20#7 ++ d ++ b ++ i ++ f)
  | .gst z d b i => some (0x1#1 ++ bitOf z ++ 0x21#7 ++ d ++ b ++ i ++ 0x0#1)
  | .ord z o l => some (0x1#1 ++ bitOf z ++ 0x22#7 ++ o ++ l ++ 0x0#17)
  | .phrel z l => some (0x1#1 ++ bitOf z ++ 0x23#7 ++ l ++ 0x0#20)
  | .phacq z l => some (0x1#1 ++ bitOf z ++ 0x23#7 ++ l ++ 0x20000#20)
  | .phase z l => some (0x1#1 ++ bitOf z ++ 0x23#7 ++ l ++ 0x40000#20)
  | .enter z n => some (0x1#1 ++ bitOf z ++ 0x24#7 ++ 0x0#10 ++ n)
  | .leave z n => some (0x1#1 ++ bitOf z ++ 0x25#7 ++ 0x0#10 ++ n)
  | .spill z v k => some (0x1#1 ++ bitOf z ++ 0x26#7 ++ v ++ 0x0#9 ++ k)
  | .fill z v k => some (0x1#1 ++ bitOf z ++ 0x27#7 ++ v ++ 0x0#9 ++ k)
  | .lgetV z d a => some (0x1#1 ++ bitOf z ++ 0x28#7 ++ d ++ a ++ 0x0#11)
  | .lgetG z d a => some (0x1#1 ++ bitOf z ++ 0x28#7 ++ d ++ a ++ 0x1#11)
  | .lgetGranule z d a => some (0x1#1 ++ bitOf z ++ 0x28#7 ++ d ++ a ++ 0x2#11)
  | .lgetP z d a => some (0x1#1 ++ bitOf z ++ 0x28#7 ++ d ++ 0x0#3 ++ a ++ 0x3#11)
  | .lsetv z d a => some (0x1#1 ++ bitOf z ++ 0x29#7 ++ d ++ a ++ 0x0#11)
  | .lraise z a b => some (0x1#1 ++ bitOf z ++ 0x2a#7 ++ 0x0#6 ++ a ++ b ++ 0x0#5)
  | .lclear z a b => some (0x1#1 ++ bitOf z ++ 0x2b#7 ++ 0x0#6 ++ a ++ b ++ 0x0#5)
  | .ljoin z d a b => some (0x1#1 ++ bitOf z ++ 0x2c#7 ++ d ++ a ++ b ++ 0x0#5)
  | .ldom z d a b => some (0x1#1 ++ bitOf z ++ 0x2c#7 ++ d ++ a ++ b ++ 0x1#5)
  | .lown z d a i => some (0x1#1 ++ bitOf z ++ 0x2c#7 ++ d ++ a ++ 0x1#8 ++ i)
  | .dcls z d a b => some (0x1#1 ++ bitOf z ++ 0x2d#7 ++ d ++ a ++ b ++ 0x0#5)
  | .dclsT z d a b p => some (0x1#1 ++ bitOf z ++ 0x2e#7 ++ d ++ a ++ b ++ 0x0#2 ++ p)
  | .endorse z a b => some (0x1#1 ++ bitOf z ++ 0x2f#7 ++ 0x0#6 ++ a ++ b ++ 0x0#5)
  | .endrev z a => some (0x1#1 ++ bitOf z ++ 0x2f#7 ++ 0x0#6 ++ a ++ 0x1#11)
  | .endq z d a => some (0x1#1 ++ bitOf z ++ 0x2f#7 ++ d ++ a ++ 0x2#11)
  | .bar l => some (0x1#1 ++ 0x1#1 ++ 0x30#7 ++ l ++ 0x0#20)
  | .bara z l => some (0x1#1 ++ bitOf z ++ 0x30#7 ++ l ++ 0x20000#20)
  | .barw l => some (0x1#1 ++ 0x1#1 ++ 0x30#7 ++ l ++ 0x40000#20)
  | .rinit z a => some (0x1#1 ++ bitOf z ++ 0x31#7 ++ 0x0#6 ++ a ++ 0x0#11)
  | .rpush z a b f => some (0x1#1 ++ bitOf z ++ 0x32#7 ++ 0x0#6 ++ a ++ b ++ 0x0#4 ++ f)
  | .rpop z d a f => some (0x1#1 ++ bitOf z ++ 0x33#7 ++ d ++ a ++ 0x0#10 ++ f)
  | .rpushT z d a b f => some (0x1#1 ++ bitOf z ++ 0x34#7 ++ d ++ a ++ b ++ 0x0#4 ++ f)
  | .rpopT z d a f => some (0x1#1 ++ bitOf z ++ 0x35#7 ++ d ++ 0x0#1 ++ a ++ 0x0#10 ++ f)
  | .rstat z d a => some (0x1#1 ++ bitOf z ++ 0x36#7 ++ d ++ a ++ 0x0#11)
  | .launch z d a b f => some (0x1#1 ++ bitOf z ++ 0x38#7 ++ d ++ a ++ b ++ 0x0#4 ++ f)
  | .lcancel z a => some (0x1#1 ++ bitOf z ++ 0x39#7 ++ 0x0#6 ++ a ++ 0x0#11)
  | .lstat z d a => some (0x1#1 ++ bitOf z ++ 0x3a#7 ++ d ++ a ++ 0x0#11)
  | .tmma z d a b m f => some (0x1#1 ++ bitOf z ++ 0x40#7 ++ 0x0#3 ++ d ++ a ++ 0x0#1 ++ b ++ 0x0#1 ++ m ++ f)
  | .tzero z d f => some (0x1#1 ++ bitOf z ++ 0x41#7 ++ 0x0#3 ++ d ++ 0x0#16 ++ f)
  | .ttrn z d a m f => some (0x1#1 ++ bitOf z ++ 0x42#7 ++ d ++ 0x0#1 ++ a ++ 0x0#7 ++ m ++ f)
  | .tscl z d i f => some (0x1#1 ++ bitOf z ++ 0x43#7 ++ d ++ 0x0#3 ++ i ++ f)
  | .tlda z d a f => some (0x1#1 ++ bitOf z ++ 0x44#7 ++ 0x0#3 ++ d ++ a ++ 0x0#10 ++ f)
  | .tdrain z d a f => some (0x1#1 ++ bitOf z ++ 0x45#7 ++ 0x0#3 ++ d ++ a ++ 0x0#10 ++ f)
  | .tdrainAdd z d a f => some (0x1#1 ++ bitOf z ++ 0x46#7 ++ 0x0#3 ++ d ++ a ++ 0x0#10 ++ f)
  | .tstat z d a => some (0x1#1 ++ bitOf z ++ 0x47#7 ++ d ++ 0x0#3 ++ a ++ 0x0#11)
  | .ruleld z a b => some (0x1#1 ++ bitOf z ++ 0x48#7 ++ 0x0#6 ++ a ++ b ++ 0x0#5)
  | .ruleoff z a => some (0x1#1 ++ bitOf z ++ 0x49#7 ++ 0x0#6 ++ a ++ 0x0#11)
  | .flushw z => some (0x1#1 ++ bitOf z ++ 0x4a#7 ++ 0x0#23)
  | .ruleq z d a => some (0x1#1 ++ bitOf z ++ 0x4b#7 ++ d ++ a ++ 0x0#11)
  | .etail z a b => some (0x1#1 ++ bitOf z ++ 0x50#7 ++ 0x0#6 ++ a ++ b ++ 0x0#5)
  | .waitseq a b => some (0x1#1 ++ 0x1#1 ++ 0x51#7 ++ 0x0#6 ++ a ++ b ++ 0x0#5)
  | .seqr z d a => some (0x1#1 ++ bitOf z ++ 0x52#7 ++ d ++ a ++ 0x0#11)
  | .coll z a => some (0x1#1 ++ bitOf z ++ 0x53#7 ++ 0x0#6 ++ a ++ 0x0#11)
  | .commq z d a => some (0x1#1 ++ bitOf z ++ 0x54#7 ++ d ++ a ++ 0x0#11)
  | .erid z d => some (0x1#1 ++ bitOf z ++ 0x58#7 ++ d ++ 0x0#17)
  | .esig z d => some (0x1#1 ++ bitOf z ++ 0x59#7 ++ d ++ 0x0#18)
  | .estat z d => some (0x1#1 ++ bitOf z ++ 0x5a#7 ++ d ++ 0x0#17)
  | .einj z a b => some (0x1#1 ++ bitOf z ++ 0x5b#7 ++ 0x0#6 ++ a ++ b ++ 0x0#5)
  | .trap i => some (0x1#1 ++ 0x1#1 ++ 0x60#7 ++ 0x0#6 ++ i ++ 0x0#1)
  | .sread z d s => some (0x1#1 ++ bitOf z ++ 0x62#7 ++ d ++ 0x0#6 ++ s)
  | .swrite z a s => some (0x1#1 ++ bitOf z ++ 0x63#7 ++ 0x0#6 ++ a ++ s)
  | .clkr z d => some (0x1#1 ++ bitOf z ++ 0x64#7 ++ d ++ 0x0#17)
  | .rand z d f => some (0x1#1 ++ bitOf z ++ 0x65#7 ++ d ++ 0x0#16 ++ f)
  | .capr z d a => some (0x1#1 ++ bitOf z ++ 0x67#7 ++ d ++ a ++ 0x0#11)
  | .slog z a b => some (0x1#1 ++ bitOf z ++ 0x68#7 ++ 0x0#6 ++ a ++ b ++ 0x0#5)
  | .spdmRequest _ _ => none
  | .linkKeyInstall _ => none
  | .portRetrain _ => none
  | .moduleReset => none
  | .thermalStop => none
  | .asidCreate => none
  | .asidDestroy => none
  | .lhandle => none
  | .map => none
  | .unmap => none
  | .settag => none
  | .acl => none
  | .cred => none
  | .ctxkey => none
  | .pooladd => none
  | .pooldel => none
  | .debugRead => none
  | .debugWrite => none
  | .debugResume => none
  | .dpop => none
  | .yield => some (0x1#1 ++ 0x1#1 ++ 0x1e#7 ++ 0x0#23)
  | .tret => some (0x1#1 ++ 0x1#1 ++ 0x61#7 ++ 0x0#23)
  | .halt => some (0x1#1 ++ 0x1#1 ++ 0x66#7 ++ 0x0#23)

/-- The four bytes of a word at rising addresses: words are stored little-endian (R12). -/
def wordBytes (w : BitVec 32) : List Byte :=
  [w.extractLsb' 0 8, w.extractLsb' 8 8, w.extractLsb' 16 8, w.extractLsb' 24 8]

/-- The word that four bytes at rising addresses hold (R12). -/
def bytesWord : List Byte → Option (BitVec 32)
  | [b0, b1, b2, b3] => some (b3 ++ b2 ++ b1 ++ b0)
  | _ => none

/-- What the decoder reads from an instruction of the opcode table, given by the bits of its one 32-bit word.  A
row without an encoding has no word. -/
def decodeTableWord (nbits w : Nat) : Option Instr :=
  if nbits = 32 then (bytesWord (wordBytes (BitVec.ofNat 32 w))).bind decode else none

end Sys2Proof
end

