-- ==== Sys2Proof/Machine/Classes.lean ====
section
/-! DEFINITION. What every instruction is, by its row of the opcode table: whether it ends its clause (R12, R25), which
flag select it carries (R27), and whether it is a flush point of Flowstone (R277). -/
namespace Sys2Proof.Machine

/-- The instruction is the last of its clause: its word has B = 1 (R12, R25). -/
def boundary : Instr → Bool
  | .clauseHeader _ _ _ _ => false
  | .longLatencyComplete _ _ => false
  | .parkWake _ => false
  | .atomicPerform _ _ => false
  | .barrierWaitEnd _ => false
  | .waitseqObserve _ => false
  | .ringPushAdmit _ _ => false
  | .ringPopTake _ _ => false
  | .tileAllocate _ => false
  | .tileExecute _ => false
  | .flowstoneGroupExecute _ => false
  | .heldRequestAccept _ => false
  | .launchRecordCopy _ _ => false
  | .doorbellWrite _ _ => false
  | .queueEnableWrite _ _ _ _ => false
  | .enqueueVerdict _ => false
  | .launchEligible _ => false
  | .blockPlace _ _ => false
  | .windowStaging _ _ => false
  | .blockRetire _ _ => false
  | .launchComplete _ => false
  | .trapNotice _ => false
  | .damageSnapshot _ => false
  | .gangRelaunch _ _ => false
  | .coreSelfTest _ _ => false
  | .eccCorrect _ _ => false
  | .lateTransitionReplay _ _ => false
  | .preemptRequest _ => false
  | .resumeRequest _ => false
  | .coreSwap _ => false
  | .contextSaveMove _ => false
  | .contextResumeLoad _ _ _ => false
  | .echoCompare _ _ _ => false
  | .onceOpRendezvous _ _ _ => false
  | .echoStraggler _ _ _ => false
  | .reclone _ _ _ => false
  | .engineChunk _ _ _ => false
  | .migr _ => false
  | .hptEpochEnd _ => false
  | .rowHammerThrottle _ _ => false
  | .caParityAlert _ _ => false
  | .collectiveChunk _ => false
  | .flitReceive _ _ _ => false
  | .linkKeyUpdateRequest _ => false
  | .linkKeyStall _ => false
  | .portAttest _ _ _ => false
  | .commTableWrite _ _ => false
  | .registerWrite _ _ => false
  | .vadd z _ _ _ _ _ => z
  | .vaddsS z _ _ _ _ _ => z
  | .vaddsZ z _ _ _ _ _ => z
  | .vsub z _ _ _ _ _ => z
  | .vsubsS z _ _ _ _ _ => z
  | .vsubsZ z _ _ _ _ _ => z
  | .vmul z _ _ _ _ _ => z
  | .vmulhS z _ _ _ _ _ => z
  | .vmulhZ z _ _ _ _ _ => z
  | .vmad z _ _ _ _ _ => z
  | .vdot4S8 z _ _ _ _ => z
  | .vand z _ _ _ _ => z
  | .vor z _ _ _ _ => z
  | .vxor z _ _ _ _ => z
  | .vshl z _ _ _ _ _ => z
  | .vshr z _ _ _ _ _ => z
  | .vsar z _ _ _ _ _ => z
  | .vminS z _ _ _ _ _ => z
  | .vminZ z _ _ _ _ _ => z
  | .vmaxS z _ _ _ _ _ => z
  | .vmaxZ z _ _ _ _ _ => z
  | .vsel z _ _ _ _ => z
  | .vshufL z _ _ _ _ => z
  | .vshufE z _ _ _ _ _ => z
  | .vcmp z _ _ _ _ _ _ => z
  | .vmovi z _ _ _ _ => z
  | .vmov z _ _ _ => z
  | .vnot z _ _ _ => z
  | .vabs z _ _ _ _ => z
  | .vclz z _ _ _ _ => z
  | .vpop z _ _ _ _ => z
  | .vextS z _ _ _ _ => z
  | .vextZ z _ _ _ _ => z
  | .vnar z _ _ _ _ => z
  | .vnars z _ _ _ _ => z
  | .vbcast z _ _ _ => z
  | .vred z _ _ _ _ _ => z
  | .vscan z _ _ _ _ _ => z
  | .vfadd z _ _ _ _ _ => z
  | .vfsub z _ _ _ _ _ => z
  | .vfmul z _ _ _ _ _ => z
  | .vfma z _ _ _ _ _ => z
  | .vfmin z _ _ _ _ _ => z
  | .vfmax z _ _ _ _ _ => z
  | .vfcmp z _ _ _ _ _ _ => z
  | .vfabs z _ _ _ _ => z
  | .vfneg z _ _ _ _ => z
  | .vrcp z _ _ _ _ => z
  | .vrsq z _ _ _ _ => z
  | .vexp2 z _ _ _ _ => z
  | .vlog2 z _ _ _ _ => z
  | .vcvt z _ _ _ _ => z
  | .vpack6 z _ _ _ => z
  | .vunpk6 z _ _ _ => z
  | .vqb4 z _ _ _ => z
  | .vdqb4 z _ _ _ => z
  | .vldS8 z _ _ _ _ _ _ => z
  | .vldZ8 z _ _ _ _ _ _ => z
  | .vldS16 z _ _ _ _ _ _ => z
  | .vldZ16 z _ _ _ _ _ _ => z
  | .vld32 z _ _ _ _ _ _ => z
  | .vld64 z _ _ _ _ _ _ => z
  | .vst8 z _ _ _ _ _ => z
  | .vst16 z _ _ _ _ _ => z
  | .vst32 z _ _ _ _ _ => z
  | .vst64 z _ _ _ _ _ => z
  | .atom z _ _ _ _ _ _ => z
  | .atomr z _ _ _ _ _ _ _ => z
  | .atomXadd z _ _ _ _ => z
  | .xclr z _ _ _ => z
  | .xrnd z _ _ _ _ _ => z
  | .gadd z _ _ _ => z
  | .gaddImm z _ _ _ => z
  | .gsub z _ _ _ => z
  | .gmul z _ _ _ => z
  | .gmulhS z _ _ _ => z
  | .gmulhZ z _ _ _ => z
  | .gmad z _ _ _ => z
  | .gdivS z _ _ _ => z
  | .gdivZ z _ _ _ => z
  | .gremS z _ _ _ => z
  | .gremZ z _ _ _ => z
  | .gand z _ _ _ => z
  | .gor z _ _ _ => z
  | .gxor z _ _ _ => z
  | .gnot z _ _ => z
  | .gshl z _ _ _ => z
  | .gshr z _ _ _ => z
  | .gsar z _ _ _ => z
  | .grot z _ _ _ => z
  | .gminS z _ _ _ => z
  | .gminZ z _ _ _ => z
  | .gmaxS z _ _ _ => z
  | .gmaxZ z _ _ _ => z
  | .gmov z _ _ => z
  | .gclz z _ _ => z
  | .gpop z _ _ => z
  | .gbfxS z _ _ _ => z
  | .gbfxZ z _ _ _ => z
  | .gbfi z _ _ _ => z
  | .gmovi z _ _ => z
  | .gmovh z _ _ => z
  | .glea z _ _ _ _ => z
  | .gcmp z _ _ _ _ => z
  | .gsel z _ _ _ _ => z
  | .grdl z _ _ _ => z
  | .gwrl z _ _ _ => z
  | .gbal z _ _ => z
  | .gpopm z _ _ => z
  | .gffs z _ _ => z
  | .bra _ _ _ _ => true
  | .braUncond _ => true
  | .bru _ _ => true
  | .bruz _ _ => true
  | .brx _ => true
  | .call _ _ _ _ => true
  | .callx _ _ _ _ => true
  | .ret _ _ _ => true
  | .jset z _ _ _ => z
  | .join _ => true
  | .jstat z _ _ => z
  | .exit _ _ => true
  | .loop _ _ _ => true
  | .loopg _ _ _ => true
  | .lbrk _ _ => true
  | .park _ _ => true
  | .nop z => z
  | .gld z _ _ _ _ => z
  | .gst z _ _ _ => z
  | .ord z _ _ => z
  | .phrel z _ => z
  | .phacq z _ => z
  | .phase z _ => z
  | .enter z _ => z
  | .leave z _ => z
  | .spill z _ _ => z
  | .fill z _ _ => z
  | .lgetV z _ _ => z
  | .lgetG z _ _ => z
  | .lgetGranule z _ _ => z
  | .lgetP z _ _ => z
  | .lsetv z _ _ => z
  | .lraise z _ _ => z
  | .lclear z _ _ => z
  | .ljoin z _ _ _ => z
  | .ldom z _ _ _ => z
  | .lown z _ _ _ => z
  | .dcls z _ _ _ => z
  | .dclsT z _ _ _ _ => z
  | .endorse z _ _ => z
  | .endrev z _ => z
  | .endq z _ _ => z
  | .bar _ => true
  | .bara z _ => z
  | .barw _ => true
  | .rinit z _ => z
  | .rpush z _ _ _ => z
  | .rpop z _ _ _ => z
  | .rpushT z _ _ _ _ => z
  | .rpopT z _ _ _ => z
  | .rstat z _ _ => z
  | .launch z _ _ _ _ => z
  | .lcancel z _ => z
  | .lstat z _ _ => z
  | .tmma z _ _ _ _ _ => z
  | .tzero z _ _ => z
  | .ttrn z _ _ _ _ => z
  | .tscl z _ _ _ => z
  | .tlda z _ _ _ => z
  | .tdrain z _ _ _ => z
  | .tdrainAdd z _ _ _ => z
  | .tstat z _ _ => z
  | .ruleld z _ _ => z
  | .ruleoff z _ => z
  | .flushw z => z
  | .ruleq z _ _ => z
  | .etail z _ _ => z
  | .waitseq _ _ => true
  | .seqr z _ _ => z
  | .coll z _ => z
  | .commq z _ _ => z
  | .erid z _ => z
  | .esig z _ => z
  | .estat z _ => z
  | .einj z _ _ => z
  | .trap _ => true
  | .sread z _ _ => z
  | .swrite z _ _ => z
  | .clkr z _ => z
  | .rand z _ _ => z
  | .capr z _ _ => z
  | .slog z _ _ => z
  | .spdmRequest _ _ => false
  | .linkKeyInstall _ => false
  | .portRetrain _ => false
  | .moduleReset => false
  | .thermalStop => false
  | .asidCreate => false
  | .asidDestroy => false
  | .lhandle => false
  | .map => false
  | .unmap => false
  | .settag => false
  | .acl => false
  | .cred => false
  | .ctxkey => false
  | .pooladd => false
  | .pooldel => false
  | .debugRead => false
  | .debugWrite => false
  | .debugResume => false
  | .dpop => false
  | .yield => true
  | .tret => true
  | .halt => true

/-- The flag select of a long-latency instruction, bit 0 of its word (R27): 0 selects setA, 1 selects setB. -/
def flagSelect : Instr → Option (BitVec 1)
  | .clauseHeader _ _ _ _ => none
  | .longLatencyComplete _ _ => none
  | .parkWake _ => none
  | .atomicPerform _ _ => none
  | .barrierWaitEnd _ => none
  | .waitseqObserve _ => none
  | .ringPushAdmit _ _ => none
  | .ringPopTake _ _ => none
  | .tileAllocate _ => none
  | .tileExecute _ => none
  | .flowstoneGroupExecute _ => none
  | .heldRequestAccept _ => none
  | .launchRecordCopy _ _ => none
  | .doorbellWrite _ _ => none
  | .queueEnableWrite _ _ _ _ => none
  | .enqueueVerdict _ => none
  | .launchEligible _ => none
  | .blockPlace _ _ => none
  | .windowStaging _ _ => none
  | .blockRetire _ _ => none
  | .launchComplete _ => none
  | .trapNotice _ => none
  | .damageSnapshot _ => none
  | .gangRelaunch _ _ => none
  | .coreSelfTest _ _ => none
  | .eccCorrect _ _ => none
  | .lateTransitionReplay _ _ => none
  | .preemptRequest _ => none
  | .resumeRequest _ => none
  | .coreSwap _ => none
  | .contextSaveMove _ => none
  | .contextResumeLoad _ _ _ => none
  | .echoCompare _ _ _ => none
  | .onceOpRendezvous _ _ _ => none
  | .echoStraggler _ _ _ => none
  | .reclone _ _ _ => none
  | .engineChunk _ _ _ => none
  | .migr _ => none
  | .hptEpochEnd _ => none
  | .rowHammerThrottle _ _ => none
  | .caParityAlert _ _ => none
  | .collectiveChunk _ => none
  | .flitReceive _ _ _ => none
  | .linkKeyUpdateRequest _ => none
  | .linkKeyStall _ => none
  | .portAttest _ _ _ => none
  | .commTableWrite _ _ => none
  | .registerWrite _ _ => none
  | .vadd _ _ _ _ _ _ => none
  | .vaddsS _ _ _ _ _ _ => none
  | .vaddsZ _ _ _ _ _ _ => none
  | .vsub _ _ _ _ _ _ => none
  | .vsubsS _ _ _ _ _ _ => none
  | .vsubsZ _ _ _ _ _ _ => none
  | .vmul _ _ _ _ _ _ => none
  | .vmulhS _ _ _ _ _ _ => none
  | .vmulhZ _ _ _ _ _ _ => none
  | .vmad _ _ _ _ _ _ => none
  | .vdot4S8 _ _ _ _ _ => none
  | .vand _ _ _ _ _ => none
  | .vor _ _ _ _ _ => none
  | .vxor _ _ _ _ _ => none
  | .vshl _ _ _ _ _ _ => none
  | .vshr _ _ _ _ _ _ => none
  | .vsar _ _ _ _ _ _ => none
  | .vminS _ _ _ _ _ _ => none
  | .vminZ _ _ _ _ _ _ => none
  | .vmaxS _ _ _ _ _ _ => none
  | .vmaxZ _ _ _ _ _ _ => none
  | .vsel _ _ _ _ _ => none
  | .vshufL _ _ _ _ _ => none
  | .vshufE _ _ _ _ _ _ => none
  | .vcmp _ _ _ _ _ _ _ => none
  | .vmovi _ _ _ _ _ => none
  | .vmov _ _ _ _ => none
  | .vnot _ _ _ _ => none
  | .vabs _ _ _ _ _ => none
  | .vclz _ _ _ _ _ => none
  | .vpop _ _ _ _ _ => none
  | .vextS _ _ _ _ _ => none
  | .vextZ _ _ _ _ _ => none
  | .vnar _ _ _ _ _ => none
  | .vnars _ _ _ _ _ => none
  | .vbcast _ _ _ _ => none
  | .vred _ _ _ _ _ _ => none
  | .vscan _ _ _ _ _ _ => none
  | .vfadd _ _ _ _ _ _ => none
  | .vfsub _ _ _ _ _ _ => none
  | .vfmul _ _ _ _ _ _ => none
  | .vfma _ _ _ _ _ _ => none
  | .vfmin _ _ _ _ _ _ => none
  | .vfmax _ _ _ _ _ _ => none
  | .vfcmp _ _ _ _ _ _ _ => none
  | .vfabs _ _ _ _ _ => none
  | .vfneg _ _ _ _ _ => none
  | .vrcp _ _ _ _ f => some f
  | .vrsq _ _ _ _ f => some f
  | .vexp2 _ _ _ _ f => some f
  | .vlog2 _ _ _ _ f => some f
  | .vcvt _ _ _ _ _ => none
  | .vpack6 _ _ _ _ => none
  | .vunpk6 _ _ _ _ => none
  | .vqb4 _ _ _ _ => none
  | .vdqb4 _ _ _ _ => none
  | .vldS8 _ _ _ _ _ _ f => some f
  | .vldZ8 _ _ _ _ _ _ f => some f
  | .vldS16 _ _ _ _ _ _ f => some f
  | .vldZ16 _ _ _ _ _ _ f => some f
  | .vld32 _ _ _ _ _ _ f => some f
  | .vld64 _ _ _ _ _ _ f => some f
  | .vst8 _ _ _ _ _ _ => none
  | .vst16 _ _ _ _ _ _ => none
  | .vst32 _ _ _ _ _ _ => none
  | .vst64 _ _ _ _ _ _ => none
  | .atom _ _ _ _ _ _ _ => none
  | .atomr _ _ _ _ _ _ _ f => some f
  | .atomXadd _ _ _ _ _ => none
  | .xclr _ _ _ _ => none
  | .xrnd _ _ _ _ _ f => some f
  | .gadd _ _ _ _ => none
  | .gaddImm _ _ _ _ => none
  | .gsub _ _ _ _ => none
  | .gmul _ _ _ _ => none
  | .gmulhS _ _ _ _ => none
  | .gmulhZ _ _ _ _ => none
  | .gmad _ _ _ _ => none
  | .gdivS _ _ _ _ => none
  | .gdivZ _ _ _ _ => none
  | .gremS _ _ _ _ => none
  | .gremZ _ _ _ _ => none
  | .gand _ _ _ _ => none
  | .gor _ _ _ _ => none
  | .gxor _ _ _ _ => none
  | .gnot _ _ _ => none
  | .gshl _ _ _ _ => none
  | .gshr _ _ _ _ => none
  | .gsar _ _ _ _ => none
  | .grot _ _ _ _ => none
  | .gminS _ _ _ _ => none
  | .gminZ _ _ _ _ => none
  | .gmaxS _ _ _ _ => none
  | .gmaxZ _ _ _ _ => none
  | .gmov _ _ _ => none
  | .gclz _ _ _ => none
  | .gpop _ _ _ => none
  | .gbfxS _ _ _ _ => none
  | .gbfxZ _ _ _ _ => none
  | .gbfi _ _ _ _ => none
  | .gmovi _ _ _ => none
  | .gmovh _ _ _ => none
  | .glea _ _ _ _ _ => none
  | .gcmp _ _ _ _ _ => none
  | .gsel _ _ _ _ _ => none
  | .grdl _ _ _ _ => none
  | .gwrl _ _ _ _ => none
  | .gbal _ _ _ => none
  | .gpopm _ _ _ => none
  | .gffs _ _ _ => none
  | .bra _ _ _ _ => none
  | .braUncond _ => none
  | .bru _ _ => none
  | .bruz _ _ => none
  | .brx _ => none
  | .call _ _ _ _ => none
  | .callx _ _ _ _ => none
  | .ret _ _ _ => none
  | .jset _ _ _ _ => none
  | .join _ => none
  | .jstat _ _ _ => none
  | .exit _ _ => none
  | .loop _ _ _ => none
  | .loopg _ _ _ => none
  | .lbrk _ _ => none
  | .park _ _ => none
  | .nop _ => none
  | .gld _ _ _ _ f => some f
  | .gst _ _ _ _ => none
  | .ord _ _ _ => none
  | .phrel _ _ => none
  | .phacq _ _ => none
  | .phase _ _ => none
  | .enter _ _ => none
  | .leave _ _ => none
  | .spill _ _ _ => none
  | .fill _ _ _ => none
  | .lgetV _ _ _ => none
  | .lgetG _ _ _ => none
  | .lgetGranule _ _ _ => none
  | .lgetP _ _ _ => none
  | .lsetv _ _ _ => none
  | .lraise _ _ _ => none
  | .lclear _ _ _ => none
  | .ljoin _ _ _ _ => none
  | .ldom _ _ _ _ => none
  | .lown _ _ _ _ => none
  | .dcls _ _ _ _ => none
  | .dclsT _ _ _ _ _ => none
  | .endorse _ _ _ => none
  | .endrev _ _ => none
  | .endq _ _ _ => none
  | .bar _ => none
  | .bara _ _ => none
  | .barw _ => none
  | .rinit _ _ => none
  | .rpush _ _ _ f => some f
  | .rpop _ _ _ f => some f
  | .rpushT _ _ _ _ f => some f
  | .rpopT _ _ _ f => some f
  | .rstat _ _ _ => none
  | .launch _ _ _ _ f => some f
  | .lcancel _ _ => none
  | .lstat _ _ _ => none
  | .tmma _ _ _ _ _ f => some f
  | .tzero _ _ f => some f
  | .ttrn _ _ _ _ f => some f
  | .tscl _ _ _ f => some f
  | .tlda _ _ _ f => some f
  | .tdrain _ _ _ f => some f
  | .tdrainAdd _ _ _ f => some f
  | .tstat _ _ _ => none
  | .ruleld _ _ _ => none
  | .ruleoff _ _ => none
  | .flushw _ => none
  | .ruleq _ _ _ => none
  | .etail _ _ _ => none
  | .waitseq _ _ => none
  | .seqr _ _ _ => none
  | .coll _ _ => none
  | .commq _ _ _ => none
  | .erid _ _ => none
  | .esig _ _ => none
  | .estat _ _ => none
  | .einj _ _ _ => none
  | .trap _ => none
  | .sread _ _ _ => none
  | .swrite _ _ _ => none
  | .clkr _ _ => none
  | .rand _ _ f => some f
  | .capr _ _ _ => none
  | .slog _ _ _ => none
  | .spdmRequest _ _ => none
  | .linkKeyInstall _ => none
  | .portRetrain _ => none
  | .moduleReset => none
  | .thermalStop => none
  | .asidCreate => none
  | .asidDestroy => none
  | .lhandle => none
  | .map => none
  | .unmap => none
  | .settag => none
  | .acl => none
  | .cred => none
  | .ctxkey => none
  | .pooladd => none
  | .pooldel => none
  | .debugRead => none
  | .debugWrite => none
  | .debugResume => none
  | .dpop => none
  | .yield => none
  | .tret => none
  | .halt => none

/-- A tile instruction that enters the window (R275). -/
def entersWindow : Instr → Bool
  | .clauseHeader _ _ _ _ => false
  | .longLatencyComplete _ _ => false
  | .parkWake _ => false
  | .atomicPerform _ _ => false
  | .barrierWaitEnd _ => false
  | .waitseqObserve _ => false
  | .ringPushAdmit _ _ => false
  | .ringPopTake _ _ => false
  | .tileAllocate _ => false
  | .tileExecute _ => false
  | .flowstoneGroupExecute _ => false
  | .heldRequestAccept _ => false
  | .launchRecordCopy _ _ => false
  | .doorbellWrite _ _ => false
  | .queueEnableWrite _ _ _ _ => false
  | .enqueueVerdict _ => false
  | .launchEligible _ => false
  | .blockPlace _ _ => false
  | .windowStaging _ _ => false
  | .blockRetire _ _ => false
  | .launchComplete _ => false
  | .trapNotice _ => false
  | .damageSnapshot _ => false
  | .gangRelaunch _ _ => false
  | .coreSelfTest _ _ => false
  | .eccCorrect _ _ => false
  | .lateTransitionReplay _ _ => false
  | .preemptRequest _ => false
  | .resumeRequest _ => false
  | .coreSwap _ => false
  | .contextSaveMove _ => false
  | .contextResumeLoad _ _ _ => false
  | .echoCompare _ _ _ => false
  | .onceOpRendezvous _ _ _ => false
  | .echoStraggler _ _ _ => false
  | .reclone _ _ _ => false
  | .engineChunk _ _ _ => false
  | .migr _ => false
  | .hptEpochEnd _ => false
  | .rowHammerThrottle _ _ => false
  | .caParityAlert _ _ => false
  | .collectiveChunk _ => false
  | .flitReceive _ _ _ => false
  | .linkKeyUpdateRequest _ => false
  | .linkKeyStall _ => false
  | .portAttest _ _ _ => false
  | .commTableWrite _ _ => false
  | .registerWrite _ _ => false
  | .vadd _ _ _ _ _ _ => false
  | .vaddsS _ _ _ _ _ _ => false
  | .vaddsZ _ _ _ _ _ _ => false
  | .vsub _ _ _ _ _ _ => false
  | .vsubsS _ _ _ _ _ _ => false
  | .vsubsZ _ _ _ _ _ _ => false
  | .vmul _ _ _ _ _ _ => false
  | .vmulhS _ _ _ _ _ _ => false
  | .vmulhZ _ _ _ _ _ _ => false
  | .vmad _ _ _ _ _ _ => false
  | .vdot4S8 _ _ _ _ _ => false
  | .vand _ _ _ _ _ => false
  | .vor _ _ _ _ _ => false
  | .vxor _ _ _ _ _ => false
  | .vshl _ _ _ _ _ _ => false
  | .vshr _ _ _ _ _ _ => false
  | .vsar _ _ _ _ _ _ => false
  | .vminS _ _ _ _ _ _ => false
  | .vminZ _ _ _ _ _ _ => false
  | .vmaxS _ _ _ _ _ _ => false
  | .vmaxZ _ _ _ _ _ _ => false
  | .vsel _ _ _ _ _ => false
  | .vshufL _ _ _ _ _ => false
  | .vshufE _ _ _ _ _ _ => false
  | .vcmp _ _ _ _ _ _ _ => false
  | .vmovi _ _ _ _ _ => false
  | .vmov _ _ _ _ => false
  | .vnot _ _ _ _ => false
  | .vabs _ _ _ _ _ => false
  | .vclz _ _ _ _ _ => false
  | .vpop _ _ _ _ _ => false
  | .vextS _ _ _ _ _ => false
  | .vextZ _ _ _ _ _ => false
  | .vnar _ _ _ _ _ => false
  | .vnars _ _ _ _ _ => false
  | .vbcast _ _ _ _ => false
  | .vred _ _ _ _ _ _ => false
  | .vscan _ _ _ _ _ _ => false
  | .vfadd _ _ _ _ _ _ => false
  | .vfsub _ _ _ _ _ _ => false
  | .vfmul _ _ _ _ _ _ => false
  | .vfma _ _ _ _ _ _ => false
  | .vfmin _ _ _ _ _ _ => false
  | .vfmax _ _ _ _ _ _ => false
  | .vfcmp _ _ _ _ _ _ _ => false
  | .vfabs _ _ _ _ _ => false
  | .vfneg _ _ _ _ _ => false
  | .vrcp _ _ _ _ _ => false
  | .vrsq _ _ _ _ _ => false
  | .vexp2 _ _ _ _ _ => false
  | .vlog2 _ _ _ _ _ => false
  | .vcvt _ _ _ _ _ => false
  | .vpack6 _ _ _ _ => false
  | .vunpk6 _ _ _ _ => false
  | .vqb4 _ _ _ _ => false
  | .vdqb4 _ _ _ _ => false
  | .vldS8 _ _ _ _ _ _ _ => false
  | .vldZ8 _ _ _ _ _ _ _ => false
  | .vldS16 _ _ _ _ _ _ _ => false
  | .vldZ16 _ _ _ _ _ _ _ => false
  | .vld32 _ _ _ _ _ _ _ => false
  | .vld64 _ _ _ _ _ _ _ => false
  | .vst8 _ _ _ _ _ _ => false
  | .vst16 _ _ _ _ _ _ => false
  | .vst32 _ _ _ _ _ _ => false
  | .vst64 _ _ _ _ _ _ => false
  | .atom _ _ _ _ _ _ _ => false
  | .atomr _ _ _ _ _ _ _ _ => false
  | .atomXadd _ _ _ _ _ => false
  | .xclr _ _ _ _ => false
  | .xrnd _ _ _ _ _ _ => false
  | .gadd _ _ _ _ => false
  | .gaddImm _ _ _ _ => false
  | .gsub _ _ _ _ => false
  | .gmul _ _ _ _ => false
  | .gmulhS _ _ _ _ => false
  | .gmulhZ _ _ _ _ => false
  | .gmad _ _ _ _ => false
  | .gdivS _ _ _ _ => false
  | .gdivZ _ _ _ _ => false
  | .gremS _ _ _ _ => false
  | .gremZ _ _ _ _ => false
  | .gand _ _ _ _ => false
  | .gor _ _ _ _ => false
  | .gxor _ _ _ _ => false
  | .gnot _ _ _ => false
  | .gshl _ _ _ _ => false
  | .gshr _ _ _ _ => false
  | .gsar _ _ _ _ => false
  | .grot _ _ _ _ => false
  | .gminS _ _ _ _ => false
  | .gminZ _ _ _ _ => false
  | .gmaxS _ _ _ _ => false
  | .gmaxZ _ _ _ _ => false
  | .gmov _ _ _ => false
  | .gclz _ _ _ => false
  | .gpop _ _ _ => false
  | .gbfxS _ _ _ _ => false
  | .gbfxZ _ _ _ _ => false
  | .gbfi _ _ _ _ => false
  | .gmovi _ _ _ => false
  | .gmovh _ _ _ => false
  | .glea _ _ _ _ _ => false
  | .gcmp _ _ _ _ _ => false
  | .gsel _ _ _ _ _ => false
  | .grdl _ _ _ _ => false
  | .gwrl _ _ _ _ => false
  | .gbal _ _ _ => false
  | .gpopm _ _ _ => false
  | .gffs _ _ _ => false
  | .bra _ _ _ _ => false
  | .braUncond _ => false
  | .bru _ _ => false
  | .bruz _ _ => false
  | .brx _ => false
  | .call _ _ _ _ => false
  | .callx _ _ _ _ => false
  | .ret _ _ _ => false
  | .jset _ _ _ _ => false
  | .join _ => false
  | .jstat _ _ _ => false
  | .exit _ _ => false
  | .loop _ _ _ => false
  | .loopg _ _ _ => false
  | .lbrk _ _ => false
  | .park _ _ => false
  | .nop _ => false
  | .gld _ _ _ _ _ => false
  | .gst _ _ _ _ => false
  | .ord _ _ _ => false
  | .phrel _ _ => false
  | .phacq _ _ => false
  | .phase _ _ => false
  | .enter _ _ => false
  | .leave _ _ => false
  | .spill _ _ _ => false
  | .fill _ _ _ => false
  | .lgetV _ _ _ => false
  | .lgetG _ _ _ => false
  | .lgetGranule _ _ _ => false
  | .lgetP _ _ _ => false
  | .lsetv _ _ _ => false
  | .lraise _ _ _ => false
  | .lclear _ _ _ => false
  | .ljoin _ _ _ _ => false
  | .ldom _ _ _ _ => false
  | .lown _ _ _ _ => false
  | .dcls _ _ _ _ => false
  | .dclsT _ _ _ _ _ => false
  | .endorse _ _ _ => false
  | .endrev _ _ => false
  | .endq _ _ _ => false
  | .bar _ => false
  | .bara _ _ => false
  | .barw _ => false
  | .rinit _ _ => false
  | .rpush _ _ _ _ => false
  | .rpop _ _ _ _ => false
  | .rpushT _ _ _ _ _ => false
  | .rpopT _ _ _ _ => false
  | .rstat _ _ _ => false
  | .launch _ _ _ _ _ => false
  | .lcancel _ _ => false
  | .lstat _ _ _ => false
  | .tmma _ _ _ _ _ _ => true
  | .tzero _ _ _ => true
  | .ttrn _ _ _ _ _ => true
  | .tscl _ _ _ _ => true
  | .tlda _ _ _ _ => true
  | .tdrain _ _ _ _ => true
  | .tdrainAdd _ _ _ _ => true
  | .tstat _ _ _ => false
  | .ruleld _ _ _ => false
  | .ruleoff _ _ => false
  | .flushw _ => false
  | .ruleq _ _ _ => false
  | .etail _ _ _ => false
  | .waitseq _ _ => false
  | .seqr _ _ _ => false
  | .coll _ _ => false
  | .commq _ _ _ => false
  | .erid _ _ => false
  | .esig _ _ => false
  | .estat _ _ => false
  | .einj _ _ _ => false
  | .trap _ => false
  | .sread _ _ _ => false
  | .swrite _ _ _ => false
  | .clkr _ _ => false
  | .rand _ _ _ => false
  | .capr _ _ _ => false
  | .slog _ _ _ => false
  | .spdmRequest _ _ => false
  | .linkKeyInstall _ => false
  | .portRetrain _ => false
  | .moduleReset => false
  | .thermalStop => false
  | .asidCreate => false
  | .asidDestroy => false
  | .lhandle => false
  | .map => false
  | .unmap => false
  | .settag => false
  | .acl => false
  | .cred => false
  | .ctxkey => false
  | .pooladd => false
  | .pooldel => false
  | .debugRead => false
  | .debugWrite => false
  | .debugResume => false
  | .dpop => false
  | .yield => false
  | .tret => false
  | .halt => false

/-- A flush point within a clause (R277): TSTAT, EXIT, FLUSHW, and every instruction outside the integer, floating,
control and tile classes. -/
def flushPoint : Instr → Bool
  | .clauseHeader _ _ _ _ => false
  | .longLatencyComplete _ _ => false
  | .parkWake _ => false
  | .atomicPerform _ _ => false
  | .barrierWaitEnd _ => false
  | .waitseqObserve _ => false
  | .ringPushAdmit _ _ => false
  | .ringPopTake _ _ => false
  | .tileAllocate _ => false
  | .tileExecute _ => false
  | .flowstoneGroupExecute _ => false
  | .heldRequestAccept _ => false
  | .launchRecordCopy _ _ => false
  | .doorbellWrite _ _ => false
  | .queueEnableWrite _ _ _ _ => false
  | .enqueueVerdict _ => false
  | .launchEligible _ => false
  | .blockPlace _ _ => false
  | .windowStaging _ _ => false
  | .blockRetire _ _ => false
  | .launchComplete _ => false
  | .trapNotice _ => false
  | .damageSnapshot _ => false
  | .gangRelaunch _ _ => false
  | .coreSelfTest _ _ => false
  | .eccCorrect _ _ => false
  | .lateTransitionReplay _ _ => false
  | .preemptRequest _ => false
  | .resumeRequest _ => false
  | .coreSwap _ => false
  | .contextSaveMove _ => false
  | .contextResumeLoad _ _ _ => false
  | .echoCompare _ _ _ => false
  | .onceOpRendezvous _ _ _ => false
  | .echoStraggler _ _ _ => false
  | .reclone _ _ _ => false
  | .engineChunk _ _ _ => false
  | .migr _ => false
  | .hptEpochEnd _ => false
  | .rowHammerThrottle _ _ => false
  | .caParityAlert _ _ => false
  | .collectiveChunk _ => false
  | .flitReceive _ _ _ => false
  | .linkKeyUpdateRequest _ => false
  | .linkKeyStall _ => false
  | .portAttest _ _ _ => false
  | .commTableWrite _ _ => false
  | .registerWrite _ _ => false
  | .vadd _ _ _ _ _ _ => false
  | .vaddsS _ _ _ _ _ _ => false
  | .vaddsZ _ _ _ _ _ _ => false
  | .vsub _ _ _ _ _ _ => false
  | .vsubsS _ _ _ _ _ _ => false
  | .vsubsZ _ _ _ _ _ _ => false
  | .vmul _ _ _ _ _ _ => false
  | .vmulhS _ _ _ _ _ _ => false
  | .vmulhZ _ _ _ _ _ _ => false
  | .vmad _ _ _ _ _ _ => false
  | .vdot4S8 _ _ _ _ _ => false
  | .vand _ _ _ _ _ => false
  | .vor _ _ _ _ _ => false
  | .vxor _ _ _ _ _ => false
  | .vshl _ _ _ _ _ _ => false
  | .vshr _ _ _ _ _ _ => false
  | .vsar _ _ _ _ _ _ => false
  | .vminS _ _ _ _ _ _ => false
  | .vminZ _ _ _ _ _ _ => false
  | .vmaxS _ _ _ _ _ _ => false
  | .vmaxZ _ _ _ _ _ _ => false
  | .vsel _ _ _ _ _ => false
  | .vshufL _ _ _ _ _ => false
  | .vshufE _ _ _ _ _ _ => false
  | .vcmp _ _ _ _ _ _ _ => false
  | .vmovi _ _ _ _ _ => false
  | .vmov _ _ _ _ => false
  | .vnot _ _ _ _ => false
  | .vabs _ _ _ _ _ => false
  | .vclz _ _ _ _ _ => false
  | .vpop _ _ _ _ _ => false
  | .vextS _ _ _ _ _ => false
  | .vextZ _ _ _ _ _ => false
  | .vnar _ _ _ _ _ => false
  | .vnars _ _ _ _ _ => false
  | .vbcast _ _ _ _ => false
  | .vred _ _ _ _ _ _ => false
  | .vscan _ _ _ _ _ _ => false
  | .vfadd _ _ _ _ _ _ => false
  | .vfsub _ _ _ _ _ _ => false
  | .vfmul _ _ _ _ _ _ => false
  | .vfma _ _ _ _ _ _ => false
  | .vfmin _ _ _ _ _ _ => false
  | .vfmax _ _ _ _ _ _ => false
  | .vfcmp _ _ _ _ _ _ _ => false
  | .vfabs _ _ _ _ _ => false
  | .vfneg _ _ _ _ _ => false
  | .vrcp _ _ _ _ _ => false
  | .vrsq _ _ _ _ _ => false
  | .vexp2 _ _ _ _ _ => false
  | .vlog2 _ _ _ _ _ => false
  | .vcvt _ _ _ _ _ => false
  | .vpack6 _ _ _ _ => false
  | .vunpk6 _ _ _ _ => false
  | .vqb4 _ _ _ _ => false
  | .vdqb4 _ _ _ _ => false
  | .vldS8 _ _ _ _ _ _ _ => true
  | .vldZ8 _ _ _ _ _ _ _ => true
  | .vldS16 _ _ _ _ _ _ _ => true
  | .vldZ16 _ _ _ _ _ _ _ => true
  | .vld32 _ _ _ _ _ _ _ => true
  | .vld64 _ _ _ _ _ _ _ => true
  | .vst8 _ _ _ _ _ _ => true
  | .vst16 _ _ _ _ _ _ => true
  | .vst32 _ _ _ _ _ _ => true
  | .vst64 _ _ _ _ _ _ => true
  | .atom _ _ _ _ _ _ _ => true
  | .atomr _ _ _ _ _ _ _ _ => true
  | .atomXadd _ _ _ _ _ => true
  | .xclr _ _ _ _ => true
  | .xrnd _ _ _ _ _ _ => true
  | .gadd _ _ _ _ => false
  | .gaddImm _ _ _ _ => false
  | .gsub _ _ _ _ => false
  | .gmul _ _ _ _ => false
  | .gmulhS _ _ _ _ => false
  | .gmulhZ _ _ _ _ => false
  | .gmad _ _ _ _ => false
  | .gdivS _ _ _ _ => false
  | .gdivZ _ _ _ _ => false
  | .gremS _ _ _ _ => false
  | .gremZ _ _ _ _ => false
  | .gand _ _ _ _ => false
  | .gor _ _ _ _ => false
  | .gxor _ _ _ _ => false
  | .gnot _ _ _ => false
  | .gshl _ _ _ _ => false
  | .gshr _ _ _ _ => false
  | .gsar _ _ _ _ => false
  | .grot _ _ _ _ => false
  | .gminS _ _ _ _ => false
  | .gminZ _ _ _ _ => false
  | .gmaxS _ _ _ _ => false
  | .gmaxZ _ _ _ _ => false
  | .gmov _ _ _ => false
  | .gclz _ _ _ => false
  | .gpop _ _ _ => false
  | .gbfxS _ _ _ _ => false
  | .gbfxZ _ _ _ _ => false
  | .gbfi _ _ _ _ => false
  | .gmovi _ _ _ => false
  | .gmovh _ _ _ => false
  | .glea _ _ _ _ _ => false
  | .gcmp _ _ _ _ _ => false
  | .gsel _ _ _ _ _ => false
  | .grdl _ _ _ _ => false
  | .gwrl _ _ _ _ => false
  | .gbal _ _ _ => false
  | .gpopm _ _ _ => false
  | .gffs _ _ _ => false
  | .bra _ _ _ _ => false
  | .braUncond _ => false
  | .bru _ _ => false
  | .bruz _ _ => false
  | .brx _ => false
  | .call _ _ _ _ => false
  | .callx _ _ _ _ => false
  | .ret _ _ _ => false
  | .jset _ _ _ _ => false
  | .join _ => false
  | .jstat _ _ _ => false
  | .exit _ _ => true
  | .loop _ _ _ => false
  | .loopg _ _ _ => false
  | .lbrk _ _ => false
  | .park _ _ => false
  | .nop _ => false
  | .gld _ _ _ _ _ => true
  | .gst _ _ _ _ => true
  | .ord _ _ _ => true
  | .phrel _ _ => true
  | .phacq _ _ => true
  | .phase _ _ => true
  | .enter _ _ => true
  | .leave _ _ => true
  | .spill _ _ _ => true
  | .fill _ _ _ => true
  | .lgetV _ _ _ => true
  | .lgetG _ _ _ => true
  | .lgetGranule _ _ _ => true
  | .lgetP _ _ _ => true
  | .lsetv _ _ _ => true
  | .lraise _ _ _ => true
  | .lclear _ _ _ => true
  | .ljoin _ _ _ _ => true
  | .ldom _ _ _ _ => true
  | .lown _ _ _ _ => true
  | .dcls _ _ _ _ => true
  | .dclsT _ _ _ _ _ => true
  | .endorse _ _ _ => true
  | .endrev _ _ => true
  | .endq _ _ _ => true
  | .bar _ => true
  | .bara _ _ => true
  | .barw _ => true
  | .rinit _ _ => true
  | .rpush _ _ _ _ => true
  | .rpop _ _ _ _ => true
  | .rpushT _ _ _ _ _ => true
  | .rpopT _ _ _ _ => true
  | .rstat _ _ _ => true
  | .launch _ _ _ _ _ => true
  | .lcancel _ _ => true
  | .lstat _ _ _ => true
  | .tmma _ _ _ _ _ _ => false
  | .tzero _ _ _ => false
  | .ttrn _ _ _ _ _ => false
  | .tscl _ _ _ _ => false
  | .tlda _ _ _ _ => false
  | .tdrain _ _ _ _ => false
  | .tdrainAdd _ _ _ _ => false
  | .tstat _ _ _ => true
  | .ruleld _ _ _ => true
  | .ruleoff _ _ => true
  | .flushw _ => true
  | .ruleq _ _ _ => true
  | .etail _ _ _ => true
  | .waitseq _ _ => true
  | .seqr _ _ _ => true
  | .coll _ _ => true
  | .commq _ _ _ => true
  | .erid _ _ => true
  | .esig _ _ => true
  | .estat _ _ => true
  | .einj _ _ _ => true
  | .trap _ => true
  | .sread _ _ _ => true
  | .swrite _ _ _ => true
  | .clkr _ _ => true
  | .rand _ _ _ => true
  | .capr _ _ _ => true
  | .slog _ _ _ => true
  | .spdmRequest _ _ => false
  | .linkKeyInstall _ => false
  | .portRetrain _ => false
  | .moduleReset => false
  | .thermalStop => false
  | .asidCreate => false
  | .asidDestroy => false
  | .lhandle => false
  | .map => false
  | .unmap => false
  | .settag => false
  | .acl => false
  | .cred => false
  | .ctxkey => false
  | .pooladd => false
  | .pooldel => false
  | .debugRead => false
  | .debugWrite => false
  | .debugResume => false
  | .dpop => false
  | .yield => false
  | .tret => true
  | .halt => true

/-- A warp-wide instruction: it issues only when every non-exited lane is in its group (R80, R257, R325 and the
entries). -/
def warpWide : Instr → Bool
  | .clauseHeader _ _ _ _ => false
  | .longLatencyComplete _ _ => false
  | .parkWake _ => false
  | .atomicPerform _ _ => false
  | .barrierWaitEnd _ => false
  | .waitseqObserve _ => false
  | .ringPushAdmit _ _ => false
  | .ringPopTake _ _ => false
  | .tileAllocate _ => false
  | .tileExecute _ => false
  | .flowstoneGroupExecute _ => false
  | .heldRequestAccept _ => false
  | .launchRecordCopy _ _ => false
  | .doorbellWrite _ _ => false
  | .queueEnableWrite _ _ _ _ => false
  | .enqueueVerdict _ => false
  | .launchEligible _ => false
  | .blockPlace _ _ => false
  | .windowStaging _ _ => false
  | .blockRetire _ _ => false
  | .launchComplete _ => false
  | .trapNotice _ => false
  | .damageSnapshot _ => false
  | .gangRelaunch _ _ => false
  | .coreSelfTest _ _ => false
  | .eccCorrect _ _ => false
  | .lateTransitionReplay _ _ => false
  | .preemptRequest _ => false
  | .resumeRequest _ => false
  | .coreSwap _ => false
  | .contextSaveMove _ => false
  | .contextResumeLoad _ _ _ => false
  | .echoCompare _ _ _ => false
  | .onceOpRendezvous _ _ _ => false
  | .echoStraggler _ _ _ => false
  | .reclone _ _ _ => false
  | .engineChunk _ _ _ => false
  | .migr _ => false
  | .hptEpochEnd _ => false
  | .rowHammerThrottle _ _ => false
  | .caParityAlert _ _ => false
  | .collectiveChunk _ => false
  | .flitReceive _ _ _ => false
  | .linkKeyUpdateRequest _ => false
  | .linkKeyStall _ => false
  | .portAttest _ _ _ => false
  | .commTableWrite _ _ => false
  | .registerWrite _ _ => false
  | .vadd _ _ _ _ _ _ => false
  | .vaddsS _ _ _ _ _ _ => false
  | .vaddsZ _ _ _ _ _ _ => false
  | .vsub _ _ _ _ _ _ => false
  | .vsubsS _ _ _ _ _ _ => false
  | .vsubsZ _ _ _ _ _ _ => false
  | .vmul _ _ _ _ _ _ => false
  | .vmulhS _ _ _ _ _ _ => false
  | .vmulhZ _ _ _ _ _ _ => false
  | .vmad _ _ _ _ _ _ => false
  | .vdot4S8 _ _ _ _ _ => false
  | .vand _ _ _ _ _ => false
  | .vor _ _ _ _ _ => false
  | .vxor _ _ _ _ _ => false
  | .vshl _ _ _ _ _ _ => false
  | .vshr _ _ _ _ _ _ => false
  | .vsar _ _ _ _ _ _ => false
  | .vminS _ _ _ _ _ _ => false
  | .vminZ _ _ _ _ _ _ => false
  | .vmaxS _ _ _ _ _ _ => false
  | .vmaxZ _ _ _ _ _ _ => false
  | .vsel _ _ _ _ _ => false
  | .vshufL _ _ _ _ _ => true
  | .vshufE _ _ _ _ _ _ => false
  | .vcmp _ _ _ _ _ _ _ => false
  | .vmovi _ _ _ _ _ => false
  | .vmov _ _ _ _ => false
  | .vnot _ _ _ _ => false
  | .vabs _ _ _ _ _ => false
  | .vclz _ _ _ _ _ => false
  | .vpop _ _ _ _ _ => false
  | .vextS _ _ _ _ _ => false
  | .vextZ _ _ _ _ _ => false
  | .vnar _ _ _ _ _ => false
  | .vnars _ _ _ _ _ => false
  | .vbcast _ _ _ _ => false
  | .vred _ _ _ _ _ _ => true
  | .vscan _ _ _ _ _ _ => true
  | .vfadd _ _ _ _ _ _ => false
  | .vfsub _ _ _ _ _ _ => false
  | .vfmul _ _ _ _ _ _ => false
  | .vfma _ _ _ _ _ _ => false
  | .vfmin _ _ _ _ _ _ => false
  | .vfmax _ _ _ _ _ _ => false
  | .vfcmp _ _ _ _ _ _ _ => false
  | .vfabs _ _ _ _ _ => false
  | .vfneg _ _ _ _ _ => false
  | .vrcp _ _ _ _ _ => false
  | .vrsq _ _ _ _ _ => false
  | .vexp2 _ _ _ _ _ => false
  | .vlog2 _ _ _ _ _ => false
  | .vcvt _ _ _ _ _ => false
  | .vpack6 _ _ _ _ => false
  | .vunpk6 _ _ _ _ => false
  | .vqb4 _ _ _ _ => false
  | .vdqb4 _ _ _ _ => false
  | .vldS8 _ _ _ _ _ _ _ => false
  | .vldZ8 _ _ _ _ _ _ _ => false
  | .vldS16 _ _ _ _ _ _ _ => false
  | .vldZ16 _ _ _ _ _ _ _ => false
  | .vld32 _ _ _ _ _ _ _ => false
  | .vld64 _ _ _ _ _ _ _ => false
  | .vst8 _ _ _ _ _ _ => false
  | .vst16 _ _ _ _ _ _ => false
  | .vst32 _ _ _ _ _ _ => false
  | .vst64 _ _ _ _ _ _ => false
  | .atom _ _ _ _ _ _ _ => false
  | .atomr _ _ _ _ _ _ _ _ => false
  | .atomXadd _ _ _ _ _ => false
  | .xclr _ _ _ _ => false
  | .xrnd _ _ _ _ _ _ => false
  | .gadd _ _ _ _ => false
  | .gaddImm _ _ _ _ => false
  | .gsub _ _ _ _ => false
  | .gmul _ _ _ _ => false
  | .gmulhS _ _ _ _ => false
  | .gmulhZ _ _ _ _ => false
  | .gmad _ _ _ _ => false
  | .gdivS _ _ _ _ => false
  | .gdivZ _ _ _ _ => false
  | .gremS _ _ _ _ => false
  | .gremZ _ _ _ _ => false
  | .gand _ _ _ _ => false
  | .gor _ _ _ _ => false
  | .gxor _ _ _ _ => false
  | .gnot _ _ _ => false
  | .gshl _ _ _ _ => false
  | .gshr _ _ _ _ => false
  | .gsar _ _ _ _ => false
  | .grot _ _ _ _ => false
  | .gminS _ _ _ _ => false
  | .gminZ _ _ _ _ => false
  | .gmaxS _ _ _ _ => false
  | .gmaxZ _ _ _ _ => false
  | .gmov _ _ _ => false
  | .gclz _ _ _ => false
  | .gpop _ _ _ => false
  | .gbfxS _ _ _ _ => false
  | .gbfxZ _ _ _ _ => false
  | .gbfi _ _ _ _ => false
  | .gmovi _ _ _ => false
  | .gmovh _ _ _ => false
  | .glea _ _ _ _ _ => false
  | .gcmp _ _ _ _ _ => false
  | .gsel _ _ _ _ _ => false
  | .grdl _ _ _ _ => true
  | .gwrl _ _ _ _ => false
  | .gbal _ _ _ => true
  | .gpopm _ _ _ => false
  | .gffs _ _ _ => false
  | .bra _ _ _ _ => false
  | .braUncond _ => false
  | .bru _ _ => false
  | .bruz _ _ => false
  | .brx _ => false
  | .call _ _ _ _ => false
  | .callx _ _ _ _ => false
  | .ret _ _ _ => false
  | .jset _ _ _ _ => false
  | .join _ => false
  | .jstat _ _ _ => false
  | .exit _ _ => false
  | .loop _ _ _ => false
  | .loopg _ _ _ => false
  | .lbrk _ _ => false
  | .park _ _ => false
  | .nop _ => false
  | .gld _ _ _ _ _ => false
  | .gst _ _ _ _ => false
  | .ord _ _ _ => false
  | .phrel _ _ => false
  | .phacq _ _ => false
  | .phase _ _ => false
  | .enter _ _ => false
  | .leave _ _ => false
  | .spill _ _ _ => false
  | .fill _ _ _ => false
  | .lgetV _ _ _ => false
  | .lgetG _ _ _ => false
  | .lgetGranule _ _ _ => false
  | .lgetP _ _ _ => false
  | .lsetv _ _ _ => false
  | .lraise _ _ _ => false
  | .lclear _ _ _ => false
  | .ljoin _ _ _ _ => false
  | .ldom _ _ _ _ => false
  | .lown _ _ _ _ => false
  | .dcls _ _ _ _ => false
  | .dclsT _ _ _ _ _ => false
  | .endorse _ _ _ => false
  | .endrev _ _ => false
  | .endq _ _ _ => false
  | .bar _ => true
  | .bara _ _ => true
  | .barw _ => true
  | .rinit _ _ => false
  | .rpush _ _ _ _ => false
  | .rpop _ _ _ _ => false
  | .rpushT _ _ _ _ _ => false
  | .rpopT _ _ _ _ => false
  | .rstat _ _ _ => false
  | .launch _ _ _ _ _ => false
  | .lcancel _ _ => false
  | .lstat _ _ _ => false
  | .tmma _ _ _ _ _ _ => true
  | .tzero _ _ _ => true
  | .ttrn _ _ _ _ _ => true
  | .tscl _ _ _ _ => true
  | .tlda _ _ _ _ => true
  | .tdrain _ _ _ _ => true
  | .tdrainAdd _ _ _ _ => true
  | .tstat _ _ _ => true
  | .ruleld _ _ _ => false
  | .ruleoff _ _ => false
  | .flushw _ => false
  | .ruleq _ _ _ => false
  | .etail _ _ _ => true
  | .waitseq _ _ => true
  | .seqr _ _ _ => true
  | .coll _ _ => true
  | .commq _ _ _ => true
  | .erid _ _ => false
  | .esig _ _ => false
  | .estat _ _ => false
  | .einj _ _ _ => false
  | .trap _ => false
  | .sread _ _ _ => false
  | .swrite _ _ _ => false
  | .clkr _ _ => false
  | .rand _ _ _ => false
  | .capr _ _ _ => false
  | .slog _ _ _ => false
  | .spdmRequest _ _ => false
  | .linkKeyInstall _ => false
  | .portRetrain _ => false
  | .moduleReset => false
  | .thermalStop => false
  | .asidCreate => false
  | .asidDestroy => false
  | .lhandle => false
  | .map => false
  | .unmap => false
  | .settag => false
  | .acl => false
  | .cred => false
  | .ctxkey => false
  | .pooladd => false
  | .pooldel => false
  | .debugRead => false
  | .debugWrite => false
  | .debugResume => false
  | .dpop => false
  | .yield => false
  | .tret => false
  | .halt => false

end Sys2Proof.Machine
end

