-- ==== Sys2Proof/Machine/Issue.lean ====
section
/-! DEFINITION. Issuing: which lane group a warp runs (R45), how a clause is decoded (R26), starts, ends (R147, R151),
and what happens around the body of every instruction (R29, R358, R369). -/
namespace Sys2Proof.Machine

/-! ## Lane groups (R45) -/

/-- Lanes that PARK holds (R153): a woken group stays here until its wake is served. -/
def Warp.parkedLanes (w : Warp) : Mask := w.parked.foldl (fun m p => m ||| p.lanes) 0

/-- Lanes that have arrived at an armed rejoin register (R147). -/
def Warp.arrivedLanes (w : Warp) : Mask := w.j.foldl (fun m p => if p.2.armed then m ||| p.2.arrived else m) 0

/-- The lanes that have not executed EXIT. -/
def Warp.live (w : Warp) : Mask := ~~~w.exited

/-- A parked group that a write has woken. -/
def Parked.wakes (p : Parked) : Bool := p.woken && p.lanes != 0

/-- The eligible lanes (R45): not exited, not parked; in handler mode only the trapping group's (R364). -/
def Warp.eligible (w : Warp) : Mask :=
  let m := ~~~w.exited &&& ~~~w.parkedLanes &&& ~~~w.arrivedLanes
  match w.handler with
  | some h => m &&& h.grp
  | none => m

/-- The PC of a lane. -/
def Warp.pcOf (w : Warp) (l : Nat) : Word := aget 0 w.pc l

/-- The lowest PC among some lanes. -/
def lowestPc (w : Warp) : List Nat → Option Word
  | [] => none
  | l :: t => match lowestPc w t with
    | none => some (w.pcOf l)
    | some p => some (if (w.pcOf l).toNat ≤ p.toNat then w.pcOf l else p)

/-- The lanes of a mask whose PC is `p`. -/
def lanesAt (w : Warp) (m : Mask) (p : Word) : Mask := maskOf ((lanesOf m).filter fun l => w.pcOf l == p)

/-- The lane group the warp issues next, with its PC (R45). -/
def Warp.group (w : Warp) : Option (Word × Mask) :=
  (lowestPc w (lanesOf w.eligible)).map fun p =>
    let at_ := lanesAt w w.eligible p
    (p, if at_ &&& ~~~w.yielded = 0 then at_ else at_ &&& ~~~w.yielded)

/-- The lane group of the clause that the warp would start next: when every lane of it is parked, that of the parked ones. -/
def Warp.nextGroup (w : Warp) : Word × Mask :=
  match w.group with
  | some g => g
  | none => ({ w with parked := [] } : Warp).group.getD (0, 0)

/-! ## Decoding a clause (R23 to R26, R143) -/

/-- A decoded clause: wait mask, flag selects, safe point, live descriptor, instructions with their addresses, the
address after its last word, and its words from the header on. -/
structure Clause where
  wait : BitVec 12
  setA : Nat
  setB : Nat
  safe : Bool
  desc : BitVec 32
  instrs : List (Word × Instr)
  next : Word
  words : List (BitVec 32)
  deriving DecidableEq, Repr

/-- The `n` words of code from an address on. -/
def wordsFrom (s : State) (asid : Nat) (a : Word) (n : Nat) : List (BitVec 32) :=
  (List.range n).map fun i => (fetchWord s asid (a + wd (4 * i))).getD 0

/-- A malformed or unmapped clause: the code and the first offending word's address (R26, R143). -/
abbrev ClauseErr := Nat × Word

/-- The selected flag of a long-latency instruction, 15 for none (R27). -/
def selected (setA setB : Nat) (f : BitVec 1) : Nat := if f = 0#1 then setA else setB

/-- The instructions of a clause from an address on; `fuel` is how many may still follow (R25). -/
def decodeBody (s : State) (asid setA setB : Nat) : Nat → Word → Except ClauseErr (List (Word × Instr) × Word)
  | 0, a => match fetchWord s asid a with
    | none => .error (0x02, a)
    | some _ => .error (0x01, a)
  | fuel + 1, a =>
    match fetchWord s asid a with
    | none => .error (0x02, a)
    | some w =>
      match decode w with
      | none => .error (0x01, a)
      | some (.clauseHeader _ _ _ _) => .error (0x01, a)
      | some i =>
        let bad := match flagSelect i with
          | some f => selected setA setB f == 15
          | none => false
        if bad then .error (0x01, a)
        else if boundary i then .ok ([(a, i)], a + 4)
        else match decodeBody s asid setA setB fuel (a + 4) with
          | .ok (is, n) => .ok ((a, i) :: is, n)
          | .error e => .error e

/-- A live descriptor's counts are at most 64 (R24). -/
def descOk (d : BitVec 32) : Bool := decide ((field d 25 7).toNat ≤ 64) && decide ((field d 18 7).toNat ≤ 64)

/-- The clause whose header, with these fields, stands at `a`, decoded whole (R26); every word must lie on a code page
(R143).  What runs is what was decoded: its words are kept with it. -/
def decodeFrom (s : State) (asid : Nat) (a : Word) (wait : BitVec 12) (sa sb : BitVec 4) (sf : BitVec 1) :
    Except ClauseErr Clause :=
  if sf = 1#1 then
    match fetchWord s asid (a + 4) with
    | none => .error (0x02, a + 4)
    | some d =>
      if descOk d then
        match decodeBody s asid sa.toNat sb.toNat 24 (a + 8) with
        | .ok (is, n) => .ok ⟨wait, sa.toNat, sb.toNat, true, d, is, n, wordsFrom s asid a (is.length + 2)⟩
        | .error e => .error e
      else .error (0x01, a + 4)
  else
    match decodeBody s asid sa.toNat sb.toNat 24 (a + 4) with
    | .ok (is, n) => .ok ⟨wait, sa.toNat, sb.toNat, false, 0, is, n, wordsFrom s asid a (is.length + 1)⟩
    | .error e => .error e

/-- The clause at an address (R26): its first word must be a header on a code page. -/
def decodeClause (s : State) (asid : Nat) (a : Word) : Except ClauseErr Clause :=
  match fetchWord s asid a with
  | none => .error (0x02, a)
  | some h =>
    match decode h with
    | some (.clauseHeader wait sa sb sf) => decodeFrom s asid a wait sa sb sf
    | _ => .error (0x01, a)

/-- The address of a clause's first instruction. -/
def Clause.first (c : Clause) (hdr : Word) : Word := if c.safe then hdr + 8 else hdr + 4

/-- The word at an address is a safe-point header (R22, R143). -/
def safeHeader (s : State) (asid : Nat) (a : Word) : Bool :=
  match (fetchWord s asid a).bind decode with
  | some (.clauseHeader _ _ _ sf) => sf == 1#1
  | _ => false

/-- The checks of R143 on the targets of a taken transfer, given as lane masks and targets: a computed target is aligned
and within 52 bits; its page is mapped as code; a target at or below the transfer word is a safe-point header.  The
trap reports the lanes that fail the first check that fails. -/
def checkTargets (x : Ctx) (s : State) (computed : Bool) (ts : List (Mask × Word)) : Except Stop Unit :=
  let fails (f : Word → Bool) : List (Mask × Word) := ts.filter fun p => p.1 != 0 && f p.2
  let union (ps : List (Mask × Word)) : Mask := ps.foldl (fun m p => m ||| p.1) 0
  match fails (fun t => computed && (bits t 0 2 != 0 || bits t 52 12 != 0)) with
  | p :: r => x.trap s 0x0B (union (p :: r)) p.2 0
  | [] =>
    match fails fun t => (fetchWord s x.asid t).isNone with
    | p :: r => x.trap s 0x02 (union (p :: r)) p.2 0
    | [] =>
      match fails fun t => decide (t.toNat ≤ x.pc.toNat) && !safeHeader s x.asid t with
      | p :: r => x.trap s 0x02 (union (p :: r)) (if computed then p.2 else 0) 0
      | [] => .ok ()

/-! ## Hardware loops (R150, R151) -/

/-- Loop counter `k`. -/
def Warp.loop (w : Warp) (k : Nat) : LoopCtr := aget LoopCtr.clear w.lc k

/-- The active loop that ends at `e` and started last (R151). -/
def innermost (w : Warp) (e : Word) : Option Nat :=
  ((List.range 3).filter fun k => (w.loop k).active && (w.loop k).last == e).foldl (fun b k =>
    match b with
    | none => some k
    | some j => if (w.loop j).order < (w.loop k).order then some k else b) none

/-- A loop counter replaced. -/
def Warp.setLoop (w : Warp) (k : Nat) (c : LoopCtr) : Warp := { w with lc := aset LoopCtr.clear w.lc k c }

/-- The step of the loops that end at `e` (R151): the warp, and where control goes. -/
def loopStep (e : Word) : Nat → Warp → Warp × Word
  | 0, w => (w, e + 4)
  | fuel + 1, w =>
    match innermost w e with
    | none => (w, e + 4)
    | some k =>
      let c := w.loop k
      if 1 < c.count then (w.setLoop k { c with count := c.count - 1 }, c.first)
      else loopStep e fuel (w.setLoop k { c with count := 0, active := false })

/-! ## Rejoin registers (R145, R147) -/

/-- Rejoin register `k`. -/
def Warp.rejoin (w : Warp) (k : Nat) : JReg := aget JReg.clear w.j k

/-- A rejoin register replaced. -/
def Warp.setRejoin (w : Warp) (k : Nat) (r : JReg) : Warp := { w with j := aset JReg.clear w.j k r }

/-- The release of rejoin register `k` (R147): its arrived lanes that have not exited go to the clause after JOIN's. -/
def release (w : Warp) (k : Nat) (lost full : Bool) : Warp :=
  let r := w.rejoin k
  let w := w.setRejoin k { r with
    armed := false, arrived := 0, lost := lost, xit := (r.expect &&& w.exited) != 0 }
  { w with
    pc := setPcs w.pc (r.arrived &&& ~~~w.exited) r.next
    wcl := if full then r.outer else w.wcl }

/-- The evaluation of one rejoin register (R147), its conditions tested in order: a missing lane that is not eligible (R45,
R364), or that has not passed the target, may still arrive. -/
def evalRejoin (w : Warp) (k : Nat) : Warp :=
  let r := w.rejoin k
  if !r.armed then w
  else
    let missing := r.expect &&& ~~~r.arrived &&& ~~~w.exited
    if missing &&& ~~~w.eligible ≠ 0 || (lanesOf missing).any (fun l => decide ((w.pcOf l).toNat ≤ r.target.toNat)) then w
    else if missing = 0 then release w k false (r.expect &&& w.exited == 0)
    else release w k true false

/-- The armed rejoin registers, deepest region first. -/
def byDepth (w : Warp) : List Nat :=
  (List.range 8).reverse.flatMap fun d => (List.range 8).filter fun k =>
    (w.rejoin k).armed && (w.rejoin k).depth == d + 1

/-- Every rejoin register evaluated, inner regions first (R147). -/
def evalRejoins (w : Warp) : Warp := (byDepth w).foldl evalRejoin w

/-! ## The end of an instruction and of a clause -/

/-- The end of the running clause: yield marks clear but for those this run set (R45), control falls through or steps a loop unless the
instruction moved its lanes itself (R151), and the rejoin registers are evaluated (R147). -/
def endClause (s : State) (k : Nat) (moved : Bool) : State :=
  s.modWarp k fun w =>
    match w.run with
    | none => w
    | some r =>
      let w := { w with run := none, yielded := w.yieldNew &&& ~~~w.exited, yieldNew := 0 }
      let w := if moved then w
        else
          let p := loopStep r.pos 4 w
          { p.1 with pc := setPcs p.1.pc (r.grp &&& ~~~p.1.exited) p.2 }
      evalRejoins w

/-- The next instruction of the running clause. -/
def advance (s : State) (k : Nat) : State :=
  s.modWarp k fun w => { w with run := w.run.map fun r => { r with pos := r.pos + 4 } }

/-! ## Checks on the registers an instruction names -/

/-- The registers a pending operation will write: V r as r, G r as 64 + r (R29). -/
def workDest : Work → List Nat
  | .load r _ _ _ => [r]
  | .gload r _ => [64 + r]
  | .special r => [r]
  | .atomic (some r) _ _ _ => [r]
  | .atomic none _ _ _ => []
  | .xrnd r _ => [r]
  | .push (some r) _ => [64 + r]
  | .push none _ => []
  | .pop r true _ => [64 + r, 64 + r + 1]
  | .pop r false _ => [64 + r]
  | .launch r _ _ _ => [64 + r]
  | .rand r => [64 + r]
  | .tile _ => []
  | .etail _ => []

/-- The V and G registers an instruction reads, named as in workDest. -/
def Uses.reads (u : Uses) : List Nat := u.rv ++ u.rg.map (64 + ·)
/-- The V and G registers an instruction writes. -/
def Uses.writes (u : Uses) : List Nat := u.wv ++ u.wg.map (64 + ·)

/-- An instruction names a register that a pending operation will write (R29). -/
def hazard (w : Warp) (u : Uses) : Bool :=
  w.pend.any fun p => (workDest p.work).any fun d => u.reads.contains d || u.writes.contains d

/-- The first mark whose instruction's destination the instruction reads (R358). -/
def markedRead (w : Warp) (u : Uses) : Option FlagMark :=
  w.marks.find? fun m => (workDest m.op.work).any fun d => u.reads.contains d

/-- The trap of a mark (R30, R357, R358) at POINT 2: the frame names the recorded instruction, the labels it captured
join the frame label (R362), and resuming issues it again. -/
def markTrap (x : Ctx) (m : FlagMark) (rword : Nat) : Trap :=
  { x.mkTrap m.code with
    point := 2
    pc := m.op.pc
    addr := m.addr, aux := m.aux, srcl := m.srcl, dstl := m.dstl
    word := m.op.word
    rword := rword, rule := m.op.rule
    tfl := joinAll [x.w.wcl, readLabels x.w.regs x.uses x.grp, m.op.cap]
    again := [m.op] }

/-- The trap of a mark at an EXIT, POINT 3 (R357, R358): the frame names the EXIT, and resuming executes it. -/
def exitTrap (x : Ctx) (m : FlagMark) : Trap :=
  { x.mkTrap m.code with
    point := 3, addr := m.addr, aux := m.aux, srcl := m.srcl, dstl := m.dstl, rule := m.op.rule }

/-- A state in which a warp's first mark equal to `m` is consumed (R30). -/
def consumeMark (s : State) (k : Nat) (m : FlagMark) : State :=
  s.modWarp k fun w => { w with marks := w.marks.erase m }

/-- The lanes in which an instruction reads a V register, `act` being those of its per-lane sources. -/
def Uses.lanesRead (u : Uses) (act : Mask) (r : Nat) : Mask := (kget u.cross r).getD act

/-- The damaged source words of an instruction, as lane (32 for none) and register number (R361, R369). -/
def damagedReads (q : WRegs) (u : Uses) (act : Mask) : List (Nat × Nat) :=
  if q.dmg.isEmpty then []
  else (u.rg.filter (q.dmg.contains <| dmgKeyG ·)).map (32, ·) ++
    (u.rp.filter (q.dmg.contains <| dmgKeyP ·)).map (32, ·) ++
    (u.rm.filter (q.dmg.contains <| dmgKeyM ·)).map (32, ·) ++
    u.rv.flatMap fun r => ((lanesOf (u.lanesRead act r)).filter (q.dmg.contains <| dmgKeyV r ·)).map (·, r)

/-- The address that every trap at an instruction reports whatever its code (R361): WAITSEQ's completion word; and the halted
entry or command behind that word. -/
def Ctx.seqAddr (x : Ctx) (s : State) : Word × Word :=
  match decode x.word with
  | some (.waitseq a _) =>
    let ga := x.w.regs.getG a.toNat
    (ga, match galPa x s ga.toNat 8 false with
      | some pa => wd (aget (0, none) s.haltAt pa).1
      | none => 0)
  | _ => (0, 0)

/-- The checks on the registers an instruction names: pending (R29), marked (R358) and damaged (R369) ones; an instruction
that meets several is taken at the first (log entry 10). -/
def checkRegs (x : Ctx) (s : State) (act : Mask) : Except Stop Unit :=
  if hazard x.w x.uses then x.trap s 0x02 x.grp (x.seqAddr s).1 (x.seqAddr s).2
  else match markedRead x.w x.uses with
    | some m =>
      .error (.trap (markTrap x m ((x.pc - x.run.hdr).toNat / 4)) (consumeMark s x.wk m))
    | none =>
      match damagedReads x.w.regs x.uses act with
      | [] => .ok ()
      | (l, r) :: t =>
        let ls := ((l, r) :: t).filterMap fun p => if p.1 < 32 && p.2 == r then some p.1 else none
        x.trap s 0x0D (if l = 32 then x.grp else maskOf ls) (x.seqAddr s).1 (wd (r * 256))

/-- The check of R143 on the back edge that a clause's last word would take. -/
def checkBackEdge (x : Ctx) (s : State) : Except Stop Unit :=
  let t := (loopStep x.pc 4 x.w).2
  if t = x.pc + 4 then .ok () else checkTargets x s false [(x.grp, t)]

/-- The check of a warp-wide instruction (R80): every non-exited lane is in the issuing group. -/
def checkWide (x : Ctx) (s : State) : Except Stop Unit :=
  if x.w.live &&& ~~~x.grp = 0 then .ok () else x.trapG s 0x02

/-! ## Issue -/

/-- The warp State.cur names, while one of its clauses runs, with the word at its place (R46). -/
def issuerOf (s : State) : Option Ctx :=
  match s.warp s.cur with
  | none => none
  | some w =>
    match w.run with
    | none => none
    | some r =>
      (ctxOf s s.cur r 0).map fun x => { x with word := (r.wordAt r.pos).getD 0 }

/-- The body of an instruction: from its context and the state to the state after its effect. -/
abbrev Body := Ctx → State → Except Stop State

/-- What an instruction leaves behind once it has executed: an ORD prefix before it is used up (R200), and its Echo
events are over. -/
def clearOrd (s : State) (k : Nat) (had : Bool) : State :=
  s.modWarp k fun w => { w with ord := if had then none else w.ord, passed := [] }

/-- The outcome of a body: the next state, a trap taken, a wait, or a fault. -/
def settle (k : Nat) : Except Stop State → Host.Outcome State Fault Refusal
  | .ok s => .next s
  | .error (.trap t s) => .next (takeTrap s k t)
  | .error (.stall s) => .next s
  | .error (.fault f) => .fault f

/-- The state in which an instruction issues: a flush point flushes the window first (R277). -/
def preIssue (i : Instr) (s : State) : State := if flushPoint i then flushWindow s s.cur else s

/-- The checks before an instruction's body, in this order (log entry 10): its registers, the lanes of a warp-wide one (R80),
the back edge it would take. -/
def issueChecks (i : Instr) (act : Mask) (moved : Bool) (x : Ctx) (s : State) : Except Stop Unit := do
  checkRegs x s act
  if warpWide i then checkWide x s
  if boundary i && !moved then checkBackEdge x s

/-- The checks and the body of an instruction, with the context it issued in. -/
def runBody (i : Instr) (u : Uses) (act : Mask) (moved : Bool) (body : Body) (s : State) : Except Stop (Ctx × State) :=
  match issuerOf s with
  | none => .error (.fault .noIssuer)
  | some x => do
    issueChecks i act moved { x with uses := u } s
    let s' ← body { x with uses := u } s
    .ok (x, s')

/-- An instruction that has executed: what it leaves behind, and the warp's next place (R25, R200). -/
def finish (i : Instr) (moved : Bool) (x : Ctx) (s : State) : State :=
  let s := if x.w.ord.isSome || x.replicated then clearOrd s x.wk x.w.ord.isSome else s
  if boundary i then endClause s x.wk moved else advance s x.wk

/-- ISSUING an instruction (R28, R46): flush points (R277), the checks on its registers, its body, and the place after
it.  `act` are the lanes that read per-lane sources; `moved` says that the instruction sets its lanes' PCs itself. -/
def issueWith (i : Instr) (u : Uses) (act : Mask) (moved : Bool) (body : Body) (s : State) :
    Host.Outcome State Fault Refusal :=
  settle s.cur ((runBody i u act moved body (preIssue i s)).map fun r => finish i moved r.1 r.2)

/-- The lanes of the issuing group whose guard P[g] is true (R15), at the state an instruction issues in. -/
def guardLanes (s : State) (g : Nat) : Mask :=
  match issuerOf s with
  | none => 0
  | some x => x.grp &&& x.w.regs.getP g

/-- The lanes of the issuing group. -/
def groupLanes (s : State) : Mask :=
  match issuerOf s with
  | none => 0
  | some x => x.grp

/-- Issue of an instruction that keeps its place in the stream. -/
def issue (i : Instr) (u : Uses) (act : Mask) (body : Body) (s : State) : Host.Outcome State Fault Refusal :=
  issueWith i u act false body s

/-- Issue of a control instruction that sets its lanes' PCs itself. -/
def issueMove (i : Instr) (u : Uses) (act : Mask) (body : Body) (s : State) : Host.Outcome State Fault Refusal :=
  issueWith i u act true body s

/-! ## Writing results -/

/-- The results of lanes written to V[d], their labels bound (R77, R79): LABEL-EXHAUSTED when one cannot be. -/
def writeV (x : Ctx) (s : State) (d : Nat) (rs : List (Nat × Word × Label)) : Except Stop State :=
  let bad := rs.filter fun r => decide (Config.maxOwners < r.2.2.length)
  if bad.isEmpty then
    match bindLabels s x.asid (rs.map (·.2.2)) with
    | none => x.trapG s 0x07
    | some s => .ok (s.modWarp x.wk fun w =>
        { w with regs := rs.foldl (fun q r => q.setV d r.1 r.2.1 r.2.2) w.regs })
  else x.trap s 0x07 (maskOf (bad.map (·.1))) 0 0

/-- A result written to G[d] with its label bound (R78, R79); a trap reports the instruction's address operand (R361). -/
def writeGAt (x : Ctx) (s : State) (addr : Word) (d : Nat) (v : Word) (l : Label) : Except Stop State :=
  match bindLabel s x.asid l with
  | none => x.trap s 0x07 x.grp addr 0
  | some s => .ok (s.modWarp x.wk fun w => { w with regs := w.regs.setG d v l })

/-- A result written to G[d] by an instruction without an address operand. -/
def writeG (x : Ctx) (s : State) (d : Nat) (v : Word) (l : Label) : Except Stop State := writeGAt x s 0 d v l

/-- Predicate results of lanes written to P[d] (R105).  With d = 7 the write is discarded, but the labels are formed and bound all
the same: a label over eight owners, or a full table, still traps (log entry 10). -/
def writeP (x : Ctx) (s : State) (d : Nat) (rs : List (Nat × Bool × Label)) : Except Stop State :=
  let bad := rs.filter fun r => decide (Config.maxOwners < r.2.2.length)
  if bad.isEmpty then
    match bindLabels s x.asid (rs.map (·.2.2)) with
    | none => x.trapG s 0x07
    | some s => .ok (s.modWarp x.wk fun w =>
        { w with regs := rs.foldl (fun q r => q.setP d r.1 r.2.1 r.2.2) w.regs })
  else x.trap s 0x07 (maskOf (bad.map (·.1))) 0 0

/-- A lane mask written to M[d] with its label bound (R95). -/
def writeM (x : Ctx) (s : State) (d : Nat) (v : Mask) (l : Label) : Except Stop State :=
  match bindLabel s x.asid l with
  | none => x.trapG s 0x07
  | some s => .ok (s.modWarp x.wk fun w => { w with regs := w.regs.setM d v l })

end Sys2Proof.Machine
end

