-- ==== Sys2Proof/Machine/EchoSig.lean ====
section
/-! DEFINITION. Echo's signatures and waits (R332 to R345): record images, hashes, and how a replica's instruction waits
for Echo's answer. -/
namespace Sys2Proof.Machine

/-- mix64 (R338). -/
def mix64 (x : Word) : Word :=
  let x := x ^^^ (x >>> 29)
  let x := x * 0x8D4C3A21F5B69E17#64
  let x := x ^^^ (x >>> 32)
  let x := x * 0xE35B0C712A9D48C5#64
  x ^^^ (x >>> 31)

/-- The record hash (R338). -/
def rhash : List Word → Word
  | [] => 0
  | d :: t => t.foldl (fun h x => mix64 (h ^^^ x)) (mix64 d)

/-- A signature: SUM, XF and COUNT (R339). -/
abbrev Sig := Nat × Nat × Nat

/-- The eight dwords of 64 bytes. -/
def dwords8 (d : BitVec 512) : List Word := (List.range 8).map fun i => d.extractLsb' (64 * i) 64

/-- A list of dwords filled with zeros to eight. -/
def pad8 (ds : List Word) : List Word := (List.range 8).map fun i => nth 0 ds i

/-- A record whose whole data takes part. -/
def recordOf (kind : Nat) (lab : Label) (addr : Nat) (data : List Word) : Record := ⟨kind, addr, lab, BitVec.allOnes 64, data⟩

/-- A record image (R337): RKIND, label handle, address, byte mask, data. -/
def Record.image (s : State) (asid : Nat) (r : Record) : List Word :=
  wd (r.kind * 2 ^ 60 + handleOf s asid r.lab * 2 ^ 44 + r.addr % 2 ^ 32) :: r.mask :: pad8 r.data

/-- A signature with the hash of one more record (R339). -/
def addHash (s : Sig) (h : Nat) : Sig :=
  ((s.1 + h) % 2 ^ 64, s.2.1 ^^^ (h / 2 ^ 32 ^^^ h % 2 ^ 32), (s.2.2 + 1) % 2 ^ 32)

/-- A signature with some more records (R339). -/
def extendSig (s : State) (asid : Nat) (g : Sig) (rs : List Record) : Sig :=
  rs.foldl (fun g r => addHash g (rhash (r.image s asid)).toNat) g

/-- The signature of a set of records (R339). -/
def signature (s : State) (asid : Nat) (rs : List Record) : Sig := extendSig s asid (0, 0, 0) rs

/-- The labels of records bound, as their images name them by handles (R209); as they stand where the table is full. -/
def bindRecords (s : State) (asid : Nat) (rs : List Record) : State := (bindLabels s asid (rs.map (·.lab))).getD s

/-- The bytes of a mask as a 512-bit mask of bits. -/
def spreadMask (m : BitVec 64) : BitVec 512 :=
  (List.range 64).foldl (fun a i => if m.getLsbD i then a ||| ((0xFF#512) <<< (8 * i)) else a) 0

/-- The record of a phase-buffer entry (R337, kind 1). -/
def entryRecord (e : PhaseEntry) : Record := ⟨1, e.ga, e.lab, e.bytes, dwords8 (e.data &&& spreadMask e.bytes)⟩

/-- The record of a held item (R337, kinds 2 to 4). -/
def itemRecord (h : HeldItem) : Record :=
  if h.kind = 2 then recordOf 2 h.l.lab h.l.ga [wd (h.op + (if h.size = 8 then 16 else 0)), h.l.v, h.l.n]
  else recordOf h.kind h.l.lab h.l.ga [h.l.v]

/-- The replicas that still run (R349), and whether the issuer is the committing one (R333). -/
def Ctx.commits (x : Ctx) : Bool := x.gang.commit == x.blk.rep

/-- The replicas whose copies stand in the gang's windows: the live ones, and one whose copy is crossing (R351). -/
def Gang.members (g : Gang) : List Nat :=
  match g.clone with
  | some c => if g.live.contains c.1 then g.live else g.live ++ [c.1]
  | none => g.live

/-- A re-cloned replica has yet to pass an event of a warp that has committed, or to swap in (R351). -/
def Gang.lags (g : Gang) (r b w : Nat) : Bool :=
  g.clone.any fun c => c.1 == r && (!c.2 || g.kept.any fun e => e.b == b && e.w == w)

/-- The live replicas that have passed every event (R351). -/
def Gang.voters (g : Gang) : List Nat := g.live.filter fun r => g.clone.all fun c => c.1 != r

/-- The warp of the same block and index in replica `r` of a gang. -/
def replicaWarp (x : Ctx) (r : Nat) : Option Nat :=
  ((nth [] x.gang.cores r)[x.blk.b % x.lr.gangBlocks]?).map fun c => c * 32 + x.slot

/-- A wait for Echo posted at the issuing instruction: one event of the warp, whose number counts the events that the warp has
issued, this one too (R333).  `rs` are its records, and `ops` the instruction's own among them. -/
def postEcho (x : Ctx) (s : State) (release once : Bool) (level : Nat) (rs ops : List Record) : State :=
  let s := bindRecords s x.asid rs
  s.modWarp x.wk fun w =>
    { w with
      echo := some ⟨w.events + 1, release, once, level, signature s x.asid rs, ops, readLabels w.regs x.uses x.grp, false,
        none, [], []⟩
      events := w.events + 1 }

/-- A state in which the issuer's answered wait is over, and counted (R355, COMMITS). -/
def clearEcho (s : State) (k : Nat) : State :=
  s.modWarp k fun w => { w with echo := none, commits := w.commits + 1 }

/-- Replica `r` has yet to pass the event that the issuer is at (R351). -/
def Ctx.lags (x : Ctx) (r : Nat) : Bool := x.gang.lags r x.blk.b x.w.index

/-- What Echo keeps of the issuer's event for a replica that has yet to pass it (R351). -/
def keep (x : Ctx) (s : State) (f : KeptEvent → KeptEvent) : State :=
  if x.gang.clone.isNone then s
  else s.modGang x.blk.launch x.gi fun g => { g with kept := g.kept.map fun e =>
    if e.b = x.blk.b ∧ e.w = x.w.index ∧ x.w.echo.any (·.event == e.event) then f e else e }

/-- The results of a once-performed operation delivered to every other live replica (R343), which no longer has it to
perform; kept for one that has yet to reach it (R351). -/
def deliverOnce (x : Ctx) (s : State) (vals : List Word) (labs : List Label) : State :=
  (x.gang.members.filter (· != x.blk.rep)).foldl (fun s r =>
    if x.lags r then keep x s fun e => { e with once := false, vals := vals, labs := labs }
    else match replicaWarp x r with
      | some k => s.modWarp k fun w =>
        { w with echo := w.echo.map fun e => { e with once := false, vals := vals, labs := labs } }
      | none => s) s

/-- The warps that share an operation of a warp: the warp itself, or its copies in every replica that takes part (R343). -/
def sharers (x : Ctx) : List Nat := if x.replicated then x.gang.members.filterMap (replicaWarp x) else [x.wk]

/-- A ONCE-PERFORMED operation (R343, R345).  With REPL 1 it is performed at once.  In a replicated launch the issuer
posts its kind 6 records and waits; once the event has committed, the committing replica performs it, and every other
replica waits on for its results. -/
def onceOp (x : Ctx) (s : State) (ops : List Record)
    (perform : State → Except Stop (State × List Word × List Label)) : Except Stop (State × List Word × List Label) :=
  if !x.replicated then perform s
  else match (s.warp x.wk).bind Warp.echo with
    | none => .error (.stall (postEcho x s false true 0 ops ops))
    | some e =>
      if !e.granted then .error (.stall s)
      else if !e.once then .ok (clearEcho s x.wk, e.vals, e.labs)
      else if x.commits then
        match perform s with
        | .ok (s, vs, ls) => .ok (clearEcho (deliverOnce x s vs ls) x.wk, vs, ls)
        | .error e => .error e
      else .error (.stall s)

/-- The `ix`-th once-performed operation of an instruction that has others, or a release, after it: its result is kept until the
instruction has issued. -/
def onceKept (x : Ctx) (s : State) (ix : Nat) (ops : List Record)
    (perform : State → Except Stop (State × List Word × List Label)) : Except Stop (State × List Word × List Label) :=
  match (s.warp x.wk).bind fun w => w.got[ix]? with
  | some r => .ok (s, r.1, r.2)
  | none => do
    let r ← onceOp x s ops perform
    .ok (r.1.modWarp x.wk fun w => { w with got := w.got ++ [(r.2.1, r.2.2)] }, r.2.1, r.2.2)

/-- The kind 6 record of an instruction's operands for one lane, or for the group (R337). -/
def opRecord (x : Ctx) (lab : Label) (addr : Nat) (operands : List Word) : Record := recordOf 6 lab addr (zx x.word :: operands)

end Sys2Proof.Machine
end

