-- ==== Sys2Proof/Machine/Phase.lean ====
section
/-! DEFINITION. Phase consistency: writes performed at their home bank (R153, R179, R240, R309), reads (R181), phase
buffers, releases and acquires (R180 to R186, R196). -/
namespace Sys2Proof.Machine

/-! ## Writes at the home bank -/

/-- A write performed at a granule's home bank wakes every group parked on it (R153). -/
def wakeParked (s : State) (g : Nat) : State :=
  { s with warps := s.warps.map fun p =>
      if p.2.parked.any (·.gran == g) then
        (p.1, { p.2 with parked := p.2.parked.map fun q => if q.gran = g then { q with woken := true } else q })
      else p }

/-- The ring descriptor a waiting ring instruction names. -/
def ringWork : Work → Option Nat
  | .push _ l => some l.pa
  | .pop _ _ l => some l.pa
  | _ => none

/-- A pending operation waits on the ring at `pa`. -/
def waitsOnRing (pa : Nat) (p : Pend) : Bool := p.stage == 0 && ringWork p.work == some pa

/-- The mark of a ring instruction whose ring was disarmed (R240). -/
def disarmMark (p : Pend) : FlagMark := ⟨p.flag, 0x02, p.pc, 0, none, none, 0, p⟩

/-- DISARMING a ring (R240): its state is gone, and every waiting ring instruction's flag clears with a fault mark.
A chain entry that delivers into it halts at its next chunk (R311). -/
def disarmRing (s : State) (pa : Nat) : State :=
  { s with
    rings := kdel s.rings pa
    chains := s.chains.map fun p => (p.1, { p.2 with
      entries := p.2.entries.map fun e => if e.ring = some pa then { e with disarmed := true } else e })
    warps := s.warps.map fun p =>
      if p.2.pend.any (waitsOnRing pa) then
        (p.1, { p.2 with
          marks := p.2.marks ++ (p.2.pend.filter (waitsOnRing pa)).map disarmMark
          pend := p.2.pend.filter fun q => !waitsOnRing pa q })
      else p }

/-- A write on a bound chain descriptor halts the chain with DETACH at its next chunk boundary (R309). -/
def detachChain (s : State) (pa : Nat) : State :=
  match kget s.chains pa with
  | some c => { s with chains := kset s.chains pa { c with detached := true } }
  | none => s

/-- What a write at a home bank does beside writing its bytes: parked groups wake, an armed ring descriptor disarms, a
bound chain descriptor detaches. -/
def touchGranule (s : State) (g : Nat) : State :=
  let s := wakeParked s g
  let s := if (kget s.rings (g * 64)).isSome then disarmRing s (g * 64) else s
  detachChain s (g * 64)

/-- A granule is damaged (R369). -/
def granDamaged (s : State) (pa : Nat) : Bool := (s.core (pa / 2 ^ 20)).dmg.contains (pa / 64)

/-- A granule that is damaged from now on (R369). -/
def damageGranule (s : State) (pa : Nat) : State :=
  s.modCore (pa / 2 ^ 20) fun c => { c with dmg := insNat (pa / 64) c.dmg }

/-- A granule made whole: every one of its bytes has been written (R369). -/
def healGranule (s : State) (pa : Nat) : State :=
  if granDamaged s pa then s.modCore (pa / 2 ^ 20) fun c => { c with dmg := c.dmg.filter (· != pa / 64) } else s

/-- A WRITE PERFORMED at the home bank, within one granule (R153, R179, R369). -/
def homeWrite (s : State) (pa : Nat) (bs : List Byte) : State :=
  let s := { s with mem := s.mem.writeGal pa bs }
  let s := touchGranule s (pa / 64)
  if bs.length = 64 then healGranule s pa else s

/-- A granule discarded from a core's snapshot (R183, R232, R259). -/
def dropSnapshot (s : State) (core pa : Nat) : State :=
  s.modCore core fun c => { c with snapshot := kdel c.snapshot (pa / 64) }

/-- Granules read at home, which no older copy of the core's snapshot may follow (R181). -/
def dropSnapshots (s : State) (core : Nat) (pas : List Nat) : State :=
  if (s.core core).snapshot.isEmpty then s
  else (pas.filter fun pa => pa / 2 ^ 20 != core).foldl (fun s pa => dropSnapshot s core pa) s

/-! ## Reads -/

/-- The 64 bytes of a granule at its home bank. -/
def homeData (s : State) (pa : Nat) : BitVec 512 := BitVec.ofNat 512 (readNum s.mem.gal (pa / 64 * 64) 64)

/-- The bytes of a core's snapshot are one granule's data and label. -/
def dataBytes (d : BitVec 512) (off n : Nat) : List Byte :=
  (List.range n).map fun i => d.extractLsb' (8 * (off + i)) 8

/-- The phase-buffer entries of a core's warps for a granule (R181). -/
def coreEntries (s : State) (core g : Nat) : List PhaseEntry :=
  s.warps.flatMap fun p => if p.1 / 32 = core then p.2.phase.filter (·.gran == g) else []

/-- Among entries that hold byte `i`, the one written last (R181). -/
def lastEntry (es : List PhaseEntry) (i : Nat) : Option PhaseEntry :=
  es.foldl (fun b e =>
    if e.bytes.getLsbD i then
      match b with
      | none => some e
      | some c => if c.stamp < e.stamp then some e else b
    else b) none

/-- Bytes with a core's buffered values over them, and for each buffered one the entry that it is from (R181). -/
def overlay (es : List PhaseEntry) (off : Nat) (base : List Byte) : List Byte × List PhaseEntry :=
  if es.isEmpty then (base, [])
  else
    let ps := base.zipIdx.map fun p => match lastEntry es (off + p.2) with
      | some e => (e.data.extractLsb' (8 * (off + p.2)) 8, some e)
      | none => (p.1, none)
    (ps.map (·.1), ps.filterMap (·.2))

/-- What a read returned: bytes, label and whether damaged storage supplied some of them (R369). -/
structure Fetched where
  bytes : List Byte
  lab : Label
  dmg : Bool
  deriving DecidableEq, Repr

/-- A granule as it stands at its home bank. -/
def homeSnap (s : State) (pa : Nat) : Snap := ⟨homeData s pa, granLabel s.mem pa, granDamaged s pa⟩

/-- A granule fetched from home into a core's snapshot (R181), unless it is damaged. -/
def fetchGranule (s : State) (core pa : Nat) : State :=
  if granDamaged s pa then s
  else s.modCore core fun c => { c with snapshot := kset c.snapshot (pa / 64) (homeSnap s pa) }

/-- The granule a remote read is served from (R181): the core's snapshot or home, as the device chooses while the
snapshot holds it (a free value, log entry 1). -/
def remoteGranule (s : State) (core pa : Nat) (direct : Bool) : State × Snap :=
  if direct then (dropSnapshot s core pa, homeSnap s pa)
  else match kget (s.core core).snapshot (pa / 64) with
    | some d => if Config.freeBool s.free then (s.drew, d) else ((fetchGranule s core pa).drew, homeSnap s pa)
    | none => (fetchGranule s core pa, homeSnap s pa)

/-- A READ by a warp's access within one granule (R179, R181): local reads are served at home; remote ones from the
core's phase buffers, its snapshot or home; `direct` is the read of an access with an acquire part, or one performed at
home (R189).  It consumes damage when a byte of it comes from damaged storage (R369). -/
def readAccess (s : State) (core pa n : Nat) (direct : Bool) : State × Fetched :=
  if pa / 2 ^ 20 = core then
    (s, ⟨readBytes s.mem.gal pa n, granLabel s.mem pa, granDamaged s pa⟩)
  else
    let r := remoteGranule s core pa direct
    let o := overlay (coreEntries s core (pa / 64)) (pa % 64) (dataBytes r.2.data (pa % 64) n)
    (r.1, ⟨o.1, joinAll (r.2.lab :: o.2.map (·.lab)), (r.2.dmg && decide (o.2.length < n)) || o.2.any (·.dmg)⟩)

/-- The label a store's check uses for a granule (R198): home for a local one, else the snapshot's, fetched on a miss. -/
def checkLabel (s : State) (core pa : Nat) : State × Label :=
  if pa / 2 ^ 20 = core then (s, granLabel s.mem pa)
  else match kget (s.core core).snapshot (pa / 64) with
    | some d => (s, d.lab)
    | none => (fetchGranule s core pa, granLabel s.mem pa)

/-! ## Phase buffers, releases and acquires -/

/-- The bytes an entry holds, in runs of one byte: offset and value. -/
def entryBytes (e : PhaseEntry) : List (Nat × Byte) :=
  (List.range 64).filterMap fun i =>
    if e.bytes.getLsbD i then some (i, e.data.extractLsb' (8 * i) 8) else none

/-- Granules of a scope code discarded from a core's snapshot; code 8 names every granule. -/
def acquireScope (s : State) (core code : Nat) : State :=
  s.modCore core fun c =>
    { c with snapshot := if code = 8 then [] else c.snapshot.filter fun p => !inScope core code (p.1 * 64) }

/-- The acquires that are due when an entry is performed (R189). -/
def entryAcquires (s : State) (core : Nat) (e : PhaseEntry) : State := e.acq.foldl (acquireScope · core) s

/-- An entry performed at its home bank (R183): its bytes written as one action; a damaged one leaves the granule damaged
(R369, log entry 20). -/
def performEntry (s : State) (core : Nat) (e : PhaseEntry) : State :=
  let s := { s with mem := { s.mem with
    gal := (entryBytes e).foldl (fun m p => writeByte m (e.gran * 64 + p.1) p.2) s.mem.gal } }
  let s := touchGranule s e.gran
  let s := if e.dmg then damageGranule s (e.gran * 64)
    else if e.bytes = BitVec.allOnes 64 then healGranule s (e.gran * 64) else s
  entryAcquires (dropSnapshot s core (e.gran * 64)) core e

/-- What a release could not perform (R196): the granule's Gallery address, the entry's label, the home label. -/
abbrev Failed := List (Nat × Label × Label)

/-- Entries published one after another (R183, R196): an entry whose home label no longer dominates its label is
discarded.  The order among the entries of one release is the specification's to leave open; the model takes the buffer's,
all in one step (log entry 20). -/
def publish (s : State) (core : Nat) : List PhaseEntry → State × Failed
  | [] => (s, [])
  | e :: t =>
    let home := granLabel s.mem (e.gran * 64)
    if dominates home e.lab then publish (performEntry s core e) core t
    else
      let r := publish s core t
      (r.1, (e.ga, e.lab, home) :: r.2)

/-- The lowest-addressed failure of a release (R196). -/
def lowestFailed : Failed → Option (Nat × Label × Label)
  | [] => none
  | f :: t => match lowestFailed t with
    | none => some f
    | some g => some (if f.1 ≤ g.1 then f else g)

/-- An entry is external to the issuer's gang's private copy (R334). -/
def externalEntry (x : Ctx) (gran : Nat) : Bool :=
  !(nth [] x.gang.cores x.blk.rep).contains (gran / 16384) || decide (4096 * x.lr.win ≤ gran % 16384 * 64)

/-- A gang has published beyond itself (R367). -/
def markPublished (x : Ctx) (s : State) : State :=
  if x.gang.published then s else s.modGang x.blk.launch x.gi fun g => { g with published := true }

/-- An address lies outside the gang's windows, in any replica (R367). -/
def beyondGang (x : Ctx) (pa : Nat) : Bool :=
  !(x.gang.cores.any (·.contains (pa / 2 ^ 20))) || decide (4096 * x.lr.win ≤ pa % 2 ^ 20)

/-- The entries of a warp's phase buffer that a release at level `n` publishes (R183): those in the level's scope, and
every entry at the highest declared level. -/
def published (x : Ctx) (w : Warp) (n : Nat) : List PhaseEntry :=
  if n = x.lr.top then w.phase else w.phase.filter fun e => inScope x.core (x.lr.scope n) (e.gran * 64)

/-- A unit of the matrix engine that writes the Gallery: a TTRN or a drain is among its instructions (R259). -/
def TileUnit.writes (u : TileUnit) : Bool :=
  u.repl.any (fun p => p.2.writes) || u.orig.any fun p => match p.work with
    | .tile o => o.writes
    | _ => false

/-- A tile instruction of the warp that has not performed its Gallery writes (R259), or an atomic that has not been
performed (R231): a release waits for them.  The window is not flushed for it (R277, log entry 12). -/
def unfinished (s : State) (x : Ctx) (w : Warp) : Bool :=
  w.pend.any (fun p => match p.work with
    | .atomic _ _ _ _ => p.stage == 0
    | _ => false) || (s.core x.core).engine.any fun u => u.warp == x.wk && u.writes

/-- The home label of an entry's granule dominates the entry's label (R196). -/
def entryFits (s : State) (e : PhaseEntry) : Bool := dominates (granLabel s.mem (e.gran * 64)) e.lab

/-- Entries that leave the issuer's buffer: those that its replica performs (R341) are published; one that is performed beyond
the gang's windows is a publication of the gang (R367).  Every one leaves the core's snapshot, in each replica (R183). -/
def publishOwn (x : Ctx) (s : State) (es : List PhaseEntry) : State × Failed :=
  let own (e : PhaseEntry) : Bool := !x.replicated || x.commits || !externalEntry x e.gran
  let mine := es.filter own
  let s := if mine.any fun e => beyondGang x (e.gran * 64) && entryFits s e then markPublished x s else s
  let r := publish s x.core mine
  ((es.filter (!own ·)).foldl (fun s e => entryAcquires (dropSnapshot s x.core (e.gran * 64)) x.core e) r.1, r.2)

/-- The publication of a release (R183): its entries performed, the rest kept. -/
def publishLevel (x : Ctx) (s : State) (n : Nat) : State × Failed :=
  match s.warp x.wk with
  | none => (s, [])
  | some w =>
    let es := published x w n
    publishOwn x (s.setWarp x.wk { w with phase := w.phase.filter fun e => !es.contains e }) es

/-- The trap of a release that discarded entries (R196, R357): the other entries have been performed. -/
def releaseTrap {α : Type} (x : Ctx) (s : State) (f : Nat × Label × Label) : Except Stop α :=
  x.trapL s 0x03 x.grp (wd f.1) f.2.1 f.2.2

/-- The records a release publishes (R340): its phase-buffer entries, the warp's held items, and the instruction's own. -/
def releaseRecords (x : Ctx) (w : Warp) (n : Nat) (own : List Record) : List Record :=
  (published x w n).map entryRecord ++ w.items.map itemRecord ++ own

/-- The end of a publication (R196): a trap when an entry could not be published. -/
def releaseDone (x : Ctx) (s : State) : Option (Nat × Label × Label) → Except Stop State
  | some f => releaseTrap x s f
  | none => .ok s

/-- The instruction's release `ix` has been sent to Echo: it is due again at each later turn, whatever its commit has
emptied, until its answer has come. -/
def Warp.begun (w : Warp) (ix : Nat) : Bool := w.passed.contains (8 + ix)

/-- The instruction's own access is already held in a replica (R416): only its second release is still to come. -/
def Ctx.accessHeld (x : Ctx) : Bool := x.replicated && x.w.passed.contains 4

/-- A RELEASE at level `n` by the issuing warp (R183, R185, R330), and the lowest entry that it has discarded (R196).  It
completes after the warp's earlier atomics and tile writes; in a replicated launch it is Echo event `ix` of its instruction, and
Echo publishes at the event's commit (R340, R341). -/
def releaseTry (x : Ctx) (s : State) (n ix : Nat) (own : List Record) :
    Except Stop (State × Option (Nat × Label × Label)) :=
  match s.warp x.wk with
  | none => .error (.fault .noIssuer)
  | some w =>
    if w.passed.contains ix then .ok (s, none)
    else match w.echo with
      | some e =>
        if e.granted then .ok ((clearEcho s x.wk).modWarp x.wk fun w => { w with passed := ix :: w.passed }, e.failed)
        else .error (.stall s)
      | none =>
        if unfinished s x w then .error (.stall s)
        else if x.replicated then
          .error (.stall ((postEcho x s true false n (releaseRecords x w n own) own).modWarp x.wk fun w =>
            { w with passed := (8 + ix) :: w.passed }))
        else
          let r := publishLevel x s n
          .ok (r.1, lowestFailed r.2)

/-- A RELEASE that traps where it discards an entry (R196). -/
def releaseAt (x : Ctx) (s : State) (n ix : Nat) (own : List Record) : Except Stop State := do
  let r ← releaseTry x s n ix own
  releaseDone x r.1 r.2

/-- An instruction that is a release at level `n` and once-performed, as one event (R333). -/
def releaseOnce (x : Ctx) (s : State) (n : Nat) (ops : List Record)
    (perform : State → Except Stop (State × List Word × List Label)) : Except Stop (State × List Word × List Label) :=
  if !x.replicated then do
    let s ← releaseAt x s n 2 []
    perform s
  else match s.warp x.wk with
    | none => .error (.fault .noIssuer)
    | some w =>
      match w.echo with
      | none =>
        if unfinished s x w then .error (.stall s)
        else .error (.stall (postEcho x s true true n (releaseRecords x w n ops) ops))
      | some e =>
        match e.failed with
        | some f => if e.granted then releaseTrap x (clearEcho s x.wk) f else .error (.stall s)
        | none => onceOp x s ops perform

/-- The scope code of an acquire at level `n` (R182, R184): 8, every granule, at the highest level. -/
def acqCode (x : Ctx) (n : Nat) : Nat := if n = x.lr.top then 8 else x.lr.scope n

/-- An ACQUIRE at level `n` (R184): the snapshot loses the granules in scope, all of them at the highest level. -/
def acquireAt (x : Ctx) (s : State) (n : Nat) : State := acquireScope s x.core (acqCode x n)

/-- An acquire at the widest scope (R184): at the highest declared level. -/
def acquireWidest (x : Ctx) (s : State) : State := acquireAt x s x.lr.top

/-- A store merged into the phase buffer (R180): one entry per granule, later bytes replace earlier ones, labels join; `acq`
are the acquires due when it is performed. -/
def mergeEntry (es : List PhaseEntry) (g ga off : Nat) (bs : List Byte) (lab : Label) (stamp : Nat) (acq : List Nat) :
    List PhaseEntry :=
  let put (d : BitVec 512) : BitVec 512 := bs.zipIdx.foldl (fun d p =>
    (d &&& ~~~((0xFF#512) <<< (8 * (off + p.2)))) ||| (BitVec.ofNat 512 p.1.toNat <<< (8 * (off + p.2)))) d
  let msk : BitVec 64 := (List.range bs.length).foldl (fun m i => m ||| ((1#64) <<< (off + i))) 0
  if es.any (·.gran == g) then
    es.map fun e => if e.gran = g then
      { e with
        data := put e.data, bytes := e.bytes ||| msk, lab := joinL e.lab lab, stamp := stamp
        dmg := e.dmg && msk != BitVec.allOnes 64, acq := acq ++ e.acq } else e
  else es ++ [⟨g, put 0, msk, lab, ga / 64 * 64, stamp, false, acq⟩]

/-- The granules that writes of one size at some addresses cover whole (R369). -/
def coveredGranules (size : Nat) (pas : List Nat) : List Nat :=
  (pas.map (· / 64)).dedup.filter fun g =>
    (List.range (64 / size)).all fun i => pas.contains (g * 64 + i * size)

/-- Granules made whole (R369). -/
def healAll (s : State) (gs : List Nat) : State := gs.foldl (fun s g => healGranule s (g * 64)) s

/-- The acquire that a buffered store of an ORD.ACQ has due when it is performed (R189, log entry 20). -/
def acqDue (x : Ctx) : List Nat :=
  match x.w.ord with
  | some (1, n) => [acqCode x n]
  | _ => []

/-- A store's lane: performed at home when local, buffered when remote (R179, R180). -/
def storeLane (x : Ctx) (s : State) (ga pa : Nat) (bs : List Byte) (lab : Label) : State :=
  if pa / 2 ^ 20 = x.core then homeWrite s pa bs
  else
    let s := { s with tick := s.tick + 1 }
    s.modWarp x.wk fun w => { w with phase := mergeEntry w.phase (pa / 64) ga (pa % 64) bs lab s.tick (acqDue x) }

/-- A store performed at its home bank without buffering (R189): beyond the gang's windows it publishes (R367). -/
def storeHome (x : Ctx) (s : State) (pa : Nat) (bs : List Byte) : State :=
  let s := if beyondGang x pa then markPublished x s else s
  dropSnapshot (homeWrite s pa bs) x.core pa

/-- How many phase-buffer entries a warp would hold after storing to some granules (R186, R335). -/
def entriesAfter (w : Warp) (core : Nat) (pas : List Nat) : Nat :=
  (pas.foldl (fun gs pa =>
    if pa / 2 ^ 20 = core then gs else if gs.contains (pa / 64) then gs else gs ++ [pa / 64])
    (w.phase.map (·.gran))).length + w.items.length

/-- The implicit release of R186, before a store that would exceed 256 entries. -/
def quotaRelease (x : Ctx) (s : State) (pas : List Nat) : Except Stop State :=
  match s.warp x.wk with
  | none => .error (.fault .noIssuer)
  | some w => if 256 < entriesAfter w x.core pas || (x.replicated && w.begun 1) then releaseAt x s x.lr.top 1 [] else .ok s

/-- The publication of the issuing warp's entry for one granule (R188, R227, R259): an entry that its home label no
longer dominates is discarded, and the instruction traps by R196. -/
def publishGranules (x : Ctx) (s : State) (gs : List Nat) : Except Stop State :=
  match s.warp x.wk with
  | none => .error (.fault .noIssuer)
  | some w =>
    let es := w.phase.filter fun e => gs.contains e.gran
    if es.isEmpty then .ok s
    else
      let r := publishOwn x (s.setWarp x.wk { w with phase := w.phase.filter fun e => !gs.contains e.gran }) es
      match lowestFailed r.2 with
      | some f => releaseTrap x r.1 f
      | none => .ok r.1

/-- The publication of the issuing warp's entries for some granules before an instruction (R188, R227, R248).  A replica's
entries are performed only by an event that commits (R342): it releases at its widest scope (log entry 12). -/
def publishFirst (x : Ctx) (s : State) (gs : List Nat) : Except Stop State :=
  if !x.replicated then publishGranules x s gs
  else match s.warp x.wk with
    | none => .error (.fault .noIssuer)
    | some w => if w.begun 1 || w.phase.any (fun e => gs.contains e.gran) then releaseAt x s x.lr.top 1 [] else .ok s

/-- Two accesses of a warp that are in program order: to one granule (R232), or both to the core's own slice (R179). -/
def inOrder (core pa pb : Nat) : Bool := pa / 64 == pb / 64 || (pa / 2 ^ 20 == core && pb / 2 ^ 20 == core)

/-- An atomic of the warp that an access of these addresses comes after has not been performed (R179, R232). -/
def atomicOn (w : Warp) (core : Nat) (pas : List Nat) : Bool :=
  w.pend.any fun p => p.stage == 0 && match p.work with
    | .atomic _ _ _ ls => ls.any fun l => pas.any fun pa => inOrder core pa l.pa
    | _ => false

/-- A replica holds an atomic on one of these granules (R335). -/
def itemOn (w : Warp) (pas : List Nat) : Bool :=
  w.items.any fun h => h.kind == 2 && pas.any fun pa => pa / 64 == h.l.pa / 64

/-- An ORD.ACQ store of the warp is buffered, or an atomic with one held: its acquire is still to come (R189). -/
def acqOwed (w : Warp) : Bool :=
  w.phase.any (!·.acq.isEmpty) || w.items.any fun h => h.by_.ord.any fun o => o.1 == 1 || o.1 == 3 || o.1 == 4

/-- A warp releases at its widest scope before an access to a granule on which a replica holds an atomic (R335), and before any
access that has to wait for the acquire of a buffered ORD.ACQ (R189, log entry 20). -/
def orderItems (x : Ctx) (s : State) (pas : List Nat) : Except Stop State :=
  match s.warp x.wk with
  | none => .error (.fault .noIssuer)
  | some w => if itemOn w pas || acqOwed w || (x.replicated && w.begun 1) then releaseAt x s x.lr.top 1 [] else .ok s

/-- How many entries and held items a warp has, toward the quota of R186 (R335). -/
def Warp.heldCount (w : Warp) : Nat := w.items.length + w.phase.length

/-- The implicit release of R186 before a replica holds `n` more items (R335). -/
def itemQuota (x : Ctx) (s : State) (n : Nat) : Except Stop State :=
  match s.warp x.wk with
  | none => .error (.fault .noIssuer)
  | some w =>
    if x.replicated && (decide (256 < w.heldCount + n) || w.begun 1) then releaseAt x s x.lr.top 1 [] else .ok s

/-- What an access waits for: the warp's earlier atomics (R179, R232), and R335 in a replica. -/
def orderAccess (x : Ctx) (s : State) (pas : List Nat) : Except Stop State :=
  if atomicOn x.w x.core pas then .error (.stall s) else orderItems x s pas

/-- The part of an ORD prefix before its access (R189): a release for REL, AR and SC. -/
def ordBefore (x : Ctx) (s : State) : Except Stop State :=
  match x.w.ord with
  | some (o, n) => if 2 ≤ o then releaseAt x s n 0 [] else .ok s
  | none => .ok s

/-- The access has an acquire part (R189). -/
def Ctx.acquires (x : Ctx) : Bool := match x.w.ord with
  | some (o, _) => o == 1 || o == 3 || o == 4
  | none => false

/-- The access has a release part (R189). -/
def Ctx.releases (x : Ctx) : Bool := match x.w.ord with
  | some (o, _) => decide (2 ≤ o)
  | none => false

/-- The part of an ORD prefix after its access (R189): an acquire for ACQ, AR and SC. -/
def ordAfter (x : Ctx) (s : State) : State :=
  match x.w.ord with
  | some (o, n) => if o == 1 || o == 3 || o == 4 then acquireAt x s n else s
  | none => s

/-- The part of an ORD prefix after a store: an ORD.ACQ whose lanes are buffered acquires when they are performed. -/
def ordAfterStore (x : Ctx) (s : State) (pas : List Nat) : State :=
  if !x.releases && pas.any (fun pa => pa / 2 ^ 20 != x.core) then s else ordAfter x s

end Sys2Proof.Machine
end

