-- ==== Sys2Proof/Machine/Flags.lean ====
section
/-! DEFINITION. Conditions and completion flags: the compare codes of R33, and how a long-latency operation takes, holds
and clears its flag (R27, R30, R358). -/
namespace Sys2Proof.Machine

/-- The compare conditions of R33 at width `n`: 0 EQ, 1 NE, 2 LT.S, 3 GE.S, 4 LT.Z, 5 GE.Z, 6 LE.S, 7 LE.Z. -/
def intCond (c n : Nat) (x y : Nat) : Bool :=
  match c with
  | 0 => uval n x == uval n y
  | 1 => uval n x != uval n y
  | 2 => decide (sval n x < sval n y)
  | 3 => decide (sval n y ≤ sval n x)
  | 4 => decide (uval n x < uval n y)
  | 5 => decide (uval n y ≤ uval n x)
  | 6 => decide (sval n x ≤ sval n y)
  | _ => decide (uval n x ≤ uval n y)

/-- The flag a long-latency instruction's select names in its clause (R27); 15 is none, which decoding refuses. -/
def Ctx.flag (x : Ctx) (f : BitVec 1) : Option Nat :=
  if selected x.run.setA x.run.setB f = 15 then none else some (selected x.run.setA x.run.setB f)

/-- A pending operation of the issuing instruction, not yet in the warp (R27, R29). -/
def Ctx.newPend (x : Ctx) (flag : Option Nat) (work : Work) (res : List LaneRes) (stage : Nat) (id : Nat) : Pend :=
  ⟨id, flag, work, res, stage, x.pc, x.run.hdr, x.word, readLabels x.w.regs x.uses x.grp, none, x.w.ord⟩

/-- An operation, issued for the first time or again (R357): it joins the warp's pending operations, and its flag becomes
pending (R27). -/
def addPend (s : State) (k : Nat) (p : Pend) (work : Work) (res : List LaneRes) (stage : Nat) : State :=
  s.modWarp k fun w =>
    { w with pend := w.pend ++ [{ p with id := w.issued, work := work, res := res, stage := stage }],
             issued := w.issued + 1 }

/-- The issuing instruction's operation, before it has a number. -/
def Ctx.pendOf (x : Ctx) (flag : Option Nat) (work : Work) : Pend := x.newPend flag work [] 0 0

/-- The issuing instruction's operation issued. -/
def startPend (x : Ctx) (s : State) (flag : Option Nat) (work : Work) (res : List LaneRes) (stage : Nat) : State :=
  addPend s x.wk (x.pendOf flag work) work res stage

/-- The pending operation number `n` of a warp. -/
def findPend (w : Warp) (n : Nat) : Option Pend := w.pend.find? (·.id == n)

/-- A flag is pending in a warp (R27). -/
def Warp.flagPending (w : Warp) (f : Nat) : Bool := w.pend.any (·.flag == some f) || w.window.any (·.flag == some f)

/-- A warp whose wait for reissued instructions is over (R357) once their flags have cleared. -/
def Warp.settle (w : Warp) : Warp :=
  match w.wait with
  | .flags fs => if fs.any w.flagPending then w else { w with wait := .none }
  | _ => w

/-- A warp without a pending operation: its flag clears when no other operation holds it (R27). -/
def Warp.dropPend (w : Warp) (n : Nat) : Warp := ({ w with pend := w.pend.filter (·.id != n) } : Warp).settle

/-- A warp with a pending operation replaced. -/
def Warp.setPend (w : Warp) (p : Pend) : Warp :=
  { w with pend := w.pend.map fun q => if q.id = p.id then p else q }

/-- A warp with a mark (R30, R358) in place of a pending operation: the flag clears with it. -/
def Warp.markPend (w : Warp) (p : Pend) (m : FlagMark) : Warp :=
  { w.dropPend p.id with marks := w.marks ++ [m] }

/-- A fault mark on an operation's flag (R358). -/
def markFor (p : Pend) (code : Nat) (addr aux : Word) (mask : Mask) : FlagMark :=
  ⟨p.flag, code, addr, aux, none, none, mask, p⟩

end Sys2Proof.Machine
end

