-- ==== Sys2Proof/Machine/Operands.lean ====
section
/-! DEFINITION. Operand forms: per-lane element operations (R77), uniform operations (R78), and memory operands
(R17, R176). -/
namespace Sys2Proof.Machine

/-! ## Per-lane forms (R15, R77) -/

/-- The label of a per-lane result (R77): the V sources of the lane, the guard, WCL. -/
def laneLabel (x : Ctx) (g : Nat) (srcs : List Nat) (l : Nat) : Label :=
  joinAll (srcs.map (x.w.regs.labV · l) ++ [x.w.regs.labP g l, x.w.wcl])

/-- An element-wise per-lane instruction (R77): for each active lane, f's value with the join of its sources. -/
def laneOp (x : Ctx) (s : State) (g d : Nat) (srcs : List Nat) (f : Nat → Word) : Except Stop State :=
  writeV x s d ((lanesOf (x.grp &&& x.w.regs.getP g)).map fun l => (l, f l, laneLabel x g srcs l))

/-- A per-lane instruction of one source Va. -/
def vUnary (i : Instr) (g : BitVec 3) (d a : BitVec 6) (f : Word → Word) (s : State) :
    Host.Outcome State Fault Refusal :=
  issue i { rv := [a.toNat], rp := [g.toNat], wv := [d.toNat] } (guardLanes s g.toNat) (fun x s =>
    laneOp x s g.toNat d.toNat [a.toNat] fun l => f (x.w.regs.getV a.toNat l)) s

/-- A per-lane instruction of two sources Va and Vb. -/
def vBinary (i : Instr) (g : BitVec 3) (d a b : BitVec 6) (f : Word → Word → Word) (s : State) :
    Host.Outcome State Fault Refusal :=
  issue i { rv := [a.toNat, b.toNat], rp := [g.toNat], wv := [d.toNat] } (guardLanes s g.toNat) (fun x s =>
    laneOp x s g.toNat d.toNat [a.toNat, b.toNat] fun l => f (x.w.regs.getV a.toNat l) (x.w.regs.getV b.toNat l)) s

/-- A per-lane instruction of sources Vd, Va and Vb. -/
def vTernary (i : Instr) (g : BitVec 3) (d a b : BitVec 6) (f : Word → Word → Word → Word) (s : State) :
    Host.Outcome State Fault Refusal :=
  issue i { rv := [a.toNat, b.toNat, d.toNat], rp := [g.toNat], wv := [d.toNat] } (guardLanes s g.toNat) (fun x s =>
    laneOp x s g.toNat d.toNat [a.toNat, b.toNat, d.toNat] fun l =>
      f (x.w.regs.getV d.toNat l) (x.w.regs.getV a.toNat l) (x.w.regs.getV b.toNat l)) s

/-- A per-lane instruction that writes predicates from Va and Vb (R105). -/
def vCompare (i : Instr) (g p : BitVec 3) (a b : BitVec 6) (f : Word → Word → Bool) (s : State) :
    Host.Outcome State Fault Refusal :=
  issue i { rv := [a.toNat, b.toNat], rp := [g.toNat], wp := [p.toNat] } (guardLanes s g.toNat) (fun x s =>
    writeP x s p.toNat ((lanesOf (x.grp &&& x.w.regs.getP g.toNat)).map fun l =>
      (l, f (x.w.regs.getV a.toNat l) (x.w.regs.getV b.toNat l), laneLabel x g.toNat [a.toNat, b.toNat] l))) s

/-! ## Uniform forms (R78) -/

/-- The label of a uniform result (R78). -/
def groupLabel (x : Ctx) (srcs : List Nat) : Label := joinAll (srcs.map x.w.regs.labG ++ [x.w.wcl])

/-- A uniform instruction over some G sources (R78). -/
def gOp (i : Instr) (srcs : List Nat) (d : Nat) (f : (Nat → Word) → Word) (s : State) :
    Host.Outcome State Fault Refusal :=
  issue i { rg := srcs, wg := [d] } 0xFFFFFFFF#32 (fun x s =>
    writeG x s d (f x.w.regs.getG) (groupLabel x srcs)) s

/-- A uniform instruction of one source Ga. -/
def gUnary (i : Instr) (d a : BitVec 6) (f : Word → Word) (s : State) : Host.Outcome State Fault Refusal :=
  gOp i [a.toNat] d.toNat (fun r => f (r a.toNat)) s

/-- A uniform instruction of two sources Ga and Gb. -/
def gBinary (i : Instr) (d a b : BitVec 6) (f : Word → Word → Word) (s : State) : Host.Outcome State Fault Refusal :=
  gOp i [a.toNat, b.toNat] d.toNat (fun r => f (r a.toNat) (r b.toNat)) s

/-- A uniform instruction of sources Gd, Ga and Gb. -/
def gTernary (i : Instr) (d a b : BitVec 6) (f : Word → Word → Word → Word) (s : State) :
    Host.Outcome State Fault Refusal :=
  gOp i [a.toNat, b.toNat, d.toNat] d.toNat (fun r => f (r d.toNat) (r a.toNat) (r b.toNat)) s

/-- A result that ends the whole group's write with LABEL-EXHAUSTED when a set cannot be bound (R209). -/
def bindOr (x : Ctx) (s : State) (addr : Word) (ls : List Label) : Except Stop State :=
  match bindLabels s x.asid ls with
  | some s => .ok s
  | none => x.trap s 0x07 x.grp addr 0

/-! ## Memory operands (R17, R176) -/

/-- Lane l's address of a VM or VA operand (R17): G[b] + zext(V[i][l].w0) + disp * size, in 64 bits; Vi = 15 is none. -/
def vmAddr (q : WRegs) (b i disp size l : Nat) : Word :=
  q.getG b + (if i = 15 then 0 else wd (bits (q.getV i l) 0 32)) + wd (disp * size)

/-- The label of a lane's address and guard (R197, R198): Gb, the lane's index, the guard, WCL. -/
def vmLabel (x : Ctx) (g b i l : Nat) : Label :=
  joinAll [x.w.regs.labG b, if i = 15 then [] else x.w.regs.labV i l, x.w.regs.labP g l, x.w.wcl]

/-- The words of a VM operand's registers in a lane, as a record holds them (R337). -/
def vmWords (q : WRegs) (b i l : Nat) : List Word := q.getG b :: (if i = 15 then [] else [q.getV i l])

/-- The registers a VM operand names. -/
def vmRegs (i : Nat) : List Nat := if i = 15 then [] else [i]

/-- The checks of R176 over some lanes' addresses, and the physical addresses: alignment first, then bounds; the trap
reports the failing lanes and the lowest one's address. -/
def checkAddrs (x : Ctx) (s : State) (size : Nat) (wr : Bool) (as_ : List (Nat × Word)) :
    Except Stop (List (Nat × Nat × Nat)) :=
  let mis := as_.filter fun p => p.2.toNat % size != 0
  match mis with
  | p :: t => x.trap s 0x0B (maskOf ((p :: t).map (·.1))) p.2 0
  | [] =>
    let out := as_.filter fun p => (galPa x s p.2.toNat size wr).isNone
    match out with
    | p :: t => x.trap s 0x08 (maskOf ((p :: t).map (·.1))) p.2 0
    | [] => .ok (as_.map fun p => (p.1, p.2.toNat, (galPa x s p.2.toNat size wr).getD 0))

/-- The check of one uniform access of `size` bytes within a granule: its physical address. -/
def checkAddr (x : Ctx) (s : State) (a : Word) (size : Nat) (wr : Bool) : Except Stop Nat :=
  if a.toNat % size ≠ 0 then x.trap s 0x0B x.grp a 0
  else match galPa x s a.toNat size wr with
    | some pa => .ok pa
    | none => x.trap s 0x08 x.grp a 0

end Sys2Proof.Machine
end

