-- ==== Sys2Proof/Machine/Memory.lean ====
section
/-! DEFINITION. The memory class (R197 to R203): loads, stores, ORD, phase instructions, and the stack. -/
namespace Sys2Proof.Machine

/-! ## Loads -/

/-- A loaded number extended to 64 bits (R197). -/
def extend (size : Nat) (sx : Bool) (n : Nat) : Word := if sx then wi (sval (8 * size) n) else wd n

/-- Reads of one size at some addresses, one after another, each with its address. -/
def readEach (core size : Nat) (direct : Bool) (s : State) : List Nat → State × List (Nat × Fetched)
  | [] => (s, [])
  | pa :: t =>
    let r := readAccess s core pa size direct
    let q := readEach core size direct r.1 t
    (q.1, (pa, r.2) :: q.2)

/-- One lane's result of a read (R197): value, label, and damage; a damaged lane receives zero (R369). -/
def laneRes (size : Nat) (sx : Bool) (l : LaneOp) (r : Fetched) : LaneRes :=
  ⟨l.lane, if r.dmg then 0 else extend size sx (ofBytes r.bytes), joinL r.lab l.lab, r.dmg⟩

/-- Lanes' reads: each address is read once, so that a lane whose address is repeated in another reads the same value
(R197). -/
def readLanes (core size : Nat) (sx direct : Bool) (s : State) (ls : List LaneOp) : State × List LaneRes :=
  let r := readEach core size direct s (ls.map (·.pa)).dedup
  (r.1, ls.map fun l => laneRes size sx l ((r.2.lookup l.pa).getD ⟨[], [], false⟩))

/-- Results as the words Echo delivers: value and damage. -/
def resWords (rs : List LaneRes) : List Word := rs.flatMap fun r => [r.val, wd (b2n r.dmg)]

/-- Results rebuilt from what Echo delivered for some lanes. -/
def resOf : List LaneOp → List Word → List Label → List LaneRes
  | l :: t, v :: d :: vs, b :: bs => ⟨l.lane, v, b, d != 0⟩ :: resOf t vs bs
  | _, _, _ => []

/-- The kind 6 record of a lane's operands (R337). -/
def laneRecord (x : Ctx) (l : LaneOp) : Record := opRecord x l.lab l.ga l.opnds

/-- The reads of a load's lanes: in a replicated launch those of external bytes are performed once (R336, R343). -/
def loadLanes (x : Ctx) (s : State) (size : Nat) (sx direct : Bool) (ls : List LaneOp) :
    Except Stop (State × List LaneRes) :=
  let far := if x.replicated then ls.filter fun l => externalEntry x (l.pa / 64) else []
  if far.isEmpty then .ok (readLanes x.core size sx direct s ls)
  else do
    let r ← onceOp x s (ls.map (laneRecord x)) fun s =>
      let q := readLanes x.core size sx direct s far
      .ok (q.1, resWords q.2, q.2.map (·.lab))
    let near := readLanes x.core size sx direct r.1 (ls.filter fun l => !far.contains l)
    .ok (near.1, near.2 ++ resOf far r.2.1 r.2.2)

/-- A load `p` after its address check (R189, R197, R199): its values are taken at issue, its registers are written when its
flag clears. -/
def loadBody (x : Ctx) (s : State) (p : Pend) (size : Nat) (sx : Bool) (ls : List LaneOp) : Except Stop State := do
  let s ← ordBefore x s
  let s ← orderAccess x s (ls.map (·.pa))
  let r ← loadLanes x s size sx (x.acquires || x.releases) ls
  .ok (ordAfter x (addPend r.1 x.wk p p.work r.2 1))

/-- VLD of a size and extension (R197). -/
def vld (i : Instr) (size : Nat) (sx : Bool) (g : BitVec 3) (t : BitVec 6) (b v : BitVec 4) (d : BitVec 5)
    (f : BitVec 1) (s : State) : Host.Outcome State Fault Refusal :=
  issue i { rv := vmRegs v.toNat, rg := [b.toNat], rp := [g.toNat], wv := [t.toNat] } (guardLanes s g.toNat)
    (fun x s => do
      let q := x.w.regs
      let act := lanesOf (x.grp &&& q.getP g.toNat)
      let as_ ← checkAddrs x s size false (act.map fun l => (l, vmAddr q b.toNat v.toNat d.toNat size l))
      let ls := as_.map fun p => (⟨p.1, p.2.1, p.2.2, 0, 0, vmLabel x g.toNat b.toNat v.toNat p.1,
        vmWords q b.toNat v.toNat p.1⟩ : LaneOp)
      loadBody x s (x.pendOf (x.flag f) (.load t.toNat size sx ls)) size sx ls) s

/-- VLD.S8 (R197). -/
def execVldS8 (z : Bool) (g : BitVec 3) (t : BitVec 6) (b i : BitVec 4) (d : BitVec 5) (f : BitVec 1) (s : State) :
    Host.Outcome State Fault Refusal := vld (.vldS8 z g t b i d f) 1 true g t b i d f s

/-- VLD.Z8 (R197). -/
def execVldZ8 (z : Bool) (g : BitVec 3) (t : BitVec 6) (b i : BitVec 4) (d : BitVec 5) (f : BitVec 1) (s : State) :
    Host.Outcome State Fault Refusal := vld (.vldZ8 z g t b i d f) 1 false g t b i d f s

/-- VLD.S16 (R197). -/
def execVldS16 (z : Bool) (g : BitVec 3) (t : BitVec 6) (b i : BitVec 4) (d : BitVec 5) (f : BitVec 1) (s : State) :
    Host.Outcome State Fault Refusal := vld (.vldS16 z g t b i d f) 2 true g t b i d f s

/-- VLD.Z16 (R197). -/
def execVldZ16 (z : Bool) (g : BitVec 3) (t : BitVec 6) (b i : BitVec 4) (d : BitVec 5) (f : BitVec 1) (s : State) :
    Host.Outcome State Fault Refusal := vld (.vldZ16 z g t b i d f) 2 false g t b i d f s

/-- VLD.32 (R197). -/
def execVld32 (z : Bool) (g : BitVec 3) (t : BitVec 6) (b i : BitVec 4) (d : BitVec 5) (f : BitVec 1) (s : State) :
    Host.Outcome State Fault Refusal := vld (.vld32 z g t b i d f) 4 false g t b i d f s

/-- VLD.64 (R197). -/
def execVld64 (z : Bool) (g : BitVec 3) (t : BitVec 6) (b i : BitVec 4) (d : BitVec 5) (f : BitVec 1) (s : State) :
    Host.Outcome State Fault Refusal := vld (.vld64 z g t b i d f) 8 false g t b i d f s

/-- GLD (R199). -/
def execGld (z : Bool) (d b : BitVec 6) (i : BitVec 10) (f : BitVec 1) (s : State) : Host.Outcome State Fault Refusal :=
  issue (.gld z d b i f) { rg := [b.toNat], wg := [d.toNat] } 0 (fun x s => do
    let a := x.w.regs.getG b.toNat + zx i * 8
    let pa ← checkAddr x s a 8 false
    let l : LaneOp := ⟨0, a.toNat, pa, 0, 0, groupLabel x [b.toNat], [x.w.regs.getG b.toNat]⟩
    loadBody x s (x.pendOf (x.flag f) (.gload d.toNat l)) 8 false [l]) s

/-! ## Stores -/

/-- One store's lane: lane, Gallery address, physical address, bytes, label. -/
abbrev StoreLane := Nat × Nat × Nat × List Byte × Label

/-- The label checks of a store's lanes: the failing ones with their join and the granule's label (R198). -/
def storeFails (x : Ctx) (s : State) : List StoreLane → State × List (StoreLane × Label)
  | [] => (s, [])
  | l :: t =>
    let r := checkLabel s x.core l.2.2.1
    let q := storeFails x r.1 t
    (q.1, if dominates r.2 l.2.2.2.2 then q.2 else (l, r.2) :: q.2)

/-- A store with a release part, outside replication, is performed at home without buffering (R189). -/
def Ctx.atHome (x : Ctx) : Bool := x.releases && !x.replicated

/-- The lanes written, increasing (R198): performed at home for a release part outside replication, else by R179 and
R180. -/
def storeLanes (x : Ctx) (s : State) (ls : List StoreLane) : State :=
  ls.foldl (fun s l =>
    if x.atHome then storeHome x s l.2.2.1 l.2.2.2.1
    else storeLane x s l.2.1 l.2.2.1 l.2.2.2.1 l.2.2.2.2) s

/-- What a store performed at home discards (R196): the lanes whose home label does not dominate. -/
def storeLost (x : Ctx) (s : State) (ls : List StoreLane) : List StoreLane :=
  if x.atHome then ls.filter fun l => !dominates (granLabel s.mem l.2.2.1) l.2.2.2.2 else []

/-- The lanes written, the granules that they cover whole healed (R369), and, where a second release of R416 follows, the
mark that the access is held; with what was discarded. -/
def storeAll (x : Ctx) (s0 : State) (size : Nat) (ls : List StoreLane) : State × Failed :=
  let lost := storeLost x s0 ls
  let go := ls.filter fun l => !lost.contains l
  let pas := go.map (·.2.2.1)
  let s := healAll (storeLanes x s0 go) (coveredGranules size (if x.atHome then pas
    else pas.filter fun pa => pa / 2 ^ 20 == x.core))
  (if x.replicated && x.releases then s.modWarp x.wk fun w => { w with passed := 4 :: w.passed } else s,
    lost.map fun l => (l.2.1 / 64 * 64, l.2.2.2.2, granLabel s0.mem l.2.2.1))

/-- The labels of the issuing warp's buffered entries after a store's lanes (R180): for each remote granule its entry's label
joined with the lanes'. -/
def entryLabels (x : Ctx) (s : State) (ls : List (Nat × Label)) : List Label :=
  let es := ((s.warp x.wk).map (·.phase)).getD []
  let far := ls.filter fun l => l.1 / 2 ^ 20 != x.core
  ((far.map (·.1 / 64)).dedup).map fun g =>
    joinAll ((es.filter (·.gran == g)).map (·.lab) ++ (far.filter (·.1 / 64 == g)).map (·.2))

/-- The label of a buffered entry is a result: its handle is allocated, or the store traps LABEL-EXHAUSTED (R209). -/
def bindEntries (x : Ctx) (s : State) (addr : Word) (ls : List (Nat × Label)) : Except Stop State :=
  bindOr x s addr (entryLabels x s ls)

/-- The second release of R416, after a held access with a release part: at the ORD's level when every home slice lies
in its scope, else at the highest declared level. -/
def secondRelease (x : Ctx) (s : State) (pas : List Nat) : Except Stop State :=
  let far := pas.filter fun pa => pa / 2 ^ 20 != x.core
  match x.w.ord with
  | some (_, n) =>
    if x.replicated && x.releases && !far.isEmpty then
      releaseAt x s (if far.all fun pa => inScope x.core (x.lr.scope n) pa then n else x.lr.top) 3 []
    else .ok s
  | none => .ok s

/-- A store after its address check (R186, R189, R198, R199, R416). -/
def storeBody (x : Ctx) (s0 : State) (size : Nat) (mask : List Nat → Mask) (ls : List StoreLane) : Except Stop State :=
  let c := if x.accessHeld then (s0, []) else storeFails x s0 ls
  match c.2 with
  | (l, lab) :: t =>
    x.trapL s0 0x03 (mask ((l :: t.map (·.1)).map (·.1))) (wd (l.2.1 / 64 * 64)) l.2.2.2.2 lab
  | [] => do
    let pas := ls.map (·.2.2.1)
    let s ← orderAccess x c.1 pas
    let s ← ordBefore x s
    let s ← if x.atHome || x.accessHeld then .ok s else do
      let s ← quotaRelease x s pas
      bindEntries x s (wd (((ls.map (·.2.1)).headD 0) / 64 * 64)) (ls.map fun l => (l.2.2.1, l.2.2.2.2))
    let r := if x.accessHeld then (s, []) else storeAll x s size ls
    let s ← releaseDone x r.1 (lowestFailed r.2)
    let s ← secondRelease x s pas
    .ok (ordAfterStore x s pas)

/-- VST of a size (R198). -/
def vst (i : Instr) (size : Nat) (g : BitVec 3) (t : BitVec 6) (b v : BitVec 4) (d : BitVec 5) (s : State) :
    Host.Outcome State Fault Refusal :=
  issue i { rv := t.toNat :: vmRegs v.toNat, rg := [b.toNat], rp := [g.toNat] } (guardLanes s g.toNat) (fun x s => do
    let q := x.w.regs
    let act := lanesOf (x.grp &&& q.getP g.toNat)
    let as_ ← checkAddrs x s size true (act.map fun l => (l, vmAddr q b.toNat v.toNat d.toNat size l))
    storeBody x s size maskOf (as_.map fun p => (p.1, p.2.1, p.2.2, toBytes size (q.getV t.toNat p.1).toNat,
      joinL (q.labV t.toNat p.1) (vmLabel x g.toNat b.toNat v.toNat p.1)))) s

/-- VST.8 (R198). -/
def execVst8 (z : Bool) (g : BitVec 3) (t : BitVec 6) (b i : BitVec 4) (d : BitVec 5) (s : State) :
    Host.Outcome State Fault Refusal := vst (.vst8 z g t b i d) 1 g t b i d s

/-- VST.16 (R198). -/
def execVst16 (z : Bool) (g : BitVec 3) (t : BitVec 6) (b i : BitVec 4) (d : BitVec 5) (s : State) :
    Host.Outcome State Fault Refusal := vst (.vst16 z g t b i d) 2 g t b i d s

/-- VST.32 (R198). -/
def execVst32 (z : Bool) (g : BitVec 3) (t : BitVec 6) (b i : BitVec 4) (d : BitVec 5) (s : State) :
    Host.Outcome State Fault Refusal := vst (.vst32 z g t b i d) 4 g t b i d s

/-- VST.64 (R198). -/
def execVst64 (z : Bool) (g : BitVec 3) (t : BitVec 6) (b i : BitVec 4) (d : BitVec 5) (s : State) :
    Host.Outcome State Fault Refusal := vst (.vst64 z g t b i d) 8 g t b i d s

/-- GST (R199). -/
def execGst (z : Bool) (d b : BitVec 6) (i : BitVec 10) (s : State) : Host.Outcome State Fault Refusal :=
  issue (.gst z d b i) { rg := [d.toNat, b.toNat] } 0 (fun x s => do
    let a := x.w.regs.getG b.toNat + zx i * 8
    let pa ← checkAddr x s a 8 true
    storeBody x s 8 (fun _ => x.grp)
      [(0, a.toNat, pa, toBytes 8 (x.w.regs.getG d.toNat).toNat, groupLabel x [d.toNat, b.toNat])]) s

/-! ## Order and phases -/

/-- The instructions that an ORD may stand before (R200). -/
def takesOrd : Instr → Bool
  | .vldS8 _ _ _ _ _ _ _ | .vldZ8 _ _ _ _ _ _ _ | .vldS16 _ _ _ _ _ _ _ | .vldZ16 _ _ _ _ _ _ _ => true
  | .vld32 _ _ _ _ _ _ _ | .vld64 _ _ _ _ _ _ _ => true
  | .vst8 _ _ _ _ _ _ | .vst16 _ _ _ _ _ _ | .vst32 _ _ _ _ _ _ | .vst64 _ _ _ _ _ _ => true
  | .gld _ _ _ _ _ | .gst _ _ _ _ => true
  | .atom _ _ _ _ _ _ _ | .atomr _ _ _ _ _ _ _ _ | .atomXadd _ _ _ _ _ => true
  | .xclr _ _ _ _ | .xrnd _ _ _ _ _ _ => true
  | _ => false

/-- ORD (R200): the order and level of the next instruction of the clause. -/
def execOrd (z : Bool) (o l : BitVec 3) (s : State) : Host.Outcome State Fault Refusal :=
  issue (.ord z o l) {} 0 (fun x s =>
    let next := match (x.run.wordAt (x.pc + 4)).bind decode with
      | some i => takesOrd i
      | none => false
    if z || !next || !x.lr.declared l.toNat then x.trapG s 0x02
    else .ok (s.modWarp x.wk fun w => { w with ord := some (o.toNat, l.toNat) })) s

/-- PHREL (R201): a release at level n. -/
def execPhrel (z : Bool) (l : BitVec 3) (s : State) : Host.Outcome State Fault Refusal :=
  issue (.phrel z l) {} 0 (fun x s =>
    if x.lr.declared l.toNat then releaseAt x s l.toNat 2 [] else x.trapG s 0x02) s

/-- PHACQ (R201): an acquire at level n. -/
def execPhacq (z : Bool) (l : BitVec 3) (s : State) : Host.Outcome State Fault Refusal :=
  issue (.phacq z l) {} 0 (fun x s =>
    if x.lr.declared l.toNat then .ok (acquireAt x s l.toNat) else x.trapG s 0x02) s

/-- PHASE (R201): PHREL, then PHACQ. -/
def execPhase (z : Bool) (l : BitVec 3) (s : State) : Host.Outcome State Fault Refusal :=
  issue (.phase z l) {} 0 (fun x s =>
    if x.lr.declared l.toNat then do
      let s ← releaseAt x s l.toNat 2 []
      .ok (acquireAt x s l.toNat)
    else x.trapG s 0x02) s

/-! ## The stack (R178, R202, R203) -/

/-- The virtual slice number of the block's own slice (R62, R172). -/
def ownSlice (x : Ctx) : Nat := if x.lr.clustered then x.lr.lvl x.blk.b 2 else 0

/-- The physical address of `n` bytes of the block's own window from a Gallery address. -/
def ownPa (x : Ctx) (a n : Nat) : Option Nat :=
  let base := ownSlice x * 2 ^ 20
  if base ≤ a ∧ a + n ≤ base + 4096 * x.lr.win then some (x.core * 2 ^ 20 + (a - base)) else none

/-- ENTER (R202): a new frame of 16 * n bytes, the old frame pointer saved at its top. -/
def execEnter (z : Bool) (n : BitVec 13) (s : State) : Host.Outcome State Fault Refusal :=
  issue (.enter z n) { rg := [62, 63], wg := [62, 63] } 0 (fun x s =>
    let q := x.w.regs
    let sp := q.getG 63
    let t := sp - wd (16 * n.toNat)
    if bits sp 0 4 ≠ 0 then x.trap s 0x0B x.grp sp 0
    else if sp.toNat < 16 * n.toNat + x.w.slim.toNat then x.trap s 0x0A x.grp t 0
    else match ownPa x t.toNat (16 * n.toNat) with
      | none => x.trap s 0x08 x.grp t 0
      | some p => do
        let pa := p + 16 * n.toNat - 8
        let s ← orderAccess x s [pa]
        let raised := joinAll [granLabel s.mem pa, q.labG 62, x.wcl]
        let lab := joinL (q.labG 63) x.wcl
        match bindLabels s x.asid [raised, lab] with
        | none => x.trapG s 0x07
        | some s =>
          let s := homeWrite { s with mem := setGranLabel s.mem pa raised } pa (toBytes 8 (q.getG 62).toNat)
          .ok (s.modWarp x.wk fun w => { w with regs := (w.regs.setG 62 sp lab).setG 63 t lab })) s

/-- Dwords of the stack read for lanes as they stand (log entry 20), each with its granule's label: lane, value, label. -/
def dwordsAt (x : Ctx) (s : State) (ls : List LaneOp) : State × List (Nat × Word × Label) :=
  let r := readEach x.core 8 false s (ls.map (·.pa)).dedup
  (r.1, ls.map fun l =>
    let q := (r.2.lookup l.pa).getD ⟨[], [], false⟩
    (l.lane, wd (ofBytes q.bytes), q.lab))

/-- The stack's dwords for lanes: in a replicated launch those of external bytes are read once (R336, R343). -/
def stackWords (x : Ctx) (s : State) (ls : List LaneOp) : Except Stop (State × List (Nat × Word × Label)) :=
  let far := if x.replicated then ls.filter fun l => externalEntry x (l.pa / 64) else []
  if far.isEmpty then .ok (dwordsAt x s ls)
  else do
    let r ← onceOp x s (ls.map (laneRecord x)) fun s =>
      let q := dwordsAt x s far
      .ok (q.1, q.2.map (·.2.1), q.2.map (·.2.2))
    let near := dwordsAt x r.1 (ls.filter fun l => !far.contains l)
    .ok (near.1, near.2 ++ (far.zip (r.2.1.zip r.2.2)).map fun p => (p.1.lane, p.2))

/-- LEAVE (R202): the frame is removed and the saved frame pointer restored. -/
def execLeave (z : Bool) (n : BitVec 13) (s : State) : Host.Outcome State Fault Refusal :=
  issue (.leave z n) { rg := [62, 63], wg := [62, 63] } 0 (fun x s => do
    let q := x.w.regs
    let fp := q.getG 62
    let pa ← checkAddr x s (fp - 8) 8 false
    let s ← orderAccess x s [pa]
    if fp ≠ q.getG 63 + wd (16 * n.toNat) then x.trapG s 0x02
    else
      do
        let r ← stackWords x s [⟨0, (fp - 8).toNat, pa, 0, 0, q.labG 62, [fp]⟩]
        let v := r.2.headD (0, 0, [])
        let lab := joinL (q.labG 62) x.wcl
        let vlab := joinL v.2.2 x.wcl
        match bindLabels r.1 x.asid [lab, vlab] with
        | none => x.trapG s 0x07
        | some s => .ok (s.modWarp x.wk fun w =>
          { w with regs := (w.regs.setG 63 fp lab).setG 62 v.2.1 vlab })) s

/-- The Gallery address of slot k (R203). -/
def slotGa (x : Ctx) (k : BitVec 8) : Word := x.w.regs.getG 63 + wd (256 * k.toNat)

/-- The lanes of the issuing group with their words of slot k, after the checks (R176, R203): the addresses first, then the
frame. -/
def checkSlot (x : Ctx) (s : State) (k : BitVec 8) (wr : Bool) : Except Stop (List (Nat × Nat × Nat)) := do
  let a := slotGa x k
  let as_ ← checkAddrs x s 8 wr ((lanesOf x.grp).map fun l => (l, a + wd (8 * l)))
  if a.toNat < (x.w.regs.getG 63).toNat || decide ((x.w.regs.getG 62).toNat < a.toNat + 272) then x.trap s 0x0A x.grp a 0
  else .ok as_

/-- The granules of a slot at a Gallery address, with their physical addresses: those that the block may access. -/
def slotGranules (x : Ctx) (s : State) (a : Nat) : List (Nat × Nat) :=
  ((List.range ((a + 255) / 64 - a / 64 + 1)).map (a / 64 + ·)).filterMap fun g =>
    (galPa x s (g * 64) 1 true).map fun pa => (g, pa)

/-- The labels that SPILL raises a slot's granules to (R203): for each granule its physical address, and the join of its own
label with those of the lanes stored in it. -/
def slotLabels (x : Ctx) (s : State) (v a : Nat) (as_ : List (Nat × Nat × Nat)) : List (Nat × Label) :=
  (slotGranules x s a).map fun q => (q.2, joinAll ([granLabel s.mem q.2, x.w.regs.labG 63, x.wcl] ++
    (as_.filter (·.2.1 / 64 == q.1)).map (x.w.regs.labV v ·.1)))

/-- SPILL (R203): the slot's granule labels are raised, then the group's lanes store Va. -/
def execSpill (z : Bool) (v : BitVec 6) (k : BitVec 8) (s : State) : Host.Outcome State Fault Refusal :=
  issue (.spill z v k) { rv := [v.toNat], rg := [62, 63] } (groupLanes s) (fun x s => do
    let q := x.w.regs
    let as_ ← checkSlot x s k true
    let pas := as_.map (·.2.2)
    let s ← orderAccess x s pas
    let s ← quotaRelease x s pas
    let raised := slotLabels x s v.toNat (slotGa x k).toNat as_
    let lab (l : Nat) : Label := joinAll [q.labV v.toNat l, q.labG 63, x.wcl]
    let s ← bindEntries x s (slotGa x k) (as_.map fun p => (p.2.2, lab p.1))
    match bindLabels s x.asid (raised.map (·.2)) with
    | none => x.trapG s 0x07
    | some s =>
      let s := raised.foldl (fun s p =>
        dropSnapshot { s with mem := setGranLabel s.mem p.1 p.2 } x.core p.1) s
      let s := as_.foldl (fun s p => storeLane x s p.2.1 p.2.2 (toBytes 8 (q.getV v.toNat p.1).toNat) (lab p.1)) s
      .ok (healAll s (coveredGranules 8 (pas.filter fun pa => pa / 2 ^ 20 == x.core)))) s

/-- FILL (R203): the group's lanes load Vd, each with the label of its slot granule. -/
def execFill (z : Bool) (v : BitVec 6) (k : BitVec 8) (s : State) : Host.Outcome State Fault Refusal :=
  issue (.fill z v k) { rg := [62, 63], wv := [v.toNat] } 0 (fun x s => do
    let as_ ← checkSlot x s k false
    let s ← orderAccess x s (as_.map (·.2.2))
    let r ← stackWords x s (as_.map fun a => ⟨a.1, a.2.1, a.2.2, 0, 0, x.w.regs.labG 63, [x.w.regs.getG 63]⟩)
    writeV x r.1 v.toNat (r.2.map fun p => (p.1, p.2.1, joinAll [p.2.2, x.w.regs.labG 63, x.wcl]))) s

end Sys2Proof.Machine
end

