-- ==== Sys2Proof/Machine/Flowstone.lean ====
section
/-! DEFINITION. Flowstone's instructions (R279, R292 to R295): loading and removing rules, FLUSHW and RULEQ. -/
namespace Sys2Proof.Machine

/-! ## Generations (R279) -/

/-- Some placed block of a partition matches against a generation. -/
def genUsed (s : State) (part gen : Nat) : Bool :=
  s.launches.any fun l => (s.asidOf l.2.asid).part == part &&
    l.2.gangs.any fun g => g.2.gen == gen && !g.2.ended && !g.2.cores.isEmpty

/-- The generations left once the oldest ones without a placed block are gone; the newest one stays. -/
def liveGens (s : State) (part : Nat) : Tab (Tab Word) → Tab (Tab Word)
  | [] => []
  | g :: t => if !t.isEmpty && !genUsed s part g.1 then liveGens s part t else g :: t

/-- A rule table with entries from index `f` on replaced by the dwords given. -/
def withEntries (tbl : Tab Word) (f : Nat) (ds : List Word) : Tab Word :=
  ds.zipIdx.foldl (fun t p => aset 0 t (8 * f + p.2) p.1) tbl

/-- A new generation with entries replaced, if fewer than four exist (R279). -/
def formGen (s : State) (part f : Nat) (ds : List Word) : Option State :=
  let p := s.partOf part
  let gens := liveGens s part p.gens
  if gens.length < 4 then
    some ((nextSeq s).1.modPart part fun q => { q with
      gens := kset gens (p.gen + 1) (withEntries (aget [] p.gens p.gen) f ds)
      gen := p.gen + 1 })
  else none

/-- A fifth generation would be needed while the issuing block uses the oldest (R279). -/
def usesOldest (x : Ctx) (s : State) : Bool :=
  let gens := liveGens s (x.part s) (s.partOf (x.part s)).gens
  decide (4 ≤ gens.length) && (gens.headD (0, [])).1 == x.gang.gen

/-- A generation formed at once, or the request held until the oldest one ends (R292, R377). -/
def formOrHold (x : Ctx) (s : State) (f : Nat) (ds : List Word) : State × List Word :=
  let s := markPublished x s
  match formGen s (x.part s) f ds with
  | some s => (s, 0 :: ds)
  | none => (s, 1 :: ds)

/-- A warp's request held before its next clause (R377). -/
def holdRules (x : Ctx) (s : State) (kind f : Nat) (ds : List Word) : State :=
  s.modWarp x.wk fun w =>
    { w with held := w.held ++ [⟨kind, x.newPend none (.etail ⟨0, 0, 0, 0, 0, [], []⟩) [] 0 w.issued, f, ds⟩] }

/-- The checks of RULELD and RULEOFF on the range operand (R292, R293). -/
def rangeOk (v : Word) : Bool := bits v 16 48 == 0 && decide (bits v 0 8 + bits v 8 8 ≤ 255)

/-- The lowest entry of some dwords that breaks R284. -/
def badEntry (ds : List Word) : Option Nat :=
  (List.range (ds.length / 8)).find? fun i => !ruleOk ((ds.drop (8 * i)).take 8)

/-! ## Instructions -/

/-- RULELD's read of its entries, granule by granule, as a load would (R179, R181). -/
def readEntries (core : Nat) (s : State) : List Nat → State × List Word
  | [] => (s, [])
  | pa :: t =>
    let r := readAccess s core pa 64 false
    let q := readEntries core r.1 t
    (q.1, (List.range 8).map (fun i => dwordAt r.2.bytes (8 * i)) ++ q.2)

/-- RULELD (R292); performed once for all replicas (R343). -/
def execRuleld (z : Bool) (a b : BitVec 6) (s : State) : Host.Outcome State Fault Refusal :=
  issue (.ruleld z a b) { rg := [a.toNat, b.toNat] } 0 (fun x s => do
    let q := x.w.regs
    let ga := q.getG a.toNat
    let v := q.getG b.toNat
    let n := bits v 8 8 + 1
    if !x.la.rulesRight then x.trap s 0x13 x.grp 0 0
    else if ga.toNat % 64 ≠ 0 then x.trap s 0x0B x.grp ga 0
    else if !rangeOk v then x.trapG s 0x02
    else match galGranules x s ga.toNat (64 * n) false with
      | none => x.trap s 0x08 x.grp ga 0
      | some pas => do
        let lab := joinAll (pas.map (granLabel s.mem) ++ [q.labG a.toNat, q.labG b.toNat, x.wcl])
        if lab ≠ [] then x.trapL s 0x05 x.grp ga lab []
        else
          let s ← orderAccess x s pas
          let r ← onceOp x s [opRecord x [] ga.toNat [ga, v]] fun s =>
            let e := readEntries x.core s pas
            if (badEntry e.2).isSome || usesOldest x e.1 then .ok (e.1, 2 :: e.2, [])
            else
              let g := formOrHold x e.1 (bits v 0 8) e.2
              .ok (g.1, g.2, [])
          let ds := r.2.1.drop 1
          let st := nth 0 r.2.1 0
          if st = 0 then .ok r.1
          else if st = 1 then .ok (holdRules x r.1 1 (bits v 0 8) ds)
          else match badEntry ds with
            | some i => .error (.trap { x.mkTrap 0x02 with rule := some (bits v 0 8 + i) } r.1)
            | none => x.trapG r.1 0x02) s

/-- RULEOFF (R293). -/
def execRuleoff (z : Bool) (a : BitVec 6) (s : State) : Host.Outcome State Fault Refusal :=
  issue (.ruleoff z a) { rg := [a.toNat] } 0 (fun x s => do
    let v := x.w.regs.getG a.toNat
    let lab := joinL (x.w.regs.labG a.toNat) x.wcl
    let ds : List Word := List.replicate (8 * (bits v 8 8 + 1)) 0
    if !x.la.rulesRight then x.trap s 0x13 x.grp 0 0
    else if !rangeOk v then x.trapG s 0x02
    else if lab ≠ [] then x.trapL s 0x05 x.grp 0 lab []
    else
      let r ← onceOp x s [opRecord x [] v.toNat [v]] fun s =>
        if usesOldest x s then .ok (s, [2], [])
        else
          let g := formOrHold x s (bits v 0 8) ds
          .ok (g.1, [nth 0 g.2 0], [])
      let st := nth 0 r.2.1 0
      if st = 0 then .ok r.1
      else if st = 1 then .ok (holdRules x r.1 2 (bits v 0 8) ds)
      else x.trapG r.1 0x02) s

/-- FLUSHW (R294): a flush point, and nothing else. -/
def execFlushw (z : Bool) (s : State) : Host.Outcome State Fault Refusal :=
  issue (.flushw z) {} 0 (fun _ s => .ok s) s

/-- RULEQ (R295). -/
def execRuleq (z : Bool) (d a : BitVec 6) (s : State) : Host.Outcome State Fault Refusal :=
  issue (.ruleq z d a) { rg := [a.toNat], wg := [d.toNat] } 0 (fun x s =>
    let t := (x.w.regs.getG a.toNat).toNat
    if t ≤ 0xFF then
      writeG x s d.toNat (ruleDw (gangRules s x.asid x.gang.gen) t 0) (groupLabel x [a.toNat])
    else if t ≤ 0x104 then
      writeG x s d.toNat (aget 0 x.w.counters t) (joinL x.w.slab (groupLabel x [a.toNat]))
    else x.trapG s 0x02) s

end Sys2Proof.Machine
end

