-- ==== Sys2Proof/Machine/Record.lean ====
section
/-! DEFINITION. Launch records: their fields (R52 to R54), the tests of R59, verdict words (R60), and the completion word
of a launch (R65). -/
namespace Sys2Proof.Machine

/-! ## Fields -/

/-- The fields of a 512-byte launch record (R52). -/
def recordFields (bs : List Byte) : LRec :=
  let lx := numAt bs 0x3C 4
  { flags := numAt bs 4 4
    entry := dwordAt bs 8
    trapent := dwordAt bs 0x10
    cword := dwordAt bs 0x18
    cseq := numAt bs 0x20 6
    arg := dwordAt bs 0x28
    units := numAt bs 0x30 4
    lanes := numAt bs 0x34 1
    permit := numAt bs 0x35 1
    nreg := numAt bs 0x36 1
    ngrant := numAt bs 0x37 1
    win := numAt bs 0x38 2
    stk := numAt bs 0x3A 2
    launchl := lx % 4096
    ownact := lx / 4096
    cred := dwordAt bs 0x40
    grants := (List.range 2).map fun i => dwordAt bs (0x48 + 8 * i)
    deps := (List.range 4).map fun i => (dwordAt bs (0x58 + 16 * i), dwordAt bs (0x60 + 16 * i))
    levels := (List.range 6).map fun i => numAt bs (0x98 + 4 * i) 4
    prins := (List.range 16).map fun i => numAt bs (0xB0 + 4 * i) 4
    regions := (List.range 16).map fun i => (dwordAt bs (0xF0 + 16 * i), dwordAt bs (0xF8 + 16 * i)) }

/-- DIR of a region entry (R54). -/
def regDir (g : Word × Word) : Nat := bits g.1 52 2
/-- BASE of a region entry. -/
def regBase (g : Word × Word) : Nat := bits g.1 0 52
/-- STRIDE of a region entry, in granules. -/
def regStride (g : Word × Word) : Nat := bits g.2 34 30
/-- The length of a region entry, in granules; a field of 0 is 16,384. -/
def regLen (g : Word × Word) : Nat := if bits g.2 20 14 = 0 then 16384 else bits g.2 20 14
/-- OFF of a region entry. -/
def regOff (g : Word × Word) : Nat := bits g.2 0 20

/-- The region entries in use. -/
def LRec.used (r : LRec) : List (Word × Word) := r.regions.take r.nreg

/-! ## The tests of R59 -/

/-- The levels that are declared come first (R48, R52): after the first undeclared level every entry is zero. -/
def levelsTail : List Nat → Bool
  | [] => true
  | e :: t => if lvlCount e = 0 then (e :: t).all (· == 0) else levelsTail t

/-- The fields that must be zero, beside those in unused entries (R52 to R54).  A grant in use whose GLEN is 0, against R53's
"at least 1", is refused here too (log entry 25). -/
def zeroFields (bs : List Byte) (r : LRec) : Bool :=
  r.flags / 32 == 0 && r.flags / 4 % 2 == 0 && numAt bs 0x26 2 == 0 && numAt bs 0x1F0 16 == 0 && r.permit / 32 == 0 &&
  bits r.entry 52 12 == 0 && bits r.entry 0 6 == 0 &&
  r.prins.all (fun p => p / 2 ^ 24 == 0) && r.levels.all (fun e => e / 2 ^ 30 == 0) && levelsTail r.levels &&
  r.grants.zipIdx.all (fun p => if p.2 < r.ngrant then bits p.1 47 17 == 0 && bits p.1 26 20 != 0 else p.1 == 0) &&
  r.regions.zipIdx.all fun p =>
    if p.2 < r.nreg then bits p.1.1 54 10 == 0 && bits p.1.1 0 6 == 0 && bits p.1.2 0 6 == 0 else p.1 == (0, 0)

/-- An address is mapped with write permission in an ASID. -/
def writableVa (s : State) (asid va : Nat) : Bool :=
  match translate s asid va with
  | some p => leafW p.2
  | none => false

/-- Test 2 (RECORD).  NREG, NGRANT and, with TRAPV, TRAPENT are held to their ranges of R52 here (log entry 25). -/
def recordOk (s : State) (asid : Nat) (bs : List Byte) (r : LRec) : Bool :=
  numAt bs 0 4 == 0x4C434A39 && zeroFields bs r && decide (1 ≤ r.lanes) && decide (r.lanes ≤ 32) && r.units != 0 &&
  decide (1 ≤ r.win) && decide (r.win ≤ 256) && decide (r.nreg ≤ 16) && decide (r.ngrant ≤ 2) && r.repl != 0 &&
  (if r.trapv then bits r.trapent 0 2 == 0 && bits r.trapent 52 12 == 0 else r.trapent == 0) &&
  bits r.cword 0 3 == 0 && writableVa s asid r.cword.toNat &&
  r.deps.all (fun d => d.1 == 0 || bits d.1 0 3 == 0) && (setOf (s.asidOf asid).labels r.launchl).isSome

/-- The largest number of blocks in one unit of a domain (R49). -/
def domainLimit (d : Nat) : Nat := nth 0 [1, 4, 160, 640] d

/-- A declared level n above the block keeps to R49. -/
def levelOk (r : LRec) (n : Nat) : Bool :=
  let e := r.level n
  let d := lvlDomain e
  let below := if n = 3 then 0 else lvlDomain (r.level (n - 1))
  decide (1 ≤ d) && decide (d ≤ 4) && decide (lvlScope e ≤ 4) && (d != 1 || n == 3) && decide (below ≤ d) &&
  (d == 4 || decide (r.blocksUpTo n ≤ domainLimit d)) && (d != 4 || (n == r.top && lvlCount e == 1)) &&
  decide (d ≤ lvlScope e) && decide (lvlScope (r.level (n - 1)) ≤ lvlScope e)

/-- Test 3 (HIERARCHY): R48 and R49. -/
def hierarchyOk (r : LRec) : Bool :=
  let e := r.level 2
  decide (1 ≤ lvlCount e) && decide (lvlCount e ≤ 32) && lvlDomain e == 0 && decide (lvlScope e ≤ 4) &&
  ([3, 4, 5, 6, 7].filter (r.declared ·)).all (levelOk r)

/-- No two of some window ranges overlap. -/
def rangesApart : List (Nat × Nat) → Bool
  | [] => true
  | p :: t => t.all (fun q => decide (p.2 ≤ q.1) || decide (q.2 ≤ p.1)) && rangesApart t

/-- Test 4 (REGION). -/
def regionsOk (r : LRec) : Bool :=
  let win := 4096 * r.win
  let stack := 16 * r.stk * lvlCount (r.level 2)
  let span (g : Word × Word) : Nat × Nat := (regOff g, regOff g + 64 * regLen g)
  decide (stack ≤ win) && rangesApart (r.used.map span) &&
  r.used.all fun g => regDir g != 0 && decide ((span g).2 ≤ win) && decide ((span g).2 ≤ win - stack) &&
    (regDir g == 1 || decide (regLen g ≤ regStride g))

/-- Test 5 (CREDENTIAL). -/
def credentialOk (s : State) (asid : Nat) (r : LRec) : Bool :=
  let a := s.asidOf asid
  (if r.cred = 0 then r.ownact == 0 && r.prins.all (· == 0)
   else match kget a.creds r.cred.toNat with
    | none => false
    | some c => (r.ownact == 0 || c.owners.contains r.ownact) &&
        r.prins.all fun p => p == 0 || c.prins.contains p) &&
  (!(r.used.any fun g => regDir g % 2 == 1) || nth 0 r.prins 0 != 0) && (!a.secure || a.key.isSome)

/-- The mirror of a core for replica `k` (R9, R332). -/
def mirrorCore (c k : Nat) : Nat := (c / 160 ^^^ k) * 160 + c % 160

/-- A core of a queue's mask that is not fenced (R57, R371). -/
def inMask (s : State) (q : Queue) (c : Nat) : Bool :=
  decide (c < Config.cores) && q.coreMask.getLsbD c && !(s.core c).fenced

/-- A usable core for a replication factor (R332). -/
def usableCore (s : State) (q : Queue) (repl c : Nat) : Bool :=
  (List.range repl).all fun k => inMask s q (mirrorCore c k)

/-- How many cores meet a condition (test 6). -/
def countCores (p : Nat → Bool) : Nat := ((List.range Config.cores).filter p).length

/-- The parts of a list with `n` elements, in its order. -/
def partsOf : Nat → List Nat → List (List Nat)
  | 0, _ => [[]]
  | _ + 1, [] => []
  | n + 1, a :: t => (partsOf n t).map (a :: ·) ++ partsOf (n + 1) t

/-- The longest list of a collection. -/
def longest : List (List (List Nat)) → List (List Nat)
  | [] => []
  | l :: t => if (longest t).length ≤ l.length then l else longest t

/-- As many gangs of `gb` blocks as fit on the cores of mirrored clusters: `us` gives for each cluster its base and the places in
it that suit replica 0; a gang takes its places in all of them. -/
def packGangs (gb : Nat) : Nat → List (Nat × List Nat) → List (List Nat)
  | 0, _ => []
  | n + 1, us => longest (us.flatMap fun u => (partsOf gb u.2).map fun p =>
      p.map (u.1 + ·) :: packGangs gb n (us.map fun v => (v.1, v.2.filter fun i => !p.contains i)))

/-- The dies whose mirrored cores take part in one placement (R332). -/
def mirrorDies (repl : Nat) : List (List Nat) :=
  if repl ≤ 1 then [[0], [1], [2], [3]] else if repl = 2 then [[0, 1], [2, 3]] else [[0, 1, 2, 3]]

/-- As many gangs of a launch as fit at once, with their mirrors, on the cores that suit replica 0: each in one cluster (R57,
R58, R332). -/
def gangsFit (ok : Nat → Bool) (r : LRec) : List (List Nat) :=
  (mirrorDies r.repl).flatMap fun ds => (List.range 40).flatMap fun k =>
    packGangs r.gangBlocks 4 (ds.map fun d => (160 * d + 4 * k, (List.range 4).filter fun i => ok (160 * d + 4 * k + i)))

/-- The verdict of R59 on a record for a queue: status and detail.  `issuer` is the ASID of a LAUNCH or LSTAT.  COSIDE needs room
for every gang at once (R47, R58). -/
def verdict (s : State) (issuer : Option Nat) (qn : Nat) (bs : List Byte) : Nat × Nat :=
  let q := aget Queue.zero s.hub.queues qn
  let r := recordFields bs
  if !q.en || (match issuer with
      | some a => !q.devq || q.asid != a
      | none => false) then (4, 0x85)
  else if !recordOk s q.asid bs r then (4, 0x80)
  else if !hierarchyOk r then (4, 0x81)
  else if !regionsOk r then (4, 0x82)
  else if !credentialOk s q.asid r then (4, 0x83)
  else if decide (2 ≤ r.repl) && decide (countCores (usableCore s q r.repl) < r.gangBlocks) then (4, 0x84)
  else if r.coside && decide ((gangsFit (usableCore s q r.repl) r).length < r.blocks / r.gangBlocks) then (3, 0)
  else (0, 0)

/-- A verdict word (R60). -/
def verdictWord (v : Nat × Nat) : Word := wd (v.2 * 256 + v.1)

/-! ## Completion (R65) -/

/-- The completion word max-written (R65), or a KIND 4 sump record when it cannot be. -/
def writeCword (s : State) (la : Launch) (st : Nat × Nat) : State :=
  let va := la.record.cword.toNat
  let v := la.record.cseq * 65536 + st.2 * 256 + st.1
  if va % 8 = 0 && writableVa s la.cwordAsid va then
    match readVaNum s la.cwordAsid va 8 with
    | some old => if old < v then writeVaDw s la.cwordAsid va v else s
    | none => s
  else sumpRecord s la.cwordAsid 4 va 0 (match translate s la.cwordAsid va with
    | some p => p.2.tag.toNat
    | none => 0) 0 0

/-- The slots that a queue's HEAD passes once some are consumed (R55). -/
def passSlots : Nat → Queue → Queue
  | 0, q => q
  | n + 1, q => if q.consumed.contains q.head
    then passSlots n { q with head := q.head + 1, consumed := q.consumed.filter (· != q.head) } else q

/-- A queue slot consumed (R55). -/
def consumeSlot (s : State) (qn k : Nat) : State :=
  s.modHub fun h =>
    let q := aget Queue.zero h.queues qn
    if k < q.head || q.tail ≤ k then h
    else
      let q := { q with consumed := insNat k q.consumed }
      { h with queues := aset Queue.zero h.queues qn (passSlots q.consumed.length q) }

/-- A launch completed with a status and detail (R65): its completion word is written and its slot is consumed. -/
def finishLaunch (s : State) (l : Nat) (st : Nat × Nat) : State :=
  match s.launchOf l with
  | none => s
  | some la =>
    let s := writeCword s la st
    let s := s.modLaunch l fun x => { x with completed := some st }
    match la.slot with
    | some k => consumeSlot s la.queue k
    | none => s

/-- A launch taken up at enqueue (R59): its record, its label and its rule-table right as verified then (R292). -/
def newLaunch (s : State) (qn : Nat) (slot : Option Nat) (asid : Nat) (bs : List Byte) (v : Nat × Nat) : Launch :=
  let r := recordFields bs
  let a := s.asidOf asid
  { queue := qn, slot := slot, asid := asid, cwordAsid := asid, record := r
    label := (setOf a.labels r.launchl).getD []
    rulesRight := r.cred != 0 && (match kget a.creds r.cred.toNat with
      | some c => c.rules
      | none => false)
    eligible := false, placed := 0, gangs := [], cancelled := false, stagingFault := false
    completed := none, refused := if v = (0, 0) then none else some v
    bars := [], caps := ⟨[], [], []⟩, vloss := 0, recln := 0, strag := 0 }

/-- A record enqueued with its verdict (R59): a refused launch completes at once. -/
def enqueue (s : State) (la : Launch) : State :=
  let l := s.nextLaunch
  let s := { s with launches := kset s.launches l la, nextLaunch := l + 1 }
  match la.refused with
  | some v => finishLaunch s l v
  | none => s

end Sys2Proof.Machine
end

