-- ==== Sys2Proof/Machine/Sched.lean ====
section
/-! DEFINITION. Which agent moves next (R46, log entry 2), the fetch of its instruction, and the placing of one
instruction for a first step (log entry 8). -/
namespace Sys2Proof.Machine

/-- A warp can take its turn: it runs, waits for nothing between clauses and for no answer of Echo. -/
def Warp.canIssue (w : Warp) : Bool :=
  w.status == .running && (w.trap.isNone || w.request == .trapped) && w.wait == .none &&
  (match w.echo with
    | some e => e.granted
    | none => true)

/-- An operation holds a flag of a wait mask (R27). -/
def holdsFlag (m : BitVec 12) (p : Pend) : Bool :=
  match p.flag with
  | some f => m.getLsbD f
  | none => false

/-- Some flag of a wait mask is pending in a warp (R27). -/
def flagsPending (w : Warp) (m : BitVec 12) : Bool := w.pend.any (holdsFlag m) || w.window.any (holdsFlag m)

/-- The warp whose turn it is, given as State.cur, with the instruction it issues: the next word of its running clause,
or the header at its lane group's PC.  A word that is no instruction of its place gives none. -/
def fetchNext (s : State) : Option Instr :=
  match s.warp s.cur with
  | none => none
  | some w =>
    match ctxOf s s.cur ⟨0, 0, 0, 15, 15, []⟩ 0 with
    | none => none
    | some x =>
      if !w.canIssue then none
      else match w.run with
        | some r => match (r.wordAt r.pos).bind decode with
          | some (.clauseHeader _ _ _ _) => none
          | o => o
        | none =>
          match w.group with
          | none => none
          | some p => match (fetchWord s x.asid p.1).bind decode with
            | some (.clauseHeader a b c d) => some (.clauseHeader a b c d)
            | _ => none

/-- A trap at a clause start, POINT 1 (R357): no instruction of the clause executes; the frame's PC is the header. -/
def startTrap (w : Warp) (hdr : Word) (grp : Mask) (code : Nat) (addr : Word) : Trap :=
  ⟨code, 1, grp, grp, hdr, hdr, addr, 0, none, none, 0, 0, none, none, w.wcl, none, hdr, []⟩

/-- A warp that a trap of Echo awaits (R350, R417) waits between clauses, or for Echo. -/
def trapAwaits (w : Warp) : Bool :=
  w.status == .running && w.request == .trapped && w.trap.isSome &&
  (w.wait != .none || (w.run.isNone && w.group.isNone) || (match w.echo with
    | some e => !e.granted
    | none => false))

/-- An Echo trap of a replica that was stopped away from the event (R350, R417), taken at the clause it would start next. -/
def takeLate (s : State) (k : Nat) (w : Warp) (p : Word) (grp : Mask) : State :=
  match w.trap with
  | some t => takeTrap s k
      { t with point := 1, mask := grp, grp := grp, pc := p, hdr := p, word := 0, run := none, resume := p, tfl := w.wcl }
  | none => s

/-- The turn of a warp that issues nothing: the trap that awaits it where it waits, or the trap of a next clause that has no
header (R26), or no code page under its header (R143). -/
def badStart (s : State) : State :=
  match s.warp s.cur with
  | none => s
  | some w =>
    if trapAwaits w then
      let p := w.nextGroup
      takeLate (s.setWarp s.cur { w with echo := none, wait := .none }) s.cur w p.1 p.2
    else match ctxOf s s.cur ⟨0, 0, 0, 15, 15, []⟩ 0, w.run, w.group with
    | some x, none, some p =>
      if w.canIssue then
        match decodeClause s x.asid p.1 with
        | .error e => takeTrap s s.cur (startTrap w p.1 p.2 e.1 e.2)
        | .ok _ => s
      else s
    | _, _, _ => s

/-- The turn of one warp slot: the state with State.cur at it, and the instruction to execute. -/
def turn (s : State) (c slot : Nat) : State × Option Instr :=
  let s := { s with cur := c * 32 + slot }
  match fetchNext s with
  | some i => (s, some i)
  | none => (badStart s, none)

/-- A warp is in the middle of a clause that can go on, or a trap awaits it.  One that waits there for Echo does not keep its
quadrant's slot (R46, R376; log entry 10). -/
def midClause (w : Warp) : Bool := (w.run.isSome && w.canIssue) || trapAwaits w

/-- A warp may take a turn between clauses (R46): an eligible lane, no held request, and no pending flag in its wait mask, but
for one that a windowed tile instruction holds: then the turn flushes the window (R277). -/
def readyWarp (s : State) (k : Nat) (w : Warp) : Bool :=
  w.canIssue && w.run.isNone && w.held.isEmpty &&
  match w.group, ctxOf s k ⟨0, 0, 0, 15, 15, []⟩ 0 with
  | some p, some x =>
    (match (fetchWord s x.asid p.1).bind decode with
      | some (.clauseHeader m _ _ _) => !flagsPending w m || w.window.any (holdsFlag m)
      | _ => true)
  | _, _ => false

/-- The warp of quadrant `q` of core `c` that issues next (R46): the one in the middle of a clause, else the next ready
one after the last granted slot, in increasing slot order. -/
def quadPick (s : State) (c q : Nat) : Option Nat :=
  let slots := (List.range 8).map (8 * q + ·)
  let at_ (n : Nat) (f : Nat → Warp → Bool) : Bool := match s.warp (c * 32 + n) with
    | some w => f (c * 32 + n) w
    | none => false
  match slots.find? fun n => at_ n fun _ w => midClause w with
  | some n => some n
  | none =>
    let last := aget 7 (s.core c).last q
    ((List.range 8).map fun i => 8 * q + (last + 1 + i) % 8).find? fun n => at_ n (readyWarp s)

/-- The quadrants that hold a warp, as core * 4 + quadrant, rising. -/
def quadrants (s : State) : List Nat := s.warps.foldl (fun a p => insNat (p.1 / 8) a) []

/-- The next warp to issue when the agenda is empty: the quadrants take turns, starting after the last one (log entry
2). -/
def pickIssue (s : State) : Option (Nat × Nat) :=
  let qs := quadrants s
  let order := qs.filter (s.rr < ·) ++ qs.filter (· ≤ s.rr)
  order.findSome? fun q => (quadPick s (q / 4) (q % 4)).map fun n => (q, n)

/-- Where a program is placed for a first step: the code page and its first header (log entry 8). -/
def codeVa : Nat := 0x80000

/-- The launch record of a placed program: one block of one warp of one lane, one 4 KiB window. -/
def placedRecord : LRec :=
  ⟨1, wd codeVa, 0, 0, 0, 0, 1, 1, 0, 0, 0, 1, 0, 0, 0, 0, [], [], [1], [], []⟩

/-- The gang of a placed program: core 0. -/
def placedGang : Gang :=
  ⟨[[0]], true, false, false, [], none, none, false, false, [], [0], 0, 0, false, [], false, none, (0, 0, 0), none, []⟩

/-- The launch of a placed program. -/
def placedLaunch : Launch :=
  ⟨0, none, 0, 0, placedRecord, [], false, true, 1, [(0, placedGang)], false, false, none, none, [], ⟨[], [], []⟩,
    0, 0, 0⟩

/-- The warp of a placed program: lane 0 at the first header; in the middle of the clause unless the word is itself a
header. -/
def placedWarp (words : List (BitVec 32)) (inClause : Bool) : Warp :=
  { Warp.zero with
    pc := [(0, wd codeVa)]
    exited := 0xFFFFFFFE#32
    run := if inClause then some ⟨wd codeVa, wd (codeVa + 4), 1, 0, 1, words⟩ else none }

/-- The words of the placed clause: the instruction after a header that selects F0 and F1, then NOP as the boundary;
a header stands first, before its live descriptor if it has one. -/
def placedWords (w : BitVec 32) : List (BitVec 32) :=
  match decode w with
  | some (.clauseHeader _ _ _ sf) => if sf = 1#1 then [w, 0, 0xCF800000#32] else [w, 0xCF800000#32]
  | _ => [0xBF800008#32, w, 0xCF800000#32]

/-- The word is a clause header. -/
def isHeader (w : BitVec 32) : Bool :=
  match decode w with
  | some (.clauseHeader _ _ _ _) => true
  | _ => false

/-- Where the placed program's page tables stand: its level-1 table, and after it those of levels 2 and 3. -/
def placedTables : Nat := 0x1000000

/-- The page tables of the placed program: two pointers and the leaf of its code page. -/
def State.placeTables (s : State) : State :=
  ((s.setPte placedTables 0 ⟨wd (placedTables + 0x10000 + 1), 0⟩).setPte (placedTables + 0x10000) 0
    ⟨wd (placedTables + 0x20000 + 1), 0⟩).setPte (placedTables + 0x20000) 1 ⟨0x8000D#64, 0⟩

/-- A state with one instruction placed so that the very next step runs it (log entry 8): its code page in ASID 0 and the
tables that lead to it, a launch with one block on core 0, and the turn of warp slot 0. -/
def placeWord (s : State) (w : BitVec 32) : State :=
  let s := { s with mem := s.mem.writeDram codeVa ((placedWords w).flatMap wordBytes) }
  let s := (s.modAsid 0 fun a => { a with valid := true, ptroot := wd placedTables }).placeTables
  let s := s.modCore 0 fun c => { c with block := some ⟨0, 0, 0, true⟩ }
  let s := s.setWarp 0 (placedWarp (placedWords w) (!isHeader w))
  { s with
    launches := kset s.launches 0 placedLaunch, nextLaunch := max s.nextLaunch 1, cur := 0, agenda := [.issue 0 0] }

end Sys2Proof.Machine
end

