-- ==== Sys2Proof/Machine/Quiet.lean ====
section
/-! DEFINITION. When a warp that is to stop has stopped (R376, R377): quiescence, and the waits that are withdrawn
(R241, R265, R345, R377). -/
namespace Sys2Proof.Machine

/-- A pending operation whose wait is withdrawn when its warp stops: a push or pop that waits on its ring (R241), a LAUNCH
that waits for a slot (R377). -/
def withdrawable (p : Pend) : Bool :=
  p.stage == 0 && match p.work with
    | .push _ _ => true
    | .pop _ _ _ => true
    | .launch _ _ _ _ => true
    | _ => false

/-- The wait mask of a warp's next clause. -/
def nextMask (s : State) (k : Nat) (w : Warp) : BitVec 12 :=
  match w.group, ctxOf s k ⟨0, 0, 0, 15, 15, []⟩ 0 with
  | some p, some x => match (fetchWord s x.asid p.1).bind decode with
    | some (.clauseHeader m _ _ _) => m
    | _ => 0
  | _, _ => 0

/-- A warp's next clause waits for an operation that can be withdrawn: on a ring, for a slot, or for a tile (R265). -/
def waitsWithdrawable (s : State) (k : Nat) (w : Warp) : Bool :=
  let m := nextMask s k w
  let held (p : Pend) : Bool := match p.flag with
    | some f => m.getLsbD f
    | none => false
  let tiles := (s.core (k / 32)).allocs.contains k
  w.pend.any fun p => held p && (withdrawable p || (tiles && (tileOf p).isSome))

/-- A warp waits for an answer of Echo that has not come (R345). -/
def waitsEcho (w : Warp) : Bool :=
  match w.echo with
  | some e => !e.granted
  | none => false

/-- Every live replica has reached the event that a replica's warp waits for, and Echo answers it (R345), as it answers one
that it has kept (R351): such a rendezvous is not withdrawn. -/
def reachedByAll (s : State) (k : Nat) : Bool :=
  match ctxOf s k ⟨0, 0, 0, 15, 15, []⟩ 0 with
  | some x => !x.gang.ended && x.gang.kill.isNone && x.gang.echoFail.isNone && (x.lags x.blk.rep || x.gang.live.all fun r =>
      x.lags r || ((replicaWarp x r).bind s.warp).any fun w => w.echo.isSome)
  | none => false

/-- A warp is quiescent (R376). -/
def quiescent (s : State) (k : Nat) (w : Warp) : Bool :=
  w.status == .halted ||
  (w.status == .running && w.trap.isNone &&
    ((waitsEcho w && !reachedByAll s k) || (match w.wait with
        | .bar _ _ => true
        | .seq _ _ _ _ => true
        | _ => false) ||
      (w.run.isNone && (w.group.isNone || !w.held.isEmpty || waitsWithdrawable s k w))))

/-- A warp whose parked groups wake. -/
def Warp.wakeAll (w : Warp) : Warp := { w with parked := w.parked.map fun q => { q with woken := true } }

/-- A warp has stopped for good or for a while, or has ended: nothing of it runs. -/
def Warp.atRest (w : Warp) : Bool := w.status != .running || w.live == 0

/-- A warp's pending operations have ended, but for those withdrawn: waits on rings and queues, and, for a warp whose
allocation waits, its tile instructions (R265, R379). -/
def drained (s : State) (p : Nat × Warp) : Bool :=
  p.2.pend.all fun q => withdrawable q || ((tileOf q).isSome && (s.core (p.1 / 32)).allocs.contains p.1)

/-- The matrix engine has executed a warp's tile instructions, or holds them behind an allocation that waits (R265). -/
def tilesAtRest (s : State) (k : Nat) : Bool :=
  let c := s.core (k / 32)
  c.allocs.contains k || !c.engine.any (·.warp == k)

/-- A warp of a cancelled launch. -/
def cancelledWarp (s : State) (k : Nat) : Bool :=
  match (s.core (k / 32)).block with
  | some b => match s.launchOf b.launch with
    | some la => la.cancelled
    | none => false
  | none => false

/-- A warp has stopped, or was asked to stop and now waits between clauses (R365, R370, R376). -/
def standsStill (s : State) (p : Nat × Warp) : Bool :=
  p.2.atRest ||
  ((p.2.request == .stopped || p.2.request == .frozen || cancelledWarp s p.1) && quiescent s p.1 p.2)

/-- The warps of one block, by key. -/
def blockWarps (s : State) (core : Nat) : List (Nat × Warp) := s.warps.filter fun p => p.1 / 32 == core

/-- The cores of a gang, in every replica. -/
def Gang.allCores (g : Gang) : List Nat := g.cores.flatten

/-- The warps of a gang, by key. -/
def gangWarps (s : State) (g : Gang) : List (Nat × Warp) := s.warps.filter fun p => g.allCores.contains (p.1 / 32)

/-- A rendezvous that not every replica has reached is withdrawn with its event (R345). -/
def withdrawEcho (w : Warp) : Warp :=
  if waitsEcho w then { w with echo := none, events := w.events - 1 } else w

/-- The launch whose block a warp's core holds. -/
def launchOn (s : State) (k : Nat) : Option Launch := (s.core (k / 32)).block.bind fun b => s.launchOf b.launch

/-- A warp that is to stop at the first moment of R376 and has become quiescent: it stops, for good when its launch was
cancelled (R73), else for the pre-emption of its partition. -/
def dueStop (s : State) (p : Nat × Warp) : Nat × Warp :=
  match launchOn s p.1 with
  | none => p
  | some la =>
    if p.2.live == 0 || !quiescent s p.1 p.2 then p
    else if la.cancelled then (p.1, { p.2 with status := .stopped })
    else if p.2.status == .running && p.2.request == .preempted && (s.partOf (s.asidOf la.asid).part).state == 2 then
      (p.1, { withdrawEcho p.2 with status := .preempted, request := .running })
    else p

/-- Some warps may be due to stop: a partition is stopping, or a launch was cancelled and has not completed. -/
def mayStop (s : State) : Bool :=
  (s.hub.parts.any fun p => p.2.state == 2) || s.launches.any fun p => p.2.cancelled && p.2.completed.isNone

/-- Every warp that is due to stop stopped (R73, R376). -/
def settleStops (s : State) : State := if mayStop s then { s with warps := s.warps.map (dueStop s) } else s

/-- What follows every step of an agent: the warps that are due to stop do (R376). -/
def settled : Host.Outcome State Fault Refusal → Host.Outcome State Fault Refusal
  | .next s => .next (settleStops s)
  | r => r

/-- Quiescent warps of some cores stopped at once (R73). -/
def stopQuiet (s : State) (cores : List Nat) : State :=
  { s with warps := s.warps.map fun p =>
      if cores.contains (p.1 / 32) && quiescent s p.1 p.2 && p.2.live != 0
      then (p.1, { p.2 with status := .stopped }) else p }

end Sys2Proof.Machine
end

