-- ==== Sys2Proof/Machine/Barrier.lean ====
section
/-! DEFINITION. Barrier units (R242), and what the end of a warp does to barriers, rings and tiles (R166, R239, R255). -/
namespace Sys2Proof.Machine

/-- The key of a level's unit in a launch: unit, level, replica. -/
def barKey (unit level rep : Nat) : Nat := (unit * 8 + level) * 4 + rep

/-- The open phase of a unit (R242). -/
def barPhase (la : Launch) (unit level rep : Nat) : Nat := aget 0 la.bars (barKey unit level rep)

/-- Warps of one level-n unit (R48, R242). -/
def unitWarps (r : LRec) (n : Nat) : Nat := lvlCount (r.level 2) * r.blocksUpTo n

/-- A warp counts as arrived in a phase: it has arrived in more phases than came before it, or it has exited (R242). -/
def arrivedIn (w : Warp) (level phase : Nat) : Bool :=
  decide (phase < aget 0 w.arrivals level) || w.exited == 0xFFFFFFFF#32

/-- The replica whose warps of a block a unit of replica `rep` counts: that one, or, where the block's gang has lost it, the
committing one (log entry 24). -/
def countedRep (la : Launch) (b rep : Nat) : Nat :=
  match kget la.gangs (b / la.record.gangBlocks) with
  | some g => if g.members.contains rep then rep else g.commit
  | none => rep

/-- A block belongs to a level-n unit of a launch, and its replica is the one that replica `rep`'s unit counts: there is one unit
for each replica number (log entry 24). -/
def inUnit (l : Nat) (la : Launch) (unit level rep : Nat) (b : Option Block) : Bool :=
  match b with
  | some b => b.launch == l && b.rep == countedRep la b.b rep && la.record.unitOf b.b level == unit
  | none => false

/-- The warps of a unit that have arrived or exited; an arrival stays counted in a block that is swapped out (R243), and the
warps of a gang that has retired have exited. -/
def unitArrived (s : State) (l : Nat) (la : Launch) (unit level rep : Nat) : Nat :=
  let ph := barPhase la unit level rep
  let here := s.warps.filter fun p =>
    inUnit l la unit level rep (s.core (p.1 / 32)).block && arrivedIn p.2 level ph
  let away := (s.contexts.filter fun c => inUnit l la unit level rep c.block).flatMap fun c =>
    c.warps.filter fun p => arrivedIn p.2 level ph
  let gone := (la.gangs.filter (·.2.ended)).flatMap fun g => g.2.done.filter fun b => la.record.unitOf b level == unit
  here.length + away.length + gone.length * lvlCount (la.record.level 2)

/-- The completion of a phase (R242): when every warp of the unit has arrived or exited, a new phase opens. -/
def barCheck (s : State) (l unit level rep : Nat) : State :=
  match s.launchOf l with
  | none => s
  | some la =>
    if unitArrived s l la unit level rep = unitWarps la.record level then
      s.modLaunch l fun q => { q with bars := aset 0 q.bars (barKey unit level rep) (barPhase q unit level rep + 1) }
    else s

/-- A unit of block `b` checked for every replica: each counts the arrivals of its own warps, or of the committing ones
(log entry 24). -/
def barCheckAll (s : State) (l : Nat) (la : Launch) (b n : Nat) : State :=
  (List.range (max 1 la.record.repl)).foldl (fun s r => barCheck s l (la.record.unitOf b n) n r) s

/-- Every barrier that a warp of block `b` belongs to, checked after it has exited or its replica was lost (R242). -/
def barLevels (s : State) (l : Nat) (la : Launch) (b : Nat) : State :=
  ((List.range 6).map (· + 2)).foldl (fun s n => if la.record.declared n then barCheckAll s l la b n else s) s

/-- The barriers of a warp that has exited (R242). -/
def barExit (s : State) (x : Ctx) : State := barLevels s x.blk.launch x.la x.blk.b

/-- A ring's held slots freed (R237): the slot of its consumer. -/
def freeHeld (r : Ring) : Ring :=
  { r with
    slots := r.slots.filter fun p => p.2 != 3
    owner := r.owner.filter fun p => aget 0 r.slots p.1 != 3 }

/-- The issuing warp as a producer or consumer of rings (R238, R239). -/
def Ctx.producer (x : Ctx) : Producer := (x.blk.launch, x.blk.b, x.w.index, 0)

/-- The warp's replica acts on a ring whose home core holds a block: on its own private copy, or as the committing one (R341,
R344). -/
def ownsRing (x : Ctx) (home : Option Block) : Bool :=
  match home with
  | some b =>
    if b.launch == x.blk.launch && b.b / x.lr.gangBlocks == x.gi then b.rep == x.blk.rep else !x.replicated || x.commits
  | none => !x.replicated || x.commits

/-- A ring without its consumer (R239), whose held slot becomes free (R237). -/
def unbindRing (r : Ring) : Ring := { freeHeld r with consumer := none }

/-- The rings an exited warp consumed lose their consumer (R239), wherever their home is. -/
def ringExit (s : State) (k : Nat) : State :=
  match ctxOf s k ⟨0, 0, 0, 15, 15, []⟩ 0 with
  | none => s
  | some x =>
    if x.w.exited = 0xFFFFFFFF#32 then
      let leave (home : Option Block) (r : Nat × Ring) : Nat × Ring :=
        if r.2.consumer = some x.producer && ownsRing x home then (r.1, unbindRing r.2) else r
      let s := { s with rings := s.rings.map fun (r : Nat × Ring) => leave (s.core (r.1 / 2 ^ 20)).block r }
      s.mapContexts fun c => { c with rings := c.rings.map (leave c.block) }
    else s

/-- The tiles of a warp whose lanes have all exited are freed once its tile instructions have completed (R255). -/
def tileExit (s : State) (k : Nat) : State :=
  match s.warp k with
  | none => s
  | some w =>
    if w.exited = 0xFFFFFFFF#32 && w.window.isEmpty && !(s.core (k / 32)).engine.any (·.warp == k) then
      s.modCore (k / 32) fun c => { c with tiles := c.tiles.filter fun p => match p.2.owner with
        | some o => o.1 != k
        | none => true }
    else s

end Sys2Proof.Machine
end

