-- ==== Sys2Proof/Machine/Integer.lean ====
section
/-! DEFINITION. The integer class (04_integer.md), but for the reductions: uniform instructions R82 to R95, per-lane
instructions R96 to R107. -/
namespace Sys2Proof.Machine

/-! ## Element functions -/

/-- Saturation of an exact value to `n` signed bits (R96). -/
def satS (n : Nat) (i : Int) : Nat := wrap n (clampI (-(2 ^ (n - 1) : Nat)) ((2 ^ (n - 1) : Nat) - 1) i)
/-- Saturation of an exact value to `n` unsigned bits (R96). -/
def satZ (n : Nat) (i : Int) : Nat := (clampI 0 ((2 ^ n : Nat) - 1) i).toNat
/-- A left shift at width `n` (R85, R100). -/
def shlN (n x k : Nat) : Nat := if k < n then x * 2 ^ k % 2 ^ n else 0
/-- A right shift with zero fill at width `n` (R85, R100). -/
def shrN (n x k : Nat) : Nat := if k < n then x / 2 ^ k else 0
/-- A right shift with sign fill at width `n` (R85, R100). -/
def sarN (n x k : Nat) : Nat := wrap n (sval n x / (2 ^ min k n : Nat))
/-- The lesser of two elements, signed (R101). -/
def minS (n x y : Nat) : Nat := if sval n x ≤ sval n y then x else y
/-- The lesser of two elements, unsigned (R101). -/
def minZ (n x y : Nat) : Nat := if uval n x ≤ uval n y then x else y
/-- The greater of two elements, signed (R101). -/
def maxS (n x y : Nat) : Nat := if sval n x ≤ sval n y then y else x
/-- The greater of two elements, unsigned (R101). -/
def maxZ (n x y : Nat) : Nat := if uval n x ≤ uval n y then y else x
/-- The low elements of width `n` widened to twice the width (R107, VEXT). -/
def extElems (n : Nat) (f : Nat → Nat) (x : Word) : Word :=
  wd (packElems (2 * n) ((List.range (32 / n)).map fun k => f (elemOf n k x)))
/-- Elements of width `n` narrowed to half the width, in the low word (R107, VNAR). -/
def narElems (n : Nat) (f : Nat → Nat) (x : Word) : Word :=
  wd (packElems (n / 2) ((List.range (64 / n)).map fun k => f (elemOf n k x)))
/-- Two words, each accumulating four products of signed bytes (R98). -/
def dot4 (v x y : Word) : Word :=
  wd (packElems 32 ((List.range 2).map fun k =>
    wrap 32 ((elemOf 32 k v : Int) + ((List.range 4).map fun j =>
      sval 8 (elemOf 8 (4 * k + j) x) * sval 8 (elemOf 8 (4 * k + j) y)).sum)))

/-! ## Division and bit fields -/

/-- The signed quotient of R83. -/
def divS (x y : Word) : Word := if y = 0 then 0xFFFFFFFFFFFFFFFF#64 else wi (x.toInt.tdiv y.toInt)
/-- The unsigned quotient of R83. -/
def divZ (x y : Word) : Word := if y = 0 then 0xFFFFFFFFFFFFFFFF#64 else wd (x.toNat / y.toNat)
/-- The signed remainder of R83. -/
def remS (x y : Word) : Word := if y = 0 then x else wi (x.toInt.tmod y.toInt)
/-- The unsigned remainder of R83. -/
def remZ (x y : Word) : Word := if y = 0 then x else wd (x.toNat % y.toNat)
/-- POS of a field descriptor (R88). -/
def bfPos (y : Word) : Nat := bits y 0 6
/-- The effective length of a field (R89). -/
def bfLen (y : Word) : Nat := min (bits y 8 7) (64 - bfPos y)
/-- GBFX.Z's field (R89). -/
def bfxZ (x y : Word) : Word := wd (bits x (bfPos y) (bfLen y))
/-- GBFX.S's field (R89). -/
def bfxS (x y : Word) : Word := if bfLen y = 0 then 0 else wi (sval (bfLen y) (bits x (bfPos y) (bfLen y)))
/-- GBFI's result (R89). -/
def bfi (v x y : Word) : Word :=
  let m := wd ((2 ^ bfLen y - 1) * 2 ^ bfPos y)
  (v &&& ~~~m) ||| ((x <<< bfPos y) &&& m)

/-! ## Uniform instructions -/

/-- GADD (R82): the sum modulo 2^64. -/
def execGadd (z : Bool) (d : BitVec 6) (a : BitVec 6) (b : BitVec 6) (s : State) : Host.Outcome State Fault Refusal :=
  gBinary (.gadd z d a b) d a b (fun x y => x + y) s

/-- GADD with an immediate (R82): Ga and the sign-extended imm11. -/
def execGaddImm (z : Bool) (d : BitVec 6) (a : BitVec 6) (i : BitVec 11) (s : State) : Host.Outcome State Fault Refusal :=
  gUnary (.gaddImm z d a i) d a (fun x => x + sx i) s

/-- GSUB (R82): the difference modulo 2^64. -/
def execGsub (z : Bool) (d : BitVec 6) (a : BitVec 6) (b : BitVec 6) (s : State) : Host.Outcome State Fault Refusal :=
  gBinary (.gsub z d a b) d a b (fun x y => x - y) s

/-- GMUL (R82): the low 64 bits of the product. -/
def execGmul (z : Bool) (d : BitVec 6) (a : BitVec 6) (b : BitVec 6) (s : State) : Host.Outcome State Fault Refusal :=
  gBinary (.gmul z d a b) d a b (fun x y => x * y) s

/-- GMULH.S (R82): bits [127:64] of the signed product. -/
def execGmulhS (z : Bool) (d : BitVec 6) (a : BitVec 6) (b : BitVec 6) (s : State) : Host.Outcome State Fault Refusal :=
  gBinary (.gmulhS z d a b) d a b (fun x y => wi (x.toInt * y.toInt / 2 ^ 64)) s

/-- GMULH.Z (R82): bits [127:64] of the unsigned product. -/
def execGmulhZ (z : Bool) (d : BitVec 6) (a : BitVec 6) (b : BitVec 6) (s : State) : Host.Outcome State Fault Refusal :=
  gBinary (.gmulhZ z d a b) d a b (fun x y => wd (x.toNat * y.toNat / 2 ^ 64)) s

/-- GMAD (R82): Gd + Ga * Gb modulo 2^64. -/
def execGmad (z : Bool) (d : BitVec 6) (a : BitVec 6) (b : BitVec 6) (s : State) : Host.Outcome State Fault Refusal :=
  gTernary (.gmad z d a b) d a b (fun v x y => v + x * y) s

/-- GDIV.S (R83): the signed quotient, rounded toward zero. -/
def execGdivS (z : Bool) (d : BitVec 6) (a : BitVec 6) (b : BitVec 6) (s : State) : Host.Outcome State Fault Refusal :=
  gBinary (.gdivS z d a b) d a b (divS) s

/-- GDIV.Z (R83): the unsigned quotient. -/
def execGdivZ (z : Bool) (d : BitVec 6) (a : BitVec 6) (b : BitVec 6) (s : State) : Host.Outcome State Fault Refusal :=
  gBinary (.gdivZ z d a b) d a b (divZ) s

/-- GREM.S (R83): the signed remainder, with the sign of the dividend. -/
def execGremS (z : Bool) (d : BitVec 6) (a : BitVec 6) (b : BitVec 6) (s : State) : Host.Outcome State Fault Refusal :=
  gBinary (.gremS z d a b) d a b (remS) s

/-- GREM.Z (R83): the unsigned remainder. -/
def execGremZ (z : Bool) (d : BitVec 6) (a : BitVec 6) (b : BitVec 6) (s : State) : Host.Outcome State Fault Refusal :=
  gBinary (.gremZ z d a b) d a b (remZ) s

/-- GAND (R84). -/
def execGand (z : Bool) (d : BitVec 6) (a : BitVec 6) (b : BitVec 6) (s : State) : Host.Outcome State Fault Refusal :=
  gBinary (.gand z d a b) d a b (fun x y => x &&& y) s

/-- GOR (R84). -/
def execGor (z : Bool) (d : BitVec 6) (a : BitVec 6) (b : BitVec 6) (s : State) : Host.Outcome State Fault Refusal :=
  gBinary (.gor z d a b) d a b (fun x y => x ||| y) s

/-- GXOR (R84). -/
def execGxor (z : Bool) (d : BitVec 6) (a : BitVec 6) (b : BitVec 6) (s : State) : Host.Outcome State Fault Refusal :=
  gBinary (.gxor z d a b) d a b (fun x y => x ^^^ y) s

/-- GNOT (R84): the bitwise complement. -/
def execGnot (z : Bool) (d : BitVec 6) (a : BitVec 6) (s : State) : Host.Outcome State Fault Refusal :=
  gUnary (.gnot z d a) d a (fun x => ~~~x) s

/-- GSHL (R85): a shift of 64 or more gives 0. -/
def execGshl (z : Bool) (d : BitVec 6) (a : BitVec 6) (b : BitVec 6) (s : State) : Host.Outcome State Fault Refusal :=
  gBinary (.gshl z d a b) d a b (fun x y => shlN 64 x.toNat y.toNat |> wd) s

/-- GSHR (R85): a shift of 64 or more gives 0. -/
def execGshr (z : Bool) (d : BitVec 6) (a : BitVec 6) (b : BitVec 6) (s : State) : Host.Outcome State Fault Refusal :=
  gBinary (.gshr z d a b) d a b (fun x y => shrN 64 x.toNat y.toNat |> wd) s

/-- GSAR (R85): a shift of 64 or more gives copies of bit 63. -/
def execGsar (z : Bool) (d : BitVec 6) (a : BitVec 6) (b : BitVec 6) (s : State) : Host.Outcome State Fault Refusal :=
  gBinary (.gsar z d a b) d a b (fun x y => sarN 64 x.toNat y.toNat |> wd) s

/-- GROT (R85): a rotation left by Gb mod 64. -/
def execGrot (z : Bool) (d : BitVec 6) (a : BitVec 6) (b : BitVec 6) (s : State) : Host.Outcome State Fault Refusal :=
  gBinary (.grot z d a b) d a b (fun x y => x.rotateLeft (y.toNat % 64)) s

/-- GMIN.S (R86). -/
def execGminS (z : Bool) (d : BitVec 6) (a : BitVec 6) (b : BitVec 6) (s : State) : Host.Outcome State Fault Refusal :=
  gBinary (.gminS z d a b) d a b (fun x y => if x.toInt ≤ y.toInt then x else y) s

/-- GMIN.Z (R86). -/
def execGminZ (z : Bool) (d : BitVec 6) (a : BitVec 6) (b : BitVec 6) (s : State) : Host.Outcome State Fault Refusal :=
  gBinary (.gminZ z d a b) d a b (fun x y => if x.toNat ≤ y.toNat then x else y) s

/-- GMAX.S (R86). -/
def execGmaxS (z : Bool) (d : BitVec 6) (a : BitVec 6) (b : BitVec 6) (s : State) : Host.Outcome State Fault Refusal :=
  gBinary (.gmaxS z d a b) d a b (fun x y => if x.toInt ≤ y.toInt then y else x) s

/-- GMAX.Z (R86). -/
def execGmaxZ (z : Bool) (d : BitVec 6) (a : BitVec 6) (b : BitVec 6) (s : State) : Host.Outcome State Fault Refusal :=
  gBinary (.gmaxZ z d a b) d a b (fun x y => if x.toNat ≤ y.toNat then y else x) s

/-- GMOV (R87). -/
def execGmov (z : Bool) (d : BitVec 6) (a : BitVec 6) (s : State) : Host.Outcome State Fault Refusal :=
  gUnary (.gmov z d a) d a (fun x => x) s

/-- GCLZ (R87): leading zeros, 64 for zero. -/
def execGclz (z : Bool) (d : BitVec 6) (a : BitVec 6) (s : State) : Host.Outcome State Fault Refusal :=
  gUnary (.gclz z d a) d a (fun x => wd (clz 64 x.toNat)) s

/-- GPOP (R87): the number of one bits. -/
def execGpop (z : Bool) (d : BitVec 6) (a : BitVec 6) (s : State) : Host.Outcome State Fault Refusal :=
  gUnary (.gpop z d a) d a (fun x => wd (popcount 64 x.toNat)) s

/-- GBFX.S (R89): the field of Ga that Gb describes, sign-extended. -/
def execGbfxS (z : Bool) (d : BitVec 6) (a : BitVec 6) (b : BitVec 6) (s : State) : Host.Outcome State Fault Refusal :=
  gBinary (.gbfxS z d a b) d a b (bfxS) s

/-- GBFX.Z (R89): the field of Ga that Gb describes, zero-extended. -/
def execGbfxZ (z : Bool) (d : BitVec 6) (a : BitVec 6) (b : BitVec 6) (s : State) : Host.Outcome State Fault Refusal :=
  gBinary (.gbfxZ z d a b) d a b (bfxZ) s

/-- GBFI (R89): Gd with the field that Gb describes replaced by Ga. -/
def execGbfi (z : Bool) (d : BitVec 6) (a : BitVec 6) (b : BitVec 6) (s : State) : Host.Outcome State Fault Refusal :=
  gTernary (.gbfi z d a b) d a b (bfi) s

/-- GMOVI (R90): sext(imm17), with label WCL. -/
def execGmovi (z : Bool) (d : BitVec 6) (i : BitVec 17) (s : State) : Host.Outcome State Fault Refusal :=
  gOp (.gmovi z d i) [] d.toNat (fun _ => sx i) s

/-- GMOVH (R90): (Gd << 16) | imm16. -/
def execGmovh (z : Bool) (d : BitVec 6) (i : BitVec 16) (s : State) : Host.Outcome State Fault Refusal :=
  gOp (.gmovh z d i) [d.toNat] d.toNat (fun r => (r d.toNat <<< 16) ||| zx i) s

/-- GLEA (R91): Ga + (Gb << sh). -/
def execGlea (z : Bool) (d : BitVec 6) (a : BitVec 6) (b : BitVec 6) (s0 : BitVec 2) (s : State) : Host.Outcome State Fault Refusal :=
  gBinary (.glea z d a b s0) d a b (fun x y => x + (y <<< s0.toNat)) s

/-- GCMP (R92): 1 when the condition holds of Ga and Gb at 64 bits, else 0. -/
def execGcmp (z : Bool) (d : BitVec 6) (a : BitVec 6) (b : BitVec 6) (c : BitVec 5) (s : State) : Host.Outcome State Fault Refusal :=
  gBinary (.gcmp z d a b c) d a b (fun x y => wd (b2n (intCond c.toNat 64 x.toNat y.toNat))) s

/-- GSEL (R93): Ga when Gc is not zero, else Gb; the label joins all three. -/
def execGsel (z : Bool) (d : BitVec 6) (a : BitVec 6) (b : BitVec 6) (c : BitVec 5) (s : State) : Host.Outcome State Fault Refusal :=
  gOp (.gsel z d a b c) [a.toNat, b.toNat, c.toNat] d.toNat (fun r => if r c.toNat ≠ 0 then r a.toNat else r b.toNat) s

/-- The lane that Gb names for GRDL (R94), when it has not exited: the one lane that is read (R369). -/
def laneNamed (s : State) (b : Nat) : Mask :=
  match issuerOf s with
  | none => 0
  | some x => laneBit (bits (x.w.regs.getG b) 0 5) &&& x.w.live

/-- GRDL (R94): V[a][t] of lane t = Gb[4:0], 0 when that lane has exited; warp-wide. -/
def execGrdl (z : Bool) (d a b : BitVec 6) (s : State) : Host.Outcome State Fault Refusal :=
  issue (.grdl z d a b) { rv := [a.toNat], rg := [b.toNat], wg := [d.toNat] } (laneNamed s b.toNat) (fun x s =>
    let q := x.w.regs
    let t := bits (q.getG b.toNat) 0 5
    if x.w.exited.getLsbD t then writeG x s d.toNat 0 (groupLabel x [b.toNat])
    else writeG x s d.toNat (q.getV a.toNat t) (joinAll [q.labV a.toNat t, q.labG b.toNat, x.w.wcl])) s

/-- GWRL (R94): V[d][t] of lane t = Gb[4:0] receives Ga when the lane is in the issuing group; otherwise no effect. -/
def execGwrl (z : Bool) (d a b : BitVec 6) (s : State) : Host.Outcome State Fault Refusal :=
  issue (.gwrl z d a b) { rg := [a.toNat, b.toNat], wv := [d.toNat] } 0xFFFFFFFF#32 (fun x s =>
    let q := x.w.regs
    let t := bits (q.getG b.toNat) 0 5
    if x.grp.getLsbD t then writeV x s d.toNat [(t, q.getG a.toNat, groupLabel x [a.toNat, b.toNat])]
    else .ok s) s

/-- GBAL (R95): M[d] marks the non-exited lanes whose P[a] is true; warp-wide. -/
def execGbal (z : Bool) (d a : BitVec 3) (s : State) : Host.Outcome State Fault Refusal :=
  issue (.gbal z d a) { rp := [a.toNat], wm := [d.toNat] } 0xFFFFFFFF#32 (fun x s =>
    let q := x.w.regs
    writeM x s d.toNat (x.w.live &&& q.getP a.toNat)
      (joinAll ((lanesOf x.w.live).map (q.labP a.toNat) ++ [x.w.wcl]))) s

/-- GPOPM (R95): the number of set bits of M[a]. -/
def execGpopm (z : Bool) (d : BitVec 6) (a : BitVec 3) (s : State) : Host.Outcome State Fault Refusal :=
  issue (.gpopm z d a) { rm := [a.toNat], wg := [d.toNat] } 0xFFFFFFFF#32 (fun x s =>
    writeG x s d.toNat (wd (popcount 32 (x.w.regs.getM a.toNat).toNat)) (joinAll [x.w.regs.labM a.toNat, x.w.wcl])) s

/-- GFFS (R95): the index of the lowest set bit of M[a], 32 when it is zero. -/
def execGffs (z : Bool) (d : BitVec 6) (a : BitVec 3) (s : State) : Host.Outcome State Fault Refusal :=
  issue (.gffs z d a) { rm := [a.toNat], wg := [d.toNat] } 0xFFFFFFFF#32 (fun x s =>
    writeG x s d.toNat (wd ((lanesOf (x.w.regs.getM a.toNat)).headD 32)) (joinAll [x.w.regs.labM a.toNat, x.w.wcl])) s

/-! ## Per-lane instructions -/

/-- VADD (R96): element sums modulo 2^w. -/
def execVadd (z : Bool) (g : BitVec 3) (d : BitVec 6) (a : BitVec 6) (b : BitVec 6) (w : BitVec 2) (s : State) : Host.Outcome State Fault Refusal :=
  vBinary (.vadd z g d a b w) g d a b (zipElems (widthOf w) fun x y => x + y) s

/-- VADDS.S (R96): signed element sums, saturated. -/
def execVaddsS (z : Bool) (g : BitVec 3) (d : BitVec 6) (a : BitVec 6) (b : BitVec 6) (w : BitVec 2) (s : State) : Host.Outcome State Fault Refusal :=
  vBinary (.vaddsS z g d a b w) g d a b (zipElems (widthOf w) fun x y => satS (widthOf w) (sval (widthOf w) x + sval (widthOf w) y)) s

/-- VADDS.Z (R96): unsigned element sums, saturated. -/
def execVaddsZ (z : Bool) (g : BitVec 3) (d : BitVec 6) (a : BitVec 6) (b : BitVec 6) (w : BitVec 2) (s : State) : Host.Outcome State Fault Refusal :=
  vBinary (.vaddsZ z g d a b w) g d a b (zipElems (widthOf w) fun x y => satZ (widthOf w) ((x : Int) + y)) s

/-- VSUB (R96): element differences modulo 2^w. -/
def execVsub (z : Bool) (g : BitVec 3) (d : BitVec 6) (a : BitVec 6) (b : BitVec 6) (w : BitVec 2) (s : State) : Host.Outcome State Fault Refusal :=
  vBinary (.vsub z g d a b w) g d a b (zipElems (widthOf w) fun x y => x + 2 ^ (widthOf w) - y) s

/-- VSUBS.S (R96): signed element differences, saturated. -/
def execVsubsS (z : Bool) (g : BitVec 3) (d : BitVec 6) (a : BitVec 6) (b : BitVec 6) (w : BitVec 2) (s : State) : Host.Outcome State Fault Refusal :=
  vBinary (.vsubsS z g d a b w) g d a b (zipElems (widthOf w) fun x y => satS (widthOf w) (sval (widthOf w) x - sval (widthOf w) y)) s

/-- VSUBS.Z (R96): unsigned element differences, saturated. -/
def execVsubsZ (z : Bool) (g : BitVec 3) (d : BitVec 6) (a : BitVec 6) (b : BitVec 6) (w : BitVec 2) (s : State) : Host.Outcome State Fault Refusal :=
  vBinary (.vsubsZ z g d a b w) g d a b (zipElems (widthOf w) fun x y => satZ (widthOf w) ((x : Int) - y)) s

/-- VMUL (R97): the low half of each product. -/
def execVmul (z : Bool) (g : BitVec 3) (d : BitVec 6) (a : BitVec 6) (b : BitVec 6) (w : BitVec 2) (s : State) : Host.Outcome State Fault Refusal :=
  vBinary (.vmul z g d a b w) g d a b (zipElems (widthOf w) fun x y => x * y) s

/-- VMULH.S (R97): the high half of each signed product. -/
def execVmulhS (z : Bool) (g : BitVec 3) (d : BitVec 6) (a : BitVec 6) (b : BitVec 6) (w : BitVec 2) (s : State) : Host.Outcome State Fault Refusal :=
  vBinary (.vmulhS z g d a b w) g d a b (zipElems (widthOf w) fun x y => wrap (widthOf w) (sval (widthOf w) x * sval (widthOf w) y / (2 ^ (widthOf w) : Nat))) s

/-- VMULH.Z (R97): the high half of each unsigned product. -/
def execVmulhZ (z : Bool) (g : BitVec 3) (d : BitVec 6) (a : BitVec 6) (b : BitVec 6) (w : BitVec 2) (s : State) : Host.Outcome State Fault Refusal :=
  vBinary (.vmulhZ z g d a b w) g d a b (zipElems (widthOf w) fun x y => x * y / 2 ^ (widthOf w)) s

/-- VMAD (R97): d + a * b modulo 2^w in each element. -/
def execVmad (z : Bool) (g : BitVec 3) (d : BitVec 6) (a : BitVec 6) (b : BitVec 6) (w : BitVec 2) (s : State) : Host.Outcome State Fault Refusal :=
  vTernary (.vmad z g d a b w) g d a b (zip3Elems (widthOf w) fun v x y => v + x * y) s

/-- VDOT4.S8 (R98): each word accumulates a dot product of four signed bytes. -/
def execVdot4S8 (z : Bool) (g : BitVec 3) (d : BitVec 6) (a : BitVec 6) (b : BitVec 6) (s : State) : Host.Outcome State Fault Refusal :=
  vTernary (.vdot4S8 z g d a b) g d a b (dot4) s

/-- VAND (R99). -/
def execVand (z : Bool) (g : BitVec 3) (d : BitVec 6) (a : BitVec 6) (b : BitVec 6) (s : State) : Host.Outcome State Fault Refusal :=
  vBinary (.vand z g d a b) g d a b (fun x y => x &&& y) s

/-- VOR (R99). -/
def execVor (z : Bool) (g : BitVec 3) (d : BitVec 6) (a : BitVec 6) (b : BitVec 6) (s : State) : Host.Outcome State Fault Refusal :=
  vBinary (.vor z g d a b) g d a b (fun x y => x ||| y) s

/-- VXOR (R99). -/
def execVxor (z : Bool) (g : BitVec 3) (d : BitVec 6) (a : BitVec 6) (b : BitVec 6) (s : State) : Host.Outcome State Fault Refusal :=
  vBinary (.vxor z g d a b) g d a b (fun x y => x ^^^ y) s

/-- VSHL (R100): a shift of w or more gives 0. -/
def execVshl (z : Bool) (g : BitVec 3) (d : BitVec 6) (a : BitVec 6) (b : BitVec 6) (w : BitVec 2) (s : State) : Host.Outcome State Fault Refusal :=
  vBinary (.vshl z g d a b w) g d a b (zipElems (widthOf w) (shlN (widthOf w))) s

/-- VSHR (R100): a shift of w or more gives 0. -/
def execVshr (z : Bool) (g : BitVec 3) (d : BitVec 6) (a : BitVec 6) (b : BitVec 6) (w : BitVec 2) (s : State) : Host.Outcome State Fault Refusal :=
  vBinary (.vshr z g d a b w) g d a b (zipElems (widthOf w) (shrN (widthOf w))) s

/-- VSAR (R100): a shift of w or more gives copies of the top bit. -/
def execVsar (z : Bool) (g : BitVec 3) (d : BitVec 6) (a : BitVec 6) (b : BitVec 6) (w : BitVec 2) (s : State) : Host.Outcome State Fault Refusal :=
  vBinary (.vsar z g d a b w) g d a b (zipElems (widthOf w) (sarN (widthOf w))) s

/-- VMIN.S (R101). -/
def execVminS (z : Bool) (g : BitVec 3) (d : BitVec 6) (a : BitVec 6) (b : BitVec 6) (w : BitVec 2) (s : State) : Host.Outcome State Fault Refusal :=
  vBinary (.vminS z g d a b w) g d a b (zipElems (widthOf w) (minS (widthOf w))) s

/-- VMIN.Z (R101). -/
def execVminZ (z : Bool) (g : BitVec 3) (d : BitVec 6) (a : BitVec 6) (b : BitVec 6) (w : BitVec 2) (s : State) : Host.Outcome State Fault Refusal :=
  vBinary (.vminZ z g d a b w) g d a b (zipElems (widthOf w) (minZ (widthOf w))) s

/-- VMAX.S (R101). -/
def execVmaxS (z : Bool) (g : BitVec 3) (d : BitVec 6) (a : BitVec 6) (b : BitVec 6) (w : BitVec 2) (s : State) : Host.Outcome State Fault Refusal :=
  vBinary (.vmaxS z g d a b w) g d a b (zipElems (widthOf w) (maxS (widthOf w))) s

/-- VMAX.Z (R101). -/
def execVmaxZ (z : Bool) (g : BitVec 3) (d : BitVec 6) (a : BitVec 6) (b : BitVec 6) (w : BitVec 2) (s : State) : Host.Outcome State Fault Refusal :=
  vBinary (.vmaxZ z g d a b w) g d a b (zipElems (widthOf w) (maxZ (widthOf w))) s

/-- VSEL (R102): in every lane of the group, Va where P[p] is true and Vb where it is false; the label joins both and
the predicate's. -/
def execVsel (z : Bool) (p : BitVec 3) (d a b : BitVec 6) (s : State) : Host.Outcome State Fault Refusal :=
  issue (.vsel z p d a b) { rv := [a.toNat, b.toNat], rp := [p.toNat], wv := [d.toNat] } (groupLanes s) (fun x s =>
    let q := x.w.regs
    writeV x s d.toNat ((lanesOf x.grp).map fun l =>
      (l, if (q.getP p.toNat).getLsbD l then q.getV a.toNat l else q.getV b.toNat l,
        laneLabel x p.toNat [a.toNat, b.toNat] l))) s

/-- The lanes in which VSHUF.L reads Va (R103, R369): those that the active lanes' Vb name and that have not exited, and, where
Va is Vb too, the active ones. -/
def sourceLanes (s : State) (g a b : Nat) : Mask :=
  match issuerOf s with
  | none => 0
  | some x =>
    let act := x.grp &&& x.w.regs.getP g
    (maskOf ((lanesOf act).map fun l => bits (x.w.regs.getV b l) 0 5) &&& x.w.live) ||| (if a = b then act else 0)

/-- VSHUF.L (R103): each active lane receives Va of the lane that its Vb.w0[4:0] names, 0 from an exited one;
warp-wide. -/
def execVshufL (z : Bool) (g : BitVec 3) (d a b : BitVec 6) (s : State) : Host.Outcome State Fault Refusal :=
  issue (.vshufL z g d a b)
    { rv := [a.toNat, b.toNat], rp := [g.toNat], wv := [d.toNat], cross := [(a.toNat, sourceLanes s g.toNat a.toNat b.toNat)] }
    (guardLanes s g.toNat) (fun x s =>
    let q := x.w.regs
    writeV x s d.toNat ((lanesOf (x.grp &&& q.getP g.toNat)).map fun l =>
      let t := bits (q.getV b.toNat l) 0 5
      let gone := x.w.exited.getLsbD t
      (l, if gone then 0 else q.getV a.toNat t,
        joinAll ((if gone then [] else [q.labV a.toNat t]) ++ [q.labV b.toNat l, q.labP g.toNat l, x.w.wcl])))) s

/-- VSHUF.E (R104): element k receives the element of Va that Vb.e[k] names, modulo the number of elements. -/
def execVshufE (z : Bool) (g : BitVec 3) (d : BitVec 6) (a : BitVec 6) (b : BitVec 6) (w : BitVec 2) (s : State) : Host.Outcome State Fault Refusal :=
  vBinary (.vshufE z g d a b w) g d a b (fun x y => mapElems (widthOf w) (fun e => elemOf (widthOf w) (e % (64 / (widthOf w))) x) y) s

/-- VCMP (R105): the condition on element 0, into Pd; P7 discards it. -/
def execVcmp (z : Bool) (g : BitVec 3) (p : BitVec 3) (c : BitVec 3) (a : BitVec 6) (b : BitVec 6) (w : BitVec 2) (s : State) : Host.Outcome State Fault Refusal :=
  vCompare (.vcmp z g p c a b w) g p a b (fun x y => intCond c.toNat (widthOf w) x.toNat y.toNat) s

/-- VMOVI (R106): sext(imm12) cut to w bits in every element of the active lanes, with the guard's label. -/
def execVmovi (z : Bool) (g : BitVec 3) (d : BitVec 6) (i : BitVec 12) (w : BitVec 2) (s : State) :
    Host.Outcome State Fault Refusal :=
  issue (.vmovi z g d i w) { rp := [g.toNat], wv := [d.toNat] } (guardLanes s g.toNat) (fun x s =>
    laneOp x s g.toNat d.toNat [] fun _ => mapElems (widthOf w) (fun _ => (sx i).toNat) 0) s

/-- VMOV (R107). -/
def execVmov (z : Bool) (g : BitVec 3) (d : BitVec 6) (a : BitVec 6) (s : State) : Host.Outcome State Fault Refusal :=
  vUnary (.vmov z g d a) g d a (fun x => x) s

/-- VNOT (R107). -/
def execVnot (z : Bool) (g : BitVec 3) (d : BitVec 6) (a : BitVec 6) (s : State) : Host.Outcome State Fault Refusal :=
  vUnary (.vnot z g d a) g d a (fun x => ~~~x) s

/-- VABS (R107): the magnitude modulo 2^w; the most negative value gives itself. -/
def execVabs (z : Bool) (g : BitVec 3) (d : BitVec 6) (a : BitVec 6) (w : BitVec 2) (s : State) : Host.Outcome State Fault Refusal :=
  vUnary (.vabs z g d a w) g d a (mapElems (widthOf w) fun x => (sval (widthOf w) x).natAbs) s

/-- VCLZ (R107): leading zeros of each element. -/
def execVclz (z : Bool) (g : BitVec 3) (d : BitVec 6) (a : BitVec 6) (w : BitVec 2) (s : State) : Host.Outcome State Fault Refusal :=
  vUnary (.vclz z g d a w) g d a (mapElems (widthOf w) (clz (widthOf w))) s

/-- VPOP (R107): one bits of each element. -/
def execVpop (z : Bool) (g : BitVec 3) (d : BitVec 6) (a : BitVec 6) (w : BitVec 2) (s : State) : Host.Outcome State Fault Refusal :=
  vUnary (.vpop z g d a w) g d a (mapElems (widthOf w) (popcount (widthOf w))) s

/-- VEXT.S (R107): the low elements, sign-extended to twice their width. -/
def execVextS (z : Bool) (g : BitVec 3) (d : BitVec 6) (a : BitVec 6) (w : BitVec 2) (s : State) : Host.Outcome State Fault Refusal :=
  vUnary (.vextS z g d a w) g d a (extElems (widthOf w) fun x => wrap (2 * (widthOf w)) (sval (widthOf w) x)) s

/-- VEXT.Z (R107): the low elements, zero-extended to twice their width. -/
def execVextZ (z : Bool) (g : BitVec 3) (d : BitVec 6) (a : BitVec 6) (w : BitVec 2) (s : State) : Host.Outcome State Fault Refusal :=
  vUnary (.vextZ z g d a w) g d a (extElems (widthOf w) fun x => x) s

/-- VNAR (R107): the low half of each element, packed into the low word. -/
def execVnar (z : Bool) (g : BitVec 3) (d : BitVec 6) (a : BitVec 6) (w : BitVec 2) (s : State) : Host.Outcome State Fault Refusal :=
  vUnary (.vnar z g d a w) g d a (narElems (widthOf w) fun x => x) s

/-- VNARS (R107): each signed element clamped to half its width, packed into the low word. -/
def execVnars (z : Bool) (g : BitVec 3) (d : BitVec 6) (a : BitVec 6) (w : BitVec 2) (s : State) : Host.Outcome State Fault Refusal :=
  vUnary (.vnars z g d a w) g d a (narElems (widthOf w) fun x => satS ((widthOf w) / 2) (sval (widthOf w) x)) s

/-- VBCAST (R107): every active lane receives G[a]; the label joins Ga's, the guard's and WCL. -/
def execVbcast (z : Bool) (g : BitVec 3) (d a : BitVec 6) (s : State) : Host.Outcome State Fault Refusal :=
  issue (.vbcast z g d a) { rg := [a.toNat], rp := [g.toNat], wv := [d.toNat] } (guardLanes s g.toNat) (fun x s =>
    writeV x s d.toNat ((lanesOf (x.grp &&& x.w.regs.getP g.toNat)).map fun l =>
      (l, x.w.regs.getG a.toNat, joinAll [x.w.regs.labG a.toNat, x.w.regs.labP g.toNat l, x.w.wcl]))) s

end Sys2Proof.Machine
end

