-- ==== Sys2Proof/Machine/Number.lean ====
section
/-! DEFINITION. Number formats (05_numbers.md): exact values, the one rounding of R122, the special functions, blocks
and scales (R113, R114, R139), and the exact-sum cell (R116 to R118). -/
namespace Sys2Proof.Machine

/-! ## Formats (R110 to R112) -/

/-- A floating format: exponent bits, mantissa bits, bias, and its specials: 0 IEEE 754, 1 E4M3's one NaN, 2 none. -/
structure Fmt where
  ew : Nat
  mw : Nat
  bias : Nat
  kind : Nat
  deriving DecidableEq, Repr

/-- FP32. -/
def fp32 : Fmt := ⟨8, 23, 127, 0⟩
/-- BF16. -/
def bf16 : Fmt := ⟨8, 7, 127, 0⟩
/-- FP16. -/
def fp16 : Fmt := ⟨5, 10, 15, 0⟩
/-- FP8 E5M2. -/
def e5m2 : Fmt := ⟨5, 2, 15, 0⟩
/-- FP8 E4M3. -/
def e4m3 : Fmt := ⟨4, 3, 7, 1⟩
/-- FP6 E3M2. -/
def e3m2 : Fmt := ⟨3, 2, 3, 2⟩
/-- FP4 E2M1. -/
def e2m1 : Fmt := ⟨2, 1, 1, 2⟩

/-- The width of a format. -/
def Fmt.width (f : Fmt) : Nat := 1 + f.ew + f.mw

/-- The exponent of the lowest mantissa bit of a subnormal (R111). -/
def Fmt.emin (f : Fmt) : Int := 1 - f.bias - f.mw

/-- The code of the canonical NaN (R112); +0 where the format has none (R135). -/
def Fmt.nan (f : Fmt) : Nat :=
  match f.kind with
  | 0 => (2 ^ f.ew - 1) * 2 ^ f.mw + 2 ^ (f.mw - 1)
  | 1 => 2 ^ (f.ew + f.mw) - 1
  | _ => 0

/-- The magnitude code of the max finite value (R112). -/
def Fmt.maxFinite (f : Fmt) : Nat :=
  match f.kind with
  | 0 => (2 ^ f.ew - 1) * 2 ^ f.mw - 1
  | 1 => 2 ^ (f.ew + f.mw) - 2
  | _ => 2 ^ (f.ew + f.mw) - 1

/-- The sign bit of a format. -/
def Fmt.sign (f : Fmt) (s : Bool) : Nat := b2n s * 2 ^ (f.ew + f.mw)

/-- The code of an infinity of a format with IEEE 754 specials. -/
def Fmt.inf (f : Fmt) (s : Bool) : Nat := f.sign s + (2 ^ f.ew - 1) * 2 ^ f.mw

/-- A decoded value: NaN, an infinity, or (-1)^s * m * 2^e. -/
inductive FVal where
  | nan
  | inf (s : Bool)
  | fin (s : Bool) (m : Nat) (e : Int)
  deriving DecidableEq, Repr

/-- The value of an encoding (R111). -/
def decodeF (f : Fmt) (x : Nat) : FVal :=
  let s := x / 2 ^ (f.ew + f.mw) % 2 == 1
  let e := x / 2 ^ f.mw % 2 ^ f.ew
  let m := x % 2 ^ f.mw
  if f.kind = 0 && e = 2 ^ f.ew - 1 then (if m = 0 then .inf s else .nan)
  else if f.kind = 1 && e = 2 ^ f.ew - 1 && m = 2 ^ f.mw - 1 then .nan
  else if e = 0 then .fin s m f.emin
  else .fin s (m + 2 ^ f.mw) (f.emin + e - 1)

/-! ## Rounding (R122, R123) -/

/-- The forms of R122. -/
inductive Rnd where
  | rn
  | rz
  | sat
  deriving DecidableEq, Repr

/-- An integer `m / 2^k` rounded: truncated, or to nearest with ties to even. -/
def roundShift (r : Rnd) (m k : Nat) : Nat :=
  let q := m / 2 ^ k
  let rem := m % 2 ^ k
  if r = .rz then q
  else if 2 * rem > 2 ^ k || (2 * rem == 2 ^ k && q % 2 == 1) then q + 1 else q

/-- A rounded magnitude code with its sign, after overflow by the form of the opcode (R122; the dashes of its table read as the
max finite, a DESIGN CHOICE of log entry 9). -/
def overflow (f : Fmt) (r : Rnd) (s : Bool) (code : Nat) : Nat :=
  if code ≤ f.maxFinite then f.sign s + code
  else match r, f.kind with
    | .rn, 0 => f.inf s
    | .rn, 1 => f.nan
    | _, _ => f.sign s + f.maxFinite

/-- The exact value (-1)^s * m * 2^e rounded to a format (R122); zero keeps its sign (R123). -/
def roundF (f : Fmt) (r : Rnd) (s : Bool) (m : Nat) (e : Int) : Nat :=
  if m = 0 then f.sign s
  else
    let q := max (e + Nat.log2 m - f.mw) f.emin
    let n := if q ≤ e then m * 2 ^ (e - q).toNat else roundShift r m (q - e).toNat
    overflow f r s ((q - f.emin).toNat * 2 ^ f.mw + n)

/-- A value rounded to a format; an infinity by the form of the opcode (R135). -/
def encodeF (f : Fmt) (r : Rnd) : FVal → Nat
  | .nan => f.nan
  | .inf s => match r, f.kind with
    | .sat, _ => f.sign s + f.maxFinite
    | _, 0 => f.inf s
    | _, 1 => f.nan
    | _, _ => f.sign s + f.maxFinite
  | .fin s m e => roundF f r s m e

/-! ## Exact arithmetic (R123, R128) -/

/-- A finite value as an integer multiple of 2^lo, for lo ≤ e. -/
def scaled (s : Bool) (m : Nat) (e lo : Int) : Int :=
  let v : Int := m * 2 ^ (e - lo).toNat
  if s then -v else v

/-- An exact integer multiple of 2^lo as a value; `zs` is the sign of an exact zero. -/
def ofScaled (v lo : Int) (zs : Bool) : FVal := if v = 0 then .fin zs 0 lo else .fin (decide (v < 0)) v.natAbs lo

/-- The exact sum: -0 only from two negative zeros (R123). -/
def addV : FVal → FVal → FVal
  | .nan, _ => .nan
  | _, .nan => .nan
  | .inf a, .inf b => if a = b then .inf a else .nan
  | .inf a, _ => .inf a
  | _, .inf b => .inf b
  | .fin s m e, .fin t n k =>
    let lo := min e k
    ofScaled (scaled s m e lo + scaled t n k lo) lo (s && t)

/-- A value negated. -/
def negV : FVal → FVal
  | .nan => .nan
  | .inf s => .inf (!s)
  | .fin s m e => .fin (!s) m e

/-- The exact product (R123, R128). -/
def mulV : FVal → FVal → FVal
  | .nan, _ => .nan
  | _, .nan => .nan
  | .inf a, .inf b => .inf (a != b)
  | .inf a, .fin s m _ => if m = 0 then .nan else .inf (a != s)
  | .fin s m _, .inf b => if m = 0 then .nan else .inf (s != b)
  | .fin s m e, .fin t n k => .fin (s != t) (m * n) (e + k)

/-- An operation of a format over encodings: exact, rounded once in the RN form. -/
def opF (f : Fmt) (g : FVal → FVal → FVal) (x y : Nat) : Nat := encodeF f .rn (g (decodeF f x) (decodeF f y))

/-- round(a + b). -/
def addF (f : Fmt) (x y : Nat) : Nat := opF f addV x y
/-- round(a - b). -/
def subF (f : Fmt) (x y : Nat) : Nat := opF f (fun a b => addV a (negV b)) x y
/-- round(a * b). -/
def mulF (f : Fmt) (x y : Nat) : Nat := opF f mulV x y
/-- round(a * b + d). -/
def fmaF (f : Fmt) (d x y : Nat) : Nat := encodeF f .rn (addV (mulV (decodeF f x) (decodeF f y)) (decodeF f d))

/-- The encoding is a NaN. -/
def isNaN (f : Fmt) (x : Nat) : Bool := decodeF f x == .nan

/-- An order key in which -0 stands below +0 (R124). -/
def orderKey (f : Fmt) (x : Nat) : Int :=
  let m := x % 2 ^ (f.ew + f.mw)
  if x / 2 ^ (f.ew + f.mw) % 2 = 1 then -(m : Int) - 1 else m

/-- A compare key in which -0 equals +0 (R130). -/
def compareKey (f : Fmt) (x : Nat) : Int :=
  let m := x % 2 ^ (f.ew + f.mw)
  if x / 2 ^ (f.ew + f.mw) % 2 = 1 then -(m : Int) else m

/-- minimumNumber or maximumNumber (R124, R129). -/
def minmaxF (f : Fmt) (hi : Bool) (x y : Nat) : Nat :=
  if isNaN f x then (if isNaN f y then f.nan else y)
  else if isNaN f y then x
  else if hi then (if orderKey f y ≤ orderKey f x then x else y)
  else if orderKey f x ≤ orderKey f y then x else y

/-- The conditions of VFCMP (R33, R130): 0 EQ, 1 NE, 2 LT, 3 LE, 4 GT, 5 GE, 6 UN, 7 OR. -/
def compareF (f : Fmt) (c x y : Nat) : Bool :=
  let un := isNaN f x || isNaN f y
  let a := compareKey f x
  let b := compareKey f y
  match c with
  | 0 => !un && a == b
  | 1 => un || a != b
  | 2 => !un && decide (a < b)
  | 3 => !un && decide (a ≤ b)
  | 4 => !un && decide (b < a)
  | 5 => !un && decide (b ≤ a)
  | 6 => un
  | _ => !un

/-- A value with every NaN made canonical (R120). -/
def canonF (f : Fmt) (x : Nat) : Nat := if isNaN f x then f.nan else x

/-- VFABS of an element (R131). -/
def absF (f : Fmt) (x : Nat) : Nat := if isNaN f x then f.nan else x % 2 ^ (f.ew + f.mw)
/-- VFNEG of an element (R131). -/
def negF (f : Fmt) (x : Nat) : Nat := if isNaN f x then f.nan else x ^^^ 2 ^ (f.ew + f.mw)

/-! ## Quotients and special functions (R132, R133)

A quotient or a function's value is taken with many more bits than the format has and a sticky bit below them; the
rounding then is that of the exact value (log entry 9). -/

/-- The quotient m / d * 2^e, with `p` bits below the point and a sticky bit: mantissa and exponent. -/
def quotient (p m d : Nat) (e : Int) : Nat × Int :=
  let q := m * 2 ^ p / d
  (2 * q + b2n (m * 2 ^ p % d != 0), e - p - 1)

/-- The integer square root by its bits, from bit `k - 1` down. -/
def isqrtFrom (n : Nat) : Nat → Nat → Nat
  | 0, r => r
  | k + 1, r => if (r + 2 ^ k) * (r + 2 ^ k) ≤ n then isqrtFrom n k (r + 2 ^ k) else isqrtFrom n k r

/-- The sum of term * y^i / (n+1)...(n+i) in fixed point with `p` fraction bits. -/
def expSum (p y : Nat) : Nat → Nat → Nat → Nat
  | 0, _, _ => 0
  | k + 1, n, term => term + expSum p y k (n + 1) (term * y / (2 ^ p * (n + 1)))

/-- e^y for 0 ≤ y < 1 in fixed point. -/
def expFix (p y : Nat) : Nat := expSum p y (p / 2) 0 (2 ^ p)

/-- The sum of z^(2i+1) / (2i+1) in fixed point. -/
def atanhSum (p z2 : Nat) : Nat → Nat → Nat → Nat
  | 0, _, _ => 0
  | k + 1, n, term => term / (2 * n + 1) + atanhSum p z2 k (n + 1) (term * z2 / 2 ^ p)

/-- ln(m / 2^p) for 2^p ≤ m ≤ 2^(p+1), in fixed point. -/
def lnFix (p m : Nat) : Nat :=
  let z := (m - 2 ^ p) * 2 ^ p / (m + 2 ^ p)
  2 * atanhSum p (z * z / 2 ^ p) (p / 3 + 4) 0 z

/-- ln 2 in fixed point. -/
def ln2Fix (p : Nat) : Nat := lnFix p (2 ^ (p + 1))

/-- Fraction bits of the special functions. -/
def fixBits : Nat := 256

/-- 1/x (R132, R133). -/
def rcpV : FVal → FVal
  | .nan => .nan
  | .inf s => .fin s 0 0
  | .fin s m e => if m = 0 then .inf s else
    let q := quotient 96 1 m (-e)
    .fin s q.1 q.2

/-- 1/√x (R132, R133). -/
def rsqV : FVal → FVal
  | .nan => .nan
  | .inf s => if s then .nan else .fin false 0 0
  | .fin s m e => if m = 0 then .inf s else if s then .nan else
    let m := if e % 2 = 0 then m else 2 * m
    let e := if e % 2 = 0 then e else e - 1
    let n := 2 ^ 160 / m
    let r := isqrtFrom n 81 0
    .fin false (2 * r + b2n (r * r * m != 2 ^ 160)) (-(e / 2) - 81)

/-- 2^x (R132, R133): exact for an integer, otherwise irrational. -/
def exp2V : FVal → FVal
  | .nan => .nan
  | .inf s => if s then .fin false 0 0 else .inf false
  | .fin s m e =>
    if 128 * 2 ^ (-e).toNat ≤ m * 2 ^ e.toNat && !s then .inf false
    else if 150 * 2 ^ (-e).toNat ≤ m * 2 ^ e.toNat && s then .fin false 0 0
    else
      let x := scaled s m e (-fixBits)
      let i := x / 2 ^ fixBits
      let f := (x % 2 ^ fixBits).toNat
      if f = 0 then .fin false 1 i
      else .fin false (2 * expFix fixBits (f * ln2Fix fixBits / 2 ^ fixBits) + 1) (i - fixBits - 1)

/-- log2 x (R132, R133): exact for a power of two, otherwise irrational. -/
def log2V : FVal → FVal
  | .nan => .nan
  | .inf s => if s then .nan else .inf false
  | .fin s m e => if m = 0 then .inf true else if s then .nan else
    let l := Nat.log2 m
    let i : Int := e + l
    let frac := lnFix fixBits (m * 2 ^ (fixBits - l)) * 2 ^ fixBits / ln2Fix fixBits
    if m = 2 ^ l then ofScaled i 0 false
    else
      let v : Int := i * 2 ^ fixBits + frac
      .fin (decide (v < 0)) (2 * v.natAbs + 1) (-fixBits - 1)

/-- A special function of one FP32 word. -/
def specialF (g : FVal → FVal) (x : Nat) : Nat := encodeF fp32 .rn (g (decodeF fp32 x))

/-- e^-y for 0 ≤ y in fixed point, y with `p` fraction bits. -/
def expNegFix (p y : Nat) : Nat :=
  let t := y * 2 ^ p / ln2Fix p
  expFix p ((2 ^ p - t % 2 ^ p) * ln2Fix p / 2 ^ p) / 2 ^ (t / 2 ^ p + 1)

/-- y times its logistic function (R272): irrational for every finite y but 0; from 256 on it rounds to y, and from -128
down to -0. -/
def siluV : FVal → FVal
  | .nan => .nan
  | .inf s => if s then .fin true 0 0 else .inf false
  | .fin s m e =>
    if m = 0 then .fin s 0 0
    else if s && 128 * 2 ^ (-e).toNat ≤ m * 2 ^ e.toNat then .fin true 0 0
    else if 256 * 2 ^ (-e).toNat ≤ m * 2 ^ e.toNat then .fin s m e
    else
      let x := expNegFix 512 (scaled false m e (-512)).toNat
      let q := quotient 600 (if s then m * x else m * 2 ^ 512) (2 ^ 512 + x) e
      .fin s q.1 q.2

/-! ## Conversions (R134 to R136) -/

/-- A finite value rounded to an integer (R136). -/
def roundInt (r : Rnd) (s : Bool) (m : Nat) (e : Int) : Int :=
  let n : Int := if 0 ≤ e then m * 2 ^ e.toNat else roundShift r m (-e).toNat
  if s then -n else n

/-- FP32 to an integer of a range (R136): the low `n` bits, or clamped. -/
def toIntF (r : Rnd) (saturate : Bool) (lo hi : Int) (n : Nat) (x : Nat) : Nat :=
  match decodeF fp32 x with
  | .nan => 0
  | .inf s => if saturate then wrap n (if s then lo else hi) else 0
  | .fin s m e =>
    let i := roundInt r s m e
    wrap n (if saturate then clampI lo hi i else i)

/-- An integer to FP32 (R136). -/
def ofIntF (r : Rnd) (i : Int) : Nat := roundF fp32 r (decide (i < 0)) i.natAbs 0

/-- One conversion: source slot pitch and width, destination slot pitch, elements, and the function of an element. -/
structure Cvt where
  sp : Nat
  sw : Nat
  dp : Nat
  n : Nat
  f : Nat → Nat

/-- A conversion between floating formats. -/
def floatCvt (src dst : Fmt) (sp dp : Nat) (r : Rnd) : Cvt :=
  ⟨sp, src.width, dp, 2, fun x => encodeF dst r (decodeF src x)⟩

/-- The conversion of a minor (R34, R134 to R136). -/
def cvtOf (m : Nat) : Cvt :=
  match m with
  | 0x00 => floatCvt fp32 bf16 32 16 .rn
  | 0x01 => floatCvt fp32 bf16 32 16 .rz
  | 0x02 => floatCvt fp32 fp16 32 16 .rn
  | 0x03 => floatCvt fp32 fp16 32 16 .rz
  | 0x04 => floatCvt bf16 fp32 16 32 .rn
  | 0x05 => floatCvt fp16 fp32 16 32 .rn
  | 0x06 => floatCvt fp32 e4m3 32 8 .rn
  | 0x07 => floatCvt fp32 e4m3 32 8 .sat
  | 0x08 => floatCvt fp32 e5m2 32 8 .rn
  | 0x09 => floatCvt fp32 e5m2 32 8 .sat
  | 0x0A => floatCvt e4m3 fp32 8 32 .rn
  | 0x0B => floatCvt e5m2 fp32 8 32 .rn
  | 0x0C => floatCvt fp32 e3m2 32 8 .sat
  | 0x0D => floatCvt e3m2 fp32 8 32 .rn
  | 0x0E => floatCvt fp32 e2m1 32 4 .sat
  | 0x0F => floatCvt e2m1 fp32 4 32 .rn
  | 0x10 => ⟨32, 32, 32, 2, fun x => ofIntF .rn (sval 32 x)⟩
  | 0x11 => ⟨32, 32, 32, 2, fun x => ofIntF .rn x⟩
  | 0x12 => ⟨32, 32, 32, 2, fun x => ofIntF .rz (sval 32 x)⟩
  | 0x13 => ⟨32, 32, 32, 2, fun x => ofIntF .rz x⟩
  | 0x14 => ⟨64, 64, 32, 1, fun x => ofIntF .rn (sval 64 x)⟩
  | 0x15 => ⟨64, 64, 32, 1, fun x => ofIntF .rn x⟩
  | 0x16 => ⟨64, 64, 32, 1, fun x => ofIntF .rz (sval 64 x)⟩
  | 0x17 => ⟨64, 64, 32, 1, fun x => ofIntF .rz x⟩
  | 0x18 => ⟨32, 32, 32, 2, toIntF .rn false (-(2 ^ 31)) (2 ^ 31 - 1) 32⟩
  | 0x19 => ⟨32, 32, 32, 2, toIntF .rz false (-(2 ^ 31)) (2 ^ 31 - 1) 32⟩
  | 0x1A => ⟨32, 32, 32, 2, toIntF .rn true (-(2 ^ 31)) (2 ^ 31 - 1) 32⟩
  | 0x1B => ⟨32, 32, 32, 2, toIntF .rz true (-(2 ^ 31)) (2 ^ 31 - 1) 32⟩
  | 0x1C => ⟨32, 32, 32, 2, toIntF .rn false 0 (2 ^ 32 - 1) 32⟩
  | 0x1D => ⟨32, 32, 32, 2, toIntF .rz false 0 (2 ^ 32 - 1) 32⟩
  | 0x1E => ⟨32, 32, 32, 2, toIntF .rn true 0 (2 ^ 32 - 1) 32⟩
  | 0x1F => ⟨32, 32, 32, 2, toIntF .rz true 0 (2 ^ 32 - 1) 32⟩
  | 0x20 => ⟨32, 32, 8, 2, toIntF .rn true (-128) 127 8⟩
  | _ => ⟨32, 32, 8, 2, toIntF .rz true (-128) 127 8⟩

/-- VCVT of a register (R134): bits outside the result slots are zero. -/
def convertReg (m : Nat) (x : Word) : Word :=
  let c := cvtOf m
  wd ((List.range c.n).foldl (fun r k => r + c.f (x.toNat / 2 ^ (c.sp * k) % 2 ^ c.sw) * 2 ^ (c.dp * k)) 0)

/-! ## Blocks and scales (R113, R114, R139) -/

/-- The value of a scale byte (R114). -/
def scaleV (c : Nat) : FVal := if c / 128 % 2 = 1 then .nan else decodeF e4m3 (c % 128)

/-- Six times, or `k` times, a scale is at least a magnitude. -/
def scaleCovers (k : Nat) (m : Nat) (e : Int) (c : Nat) : Bool :=
  match scaleV c with
  | .fin _ sm se => decide (scaled false m e (min e se) ≤ scaled false (k * sm) se (min e se))
  | _ => false

/-- The largest magnitude of some values as mantissa and exponent, or none when one is infinite. -/
def maxMagnitude : List FVal → Option (Nat × Int)
  | [] => some (0, 0)
  | v :: t => match v, maxMagnitude t with
    | .fin _ m e, some (n, k) =>
      some (if scaled false n k (min e k) ≤ scaled false m e (min e k) then (m, e) else (n, k))
    | _, _ => none

/-- The scale byte of a block of values (R139): 0x7E for an infinite or too large maximum, else the least scale that
keeps every element within ±`k`. -/
def blockScale (k : Nat) (vs : List FVal) : Nat :=
  match maxMagnitude vs with
  | none => 0x7E
  | some (m, e) => (findNat (scaleCovers k m e) 0 0x7F).getD 0x7E

/-- One element over its scale, nearest with ties to even and clamped (R139). -/
def blockElem (f : Fmt) (sc : Nat) : FVal → Nat
  | .nan => 0
  | .inf s => match scaleV sc with
    | .fin _ sm _ => if sm = 0 then f.sign s else f.sign s + f.maxFinite
    | _ => 0
  | .fin s m e => match scaleV sc with
    | .fin _ sm se =>
      if sm = 0 then f.sign s
      else
        let q := quotient 64 m sm (e - se)
        roundF f .sat s q.1 q.2
    | _ => 0

/-- A block quantised (R139, R272): the scale byte and the element codes; a NaN gives 0x7F and zeros. -/
def quantBlock (f : Fmt) (k : Nat) (vs : List FVal) : Nat × List Nat :=
  if vs.contains .nan then (0x7F, vs.map fun _ => 0)
  else
    let sc := blockScale k vs
    (sc, vs.map (blockElem f sc))

/-- One element of an FP4 block as FP32 (R140). -/
def blockFloat (sc x : Nat) : Nat := encodeF fp32 .rn (mulV (decodeF e2m1 x) (scaleV sc))

/-! ## The exact-sum cell (R116 to R118) -/

/-- VALUE + v * 2^160 modulo 2^320. -/
def wfxValue (value : Nat) (s : Bool) (m : Nat) (e : Int) : Nat := wrap 320 (value + scaled s m e (-160))

/-- wfx_add (R117) on the number that a cell's 64 bytes hold. -/
def wfxAdd (cell : Nat) (v : Nat) : Nat :=
  let value := cell % 2 ^ 320
  let count := (cell / 2 ^ 320 + 1) % 2 ^ 64
  let flags := cell / 2 ^ 384 % 16
  let flags := if 2 ^ 31 < count || count == 0 then flags ||| 8 else flags
  let r := match decodeF fp32 v with
    | .nan => (value, flags ||| 1)
    | .inf s => (value, flags ||| (if s then 4 else 2))
    | .fin s m e => (wfxValue value s m e, flags)
  r.1 + count * 2 ^ 320 + r.2 * 2 ^ 384

/-- wfx_read (R118). -/
def wfxRead (cell : Nat) : Nat :=
  let flags := cell / 2 ^ 384 % 16
  if flags.testBit 0 || flags.testBit 3 || (flags.testBit 1 && flags.testBit 2) then fp32.nan
  else if flags.testBit 1 then fp32.inf false
  else if flags.testBit 2 then fp32.inf true
  else
    let v := sval 320 (cell % 2 ^ 320)
    roundF fp32 .rn (decide (v < 0)) v.natAbs (-160)

end Sys2Proof.Machine
end

