-- ==== Sys2Proof/Machine/Sync.lean ====
section
/-! DEFINITION. The synchronisation class (R234 to R250): atomics, exact-sum cells, barriers and rings. -/
namespace Sys2Proof.Machine

/-! ## Atomic lane operations (R231, R234, R245) -/

/-- The op code by which this model names ATOM.XADD; XCLR is 12 (R337). -/
def opXadd : Nat := 11
/-- The op code of XCLR (R337). -/
def opXclr : Nat := 12

/-- The bytes of an atomic's location. -/
def atomicSize (op size : Nat) : Nat := if 11 ≤ op then 64 else size

/-- The new value of a location of `size` bytes (R234, R245). -/
def newValue (op size old v n : Nat) : Nat :=
  let w := 8 * size
  match op with
  | 0 => (old + v) % 2 ^ w
  | 1 => old &&& v
  | 2 => old ||| v
  | 3 => old ^^^ v
  | 4 => minS w old v
  | 5 => maxS w old v
  | 6 => minZ w old v
  | 7 => maxZ w old v
  | 8 => v
  | 9 => if old = v then n else old
  | 10 => if v ≤ old then 0 else old + 1
  | 11 => wfxAdd old (v % 2 ^ 32)
  | _ => 0

/-- What became of a lane's operation. -/
inductive Performed where
  /-- Performed. -/
  | done
  /-- Not performed: its location is damaged (R369). -/
  | damaged
  /-- Discarded: the home label no longer dominates (R213). -/
  | discarded
  deriving DecidableEq, Repr

/-- One lane's operation at its home bank, as one action (R231): the state, the old value and what became of it. -/
def atomicLane (s : State) (op size : Nat) (l : LaneOp) : State × Nat × Performed :=
  let n := atomicSize op size
  if granDamaged s l.pa then (s, 0, .damaged)
  else if !dominates (granLabel s.mem l.pa) l.lab then (s, 0, .discarded)
  else
    let old := readNum s.mem.gal l.pa n
    (homeWrite s l.pa (toBytes n (newValue op n old l.v.toNat l.n.toNat)), old, .done)

/-- The outcome of an atomic instruction: results of the lanes performed, damaged lanes, discarded lanes. -/
structure AtomicDone where
  res : List LaneRes
  damaged : List LaneOp
  discarded : List LaneOp

/-- The label of an atomic's or XRND's result (R213): the granule's, and WCL. -/
def cellLabel (x : Ctx) (s : State) (pa : Nat) : Label := joinL (granLabel s.mem pa) x.w.wcl

/-- A lane's operation has been performed: beyond the gang's windows it is a publication of the gang (R367). -/
def markLane (x : Ctx) (s : State) (pa : Nat) (p : Performed) : State :=
  if p == .done && beyondGang x pa then markPublished x s else s

/-- The lanes of an atomic performed in increasing order (R231); each granule leaves the issuing core's snapshot
(R232).  A result is the old value with the label of R213. -/
def atomicLanes (x : Ctx) (op size : Nat) (s : State) : List LaneOp → State × AtomicDone
  | [] => (s, ⟨[], [], []⟩)
  | l :: t =>
    let r := atomicLane s op size l
    let q := atomicLanes x op size (dropSnapshot (markLane x r.1 l.pa r.2.2) x.core l.pa) t
    let res : LaneRes := ⟨l.lane, wd r.2.1, cellLabel x s l.pa, r.2.2 == .damaged⟩
    (q.1, match r.2.2 with
      | .done => { q.2 with res := res :: q.2.res }
      | .damaged => { q.2 with res := res :: q.2.res, damaged := l :: q.2.damaged }
      | .discarded => { q.2 with discarded := l :: q.2.discarded })

/-- The mark of damage met by an operation (R361, R369): storage 1, Gallery. -/
def damageMark (p : Pend) (l : LaneOp) : FlagMark := markFor p 0x0D (wd l.ga) 1 0

/-- The mark of discarded lanes (R196, R213): the lowest Gallery address, and the operation without the lanes that were
performed. -/
def discardMark (s : State) (p : Pend) (ls : List LaneOp) : Option FlagMark :=
  match lowestFailed (ls.map fun l => (l.ga / 64 * 64, l.lab, granLabel s.mem l.pa)), p.work with
  | some f, .atomic ret op size _ =>
    let q := { p with work := .atomic ret op size ls, res := [], stage := 0 }
    some { markFor q 0x03 (wd f.1) 0 0 with srcl := some f.2.1, dstl := some f.2.2 }
  | _, _ => none

/-- The marks of an atomic's failed lanes: damage first. -/
def atomicMark (s : State) (p : Pend) (d : AtomicDone) : Option FlagMark :=
  match d.damaged with
  | l :: _ => some (damageMark p l)
  | [] => discardMark s p d.discarded

/-! ## Issue of atomics (R188, R213, R244, R245) -/

/-- The lanes of a VA operand with their checks (R17, R176): Gallery and physical address, operands, and the join that
the granule must dominate (R213).  `opnds` are the operand registers. -/
def atomicOperands (x : Ctx) (s : State) (size : Nat) (wr : Bool) (g b v : Nat) (opnds : List Nat) (bytes : Nat) :
    Except Stop (List LaneOp) := do
  let q := x.w.regs
  let act := lanesOf (x.grp &&& q.getP g)
  let as_ ← checkAddrs x s size wr (act.map fun l => (l, vmAddr q b v 0 size l))
  let word (r l : Nat) : Word := wd ((q.getV r l).toNat % 2 ^ (8 * bytes))
  .ok (as_.map fun p => ⟨p.1, p.2.1, p.2.2,
    match opnds with
      | r :: _ => word r p.1
      | [] => 0,
    match opnds with
      | _ :: r :: _ => word r p.1
      | _ => 0,
    joinAll (vmLabel x g b v p.1 :: opnds.map (q.labV · p.1)),
    opnds.map (q.getV · p.1) ++ vmWords q b v p.1⟩)

/-- The lanes whose granule label, as R198 finds it, does not dominate (R213). -/
def atomicFails (x : Ctx) (s : State) : List LaneOp → State × List (LaneOp × Label)
  | [] => (s, [])
  | l :: t =>
    let r := checkLabel s x.core l.pa
    let q := atomicFails x r.1 t
    (q.1, if dominates r.2 l.lab then q.2 else (l, r.2) :: q.2)

/-- The check of R213: LABEL-STORE with the failing lanes' mask, and no lane performed. -/
def checkAtomic (x : Ctx) (s : State) (ls : List LaneOp) : Except Stop State :=
  let c := atomicFails x s ls
  match c.2 with
  | [] => .ok c.1
  | (l, lab) :: t => x.trapL s 0x03 (maskOf (l.lane :: t.map (·.1.lane))) (wd (l.ga / 64 * 64)) l.lab lab

/-- A mark that stands at once: the operation has failed already (R358). -/
def addMark (s : State) (k : Nat) (m : FlagMark) : State := s.modWarp k fun w => { w with marks := w.marks ++ [m] }

/-- An atomic performed at once: one that returns is pending until its flag clears; of another only a mark may stay. -/
def atomicNow (x : Ctx) (s : State) (p : Pend) (op size : Nat) (ls : List LaneOp) : State :=
  let r := atomicLanes x op size s ls
  match p.work with
  | .atomic (some reg) _ _ _ => addPend r.1 x.wk p (.atomic (some reg) op size r.2.discarded) r.2.res 1
  | _ => match atomicMark r.1 p r.2 with
    | some m => addMark r.1 x.wk m
    | none => r.1

/-- An operation queued at its home banks; with an acquire part it is performed at once, and the acquire follows. -/
def queueAtomic (x : Ctx) (s : State) (p : Pend) (op size : Nat) (ls : List LaneOp) : State :=
  if x.acquires then ordAfter x (atomicNow x s p op size ls) else addPend s x.wk p p.work [] 0

/-- The items that a replica holds for an atomic (R335): one for each lane, whose records name their labels by handles. -/
def holdItems (x : Ctx) (s : State) (p : Pend) (op size : Nat) (ls : List LaneOp) : State :=
  if x.accessHeld then s
  else
    let hs : List HeldItem := ls.map fun l =>
      ⟨{ p with work := .atomic none op size [l] }, 2, l, op, if op ≤ 10 then size else 0⟩
    (bindRecords s x.asid (hs.map itemRecord)).modWarp x.wk fun w => { w with items := w.items ++ hs, passed := 4 :: w.passed }

/-- A non-returning atomic in a replicated launch (R186, R335, R416): held, with the second release of R416; the lanes of a
prefixed one in the replica's own slice are performed at once.  The acquire of an ORD.ACQ waits until its item is performed
(R189). -/
def holdAtomic (x : Ctx) (s : State) (p : Pend) (op size : Nat) (ls : List LaneOp) : Except Stop State := do
  let near := ls.filter fun l => x.releases && l.pa / 2 ^ 20 == x.core
  let far := ls.filter fun l => !near.contains l
  let s ← if x.accessHeld then .ok s else itemQuota x s far.length
  let s := if x.accessHeld then s else atomicNow x s p op size near
  let s := holdItems x s p op size far
  let s ← secondRelease x s (ls.map (·.pa))
  .ok (if x.releases then ordAfter x s else s)

/-- What an atomic waits for: one that is performed at once (R189) for the earlier atomics of the warp (R179, R188); one that
is queued is ordered when it is performed. -/
def orderAtomic (x : Ctx) (s : State) (ls : List LaneOp) : Except Stop State :=
  if x.acquires then orderAccess x s (ls.map (·.pa)) else orderItems x s (ls.map (·.pa))

/-- ATOM, ATOM.XADD or XCLR, operation `p`, after its checks. -/
def atomStart (x : Ctx) (s : State) (p : Pend) (op size : Nat) (ls : List LaneOp) : Except Stop State := do
  let s ← if x.accessHeld then .ok s else orderAtomic x s ls
  let s ← ordBefore x s
  if x.replicated then holdAtomic x s p op size ls
  else
    let s ← publishGranules x s (ls.map (·.pa / 64))
    .ok (queueAtomic x s p op size ls)

/-- ATOM, ATOM.XADD and XCLR after their address checks. -/
def atomBody (x : Ctx) (s : State) (op size : Nat) (ls : List LaneOp) : Except Stop State := do
  let s ← if x.accessHeld then .ok s else checkAtomic x s ls
  atomStart x s (x.pendOf none (.atomic none op size ls)) op size ls

/-- The physical address of a private location in another replica's copy (R334): the same core of its gang. -/
def replicaPa (x : Ctx) (r pa : Nat) : Nat :=
  let own := nth [] x.gang.cores x.blk.rep
  match own.findIdx? (· == pa / 2 ^ 20) with
  | some i => nth 0 (nth [] x.gang.cores r) i * 2 ^ 20 + pa % 2 ^ 20
  | none => pa

/-- A private location as a place that is the same in every replica: the core's number in the gang, and the offset. -/
def gangPlace (x : Ctx) (pa : Nat) : Nat × Nat :=
  (((nth [] x.gang.cores x.blk.rep).findIdx? (· == pa / 2 ^ 20)).getD 0, pa % 2 ^ 20)

/-- The value of a private location copied to every other replica (R341): kept for one that has yet to reach the event
(R351). -/
def mirror (x : Ctx) (s : State) (pa n : Nat) : State :=
  if externalEntry x (pa / 64) then s
  else
    let bs := readBytes s.mem.gal pa n
    (x.gang.members.filter (· != x.blk.rep)).foldl (fun t r =>
      if x.lags r then keep x t fun e => { e with writes := e.writes ++ [((gangPlace x pa).1, (gangPlace x pa).2, bs)] }
      else homeWrite t (replicaPa x r pa) bs) s

/-- The lanes of an ATOMR performed once for all replicas (R341, R343): results as words (lane state, old value). -/
def atomOnce (x : Ctx) (op size : Nat) (ls : List LaneOp) (s : State) : State × List Word × List Label :=
  ls.foldl (fun acc l =>
    let r := atomicLane acc.1 op size l
    let st : Nat := match r.2.2 with
      | .done => 0
      | .damaged => 1
      | .discarded => 2
    (mirror x (dropSnapshot (markLane x r.1 l.pa r.2.2) x.core l.pa) l.pa size, acc.2.1 ++ [wd st, wd r.2.1],
      acc.2.2 ++ [cellLabel x acc.1 l.pa])) (s, [], [])

/-- The results of an ATOMR from what Echo delivered: results, damaged and discarded lanes. -/
def atomResults : List LaneOp → List Word → List Label → AtomicDone
  | l :: t, st :: v :: vs, b :: bs =>
    let q := atomResults t vs bs
    if st = 2 then { q with discarded := l :: q.discarded }
    else { q with res := ⟨l.lane, v, b, st == 1⟩ :: q.res }
  | _, _, _ => ⟨[], [], []⟩

/-- ATOMR once for all replicas (R341, R343): its event, and what it gave. -/
def atomrOnce (x : Ctx) (s : State) (op size : Nat) (ls : List LaneOp) : Except Stop (State × AtomicDone) := do
  let r ← onceOp x s (ls.map (laneRecord x)) fun s => .ok (atomOnce x op size ls s)
  .ok (r.1, atomResults ls r.2.1 r.2.2)

/-- ATOMR, operation `p`, after its checks: queued, or once-performed in a replicated launch (R343). -/
def atomrStart (x : Ctx) (s : State) (p : Pend) (reg op size : Nat) (ls : List LaneOp) : Except Stop State := do
  let s ← orderAtomic x s ls
  let s ← ordBefore x s
  let s ← publishFirst x s (ls.map (·.pa / 64))
  if x.replicated then
    let r ← atomrOnce x s op size ls
    .ok (ordAfter x (addPend r.1 x.wk p (.atomic (some reg) op size r.2.discarded) r.2.res 1))
  else .ok (queueAtomic x s p op size ls)

/-- ATOMR after its address checks. -/
def atomrBody (x : Ctx) (s : State) (f : BitVec 1) (reg op size : Nat) (ls : List LaneOp) : Except Stop State := do
  let s ← checkAtomic x s ls
  atomrStart x s (x.pendOf (x.flag f) (.atomic (some reg) op size ls)) reg op size ls

/-- The operand registers of an atomic: Vt, and Vt+1 for CAS (R244). -/
def atomRegs (t o : Nat) : List Nat := if o = 9 then [t, t + 1] else [t]

/-- Bytes of an sz field (R234). -/
def szBytes (s : BitVec 1) : Nat := if s = 1#1 then 8 else 4

/-- ATOM (R244). -/
def execAtom (z : Bool) (g : BitVec 3) (t : BitVec 6) (b i o : BitVec 4) (s0 : BitVec 1) (s : State) :
    Host.Outcome State Fault Refusal :=
  issue (.atom z g t b i o s0) { rv := atomRegs t.toNat o.toNat ++ vmRegs i.toNat, rg := [b.toNat], rp := [g.toNat] }
    (guardLanes s g.toNat) (fun x s => do
      let n := szBytes s0
      let ls ← atomicOperands x s n true g.toNat b.toNat i.toNat (atomRegs t.toNat o.toNat) n
      atomBody x s o.toNat n ls) s

/-- ATOMR (R244): the old values are written when the flag clears. -/
def execAtomr (z : Bool) (g : BitVec 3) (t : BitVec 6) (b i o : BitVec 4) (s0 f : BitVec 1) (s : State) :
    Host.Outcome State Fault Refusal :=
  issue (.atomr z g t b i o s0 f)
    { rv := atomRegs t.toNat o.toNat ++ vmRegs i.toNat, rg := [b.toNat], rp := [g.toNat], wv := [t.toNat] }
    (guardLanes s g.toNat) (fun x s => do
      let n := szBytes s0
      let ls ← atomicOperands x s n true g.toNat b.toNat i.toNat (atomRegs t.toNat o.toNat) n
      atomrBody x s f t.toNat o.toNat n ls) s

/-- ATOM.XADD (R245). -/
def execAtomXadd (z : Bool) (g : BitVec 3) (t : BitVec 6) (b i : BitVec 4) (s : State) :
    Host.Outcome State Fault Refusal :=
  issue (.atomXadd z g t b i) { rv := t.toNat :: vmRegs i.toNat, rg := [b.toNat], rp := [g.toNat] }
    (guardLanes s g.toNat) (fun x s => do
      let ls ← atomicOperands x s 64 true g.toNat b.toNat i.toNat [t.toNat] 4
      atomBody x s opXadd 64 ls) s

/-- XCLR (R245). -/
def execXclr (z : Bool) (g : BitVec 3) (b i : BitVec 4) (s : State) : Host.Outcome State Fault Refusal :=
  issue (.xclr z g b i) { rv := vmRegs i.toNat, rg := [b.toNat], rp := [g.toNat] } (guardLanes s g.toNat)
    (fun x s => do
      let ls ← atomicOperands x s 64 true g.toNat b.toNat i.toNat [] 4
      atomBody x s opXclr 64 ls) s

/-- One lane of XRND (R246): the cell read at its home bank, rounded once. -/
def xrndLane (x : Ctx) (s : State) (l : LaneOp) : LaneRes :=
  if granDamaged s l.pa then ⟨l.lane, 0, cellLabel x s l.pa, true⟩
  else ⟨l.lane, wd (wfxRead (readNum s.mem.gal l.pa 64)), cellLabel x s l.pa, false⟩

/-- The reads of XRND's lanes (R246): those of external cells once in a replicated launch (R336). -/
def xrndReads (x : Ctx) (s : State) (ls : List LaneOp) : Except Stop (State × List LaneRes) := do
  let far := if x.replicated then ls.filter fun l => externalEntry x (l.pa / 64) else []
  let r ← if far.isEmpty then .ok (s, ([] : List Word), ([] : List Label))
    else onceOp x s (ls.map (laneRecord x)) fun s =>
      .ok (s, resWords (far.map (xrndLane x s)), (far.map (xrndLane x s)).map (·.lab))
  .ok (dropSnapshots r.1 x.core (ls.map (·.pa)),
    (ls.filter fun l => !far.contains l).map (xrndLane x r.1) ++ resOf far r.2.1 r.2.2)

/-- XRND, operation `p`, after its checks. -/
def xrndStart (x : Ctx) (s : State) (p : Pend) (ls : List LaneOp) : Except Stop State := do
  let s ← orderAccess x s (ls.map (·.pa))
  let s ← ordBefore x s
  let s ← publishFirst x s (ls.map (·.pa / 64))
  let r ← xrndReads x s ls
  .ok (ordAfter x (addPend r.1 x.wk p p.work r.2 1))

/-- XRND (R246): the cells are read at issue. -/
def execXrnd (z : Bool) (g : BitVec 3) (t : BitVec 6) (b i : BitVec 4) (f : BitVec 1) (s : State) :
    Host.Outcome State Fault Refusal :=
  issue (.xrnd z g t b i f) { rv := vmRegs i.toNat, rg := [b.toNat], rp := [g.toNat], wv := [t.toNat] }
    (guardLanes s g.toNat) (fun x s => do
      let ls ← atomicOperands x s 64 false g.toNat b.toNat i.toNat [] 4
      let s ← checkAtomic x s ls
      xrndStart x s (x.pendOf (x.flag f) (.xrnd t.toNat ls)) ls) s

/-! ## Barriers (R51, R242, R243, R247) -/

/-- The checks of BAR, BARA and BARW on the level (R51, R247). -/
def checkBarrier (x : Ctx) (s : State) (n : Nat) : Except Stop Unit :=
  let d := lvlDomain (x.lr.level n)
  if !x.lr.declared n || d == 4 || ((d == 2 || d == 3) && !x.lr.coside) then x.trapG s 0x02 else .ok ()

/-- The arrival of a warp in the open phase, the one after those that it has arrived in (R242, R247). -/
def arrive (x : Ctx) (s : State) (n : Nat) : State :=
  let c := aget 0 x.w.arrivals n + 1
  let s := s.modWarp x.wk fun w => { w with arrived := aset 0 w.arrived n c, arrivals := aset 0 w.arrivals n c }
  barCheckAll s x.blk.launch x.la x.blk.b n

/-- The phase of level `n` in which a warp arrived, if its bit is set. -/
def arrivedPhase (w : Warp) (n : Nat) : Option Nat :=
  match kget w.arrived n with
  | some p => some (p - 1)
  | none => none

/-- A warp that waits for a phase of a level before its next clause (R243). -/
def waitBarrier (s : State) (k n : Nat) : State :=
  s.modWarp k fun w => match arrivedPhase w n with
    | some p => { w with wait := .bar n p }
    | none => w

/-- BAR (R247): a release, an arrival, and the wait for the phase. -/
def execBar (l : BitVec 3) (s : State) : Host.Outcome State Fault Refusal :=
  issue (.bar l) {} 0 (fun x s => do
    let n := l.toNat
    checkBarrier x s n
    if (arrivedPhase x.w n).isSome then x.trapG s 0x02
    else
      let s ← releaseAt x s n 2 []
      .ok (waitBarrier (arrive x s n) x.wk n)) s

/-- BARA (R247): a release and an arrival. -/
def execBara (z : Bool) (l : BitVec 3) (s : State) : Host.Outcome State Fault Refusal :=
  issue (.bara z l) {} 0 (fun x s => do
    checkBarrier x s l.toNat
    if (arrivedPhase x.w l.toNat).isSome then x.trapG s 0x02
    else
      let s ← releaseAt x s l.toNat 2 []
      .ok (arrive x s l.toNat)) s

/-- BARW (R247): the wait for the phase of the warp's arrival. -/
def execBarw (l : BitVec 3) (s : State) : Host.Outcome State Fault Refusal :=
  issue (.barw l) {} 0 (fun x s => do
    checkBarrier x s l.toNat
    if (arrivedPhase x.w l.toNat).isNone then x.trapG s 0x02 else .ok (waitBarrier s x.wk l.toNat)) s

/-! ## Rings: states and admission (R235 to R239) -/

/-- Free slots. -/
def Ring.free (r : Ring) : Nat := r.count - r.slots.length
/-- Full slots. -/
def Ring.fill (r : Ring) : Nat := (r.slots.filter (·.2 == 2)).length
/-- A producer's outstanding slots (R238). -/
def Ring.outstanding (r : Ring) (p : Producer) : Nat := (r.owner.filter (·.2 == p)).length
/-- Producers with outstanding slots (R238). -/
def Ring.producers (r : Ring) : Nat := ((r.owner.map (·.2)).dedup).length
/-- The producer's own allowance lets it push (R238). -/
def Ring.allows (r : Ring) (p : Producer) : Bool := decide (r.outstanding p < r.allow)
/-- A push or reservation is admitted (R238). -/
def Ring.admits (r : Ring) (p : Producer) : Bool :=
  decide (0 < r.free) && r.allows p && (decide (0 < r.outstanding p) || decide (r.producers < 8))

/-- Slot PUT reserved for a producer in a slot state; PUT advances (R237). -/
def Ring.reserve (r : Ring) (p : Producer) (st : Nat) : Ring :=
  { r with
    slots := kset r.slots r.put st
    owner := kset r.owner r.put p
    put := (r.put + 1) % r.count
    seen := if r.seen.contains p then r.seen else r.seen ++ [p] }

/-- A slot freed (R237). -/
def Ring.freeSlot (r : Ring) (k : Nat) : Ring := { r with slots := kdel r.slots k, owner := kdel r.owner k }

/-- The Gallery address of a slot (R235). -/
def Ring.slotGa (r : Ring) (k : Nat) : Nat := r.base + k * 2 ^ r.lsize
/-- The physical address of a slot. -/
def Ring.slotPa (r : Ring) (k : Nat) : Nat := r.basePa + k * 2 ^ r.lsize

/-- A state with a ring replaced. -/
def State.setRing (s : State) (pa : Nat) (r : Ring) : State := { s with rings := kset s.rings pa r }

/-- The consumer is bound to another warp (R239); the replicas of one warp are one consumer of an external ring. -/
def boundElsewhere (x : Ctx) (r : Ring) : Bool := r.consumer.any (· != x.producer)

/-! ## RINIT (R235, R236, R248) -/

/-- The fields of a descriptor's 64 bytes. -/
structure RingDesc where
  base : Nat
  lsize : Nat
  kind : Nat
  count : Nat
  handle : Nat
  allow : Nat
  zero : Bool

/-- A descriptor read (R235); `zero` says that every field that must be zero is. -/
def ringDesc (bs : List Byte) : RingDesc :=
  let b4 := numAt bs 4 1
  let b5 := numAt bs 5 1
  let h6 := numAt bs 6 2
  let h8 := numAt bs 8 2
  let hA := numAt bs 10 2
  ⟨numAt bs 0 4, b4 % 32, b5 % 2, h6 % 2 ^ 13, h8 % 2 ^ 12, hA % 2 ^ 13,
    decide (b4 / 32 = 0) && decide (b5 / 2 = 0) && decide (h6 / 2 ^ 13 = 0) && decide (h8 / 2 ^ 12 = 0) &&
      decide (hA / 2 ^ 13 = 0) && decide (numAt bs 12 52 = 0)⟩

/-- The field rules of R235. -/
def RingDesc.ok (d : RingDesc) : Bool :=
  d.zero && decide (1 ≤ d.count) && decide (d.count ≤ 4096) && decide (d.allow ≤ d.count) &&
  (if d.kind = 0 then d.lsize == 3 else decide (6 ≤ d.lsize) && decide (d.lsize ≤ 16)) &&
  decide (d.base % 2 ^ d.lsize = 0)

/-- The first granule of the slots that the block may not write, counted from slot 0's. -/
def slotOutside (x : Ctx) (s : State) (d : RingDesc) : Option Nat :=
  findNat (fun i => (galPa x s ((d.base / 64 + i) * 64) 64 true).isNone) 0
    ((d.base + d.count * 2 ^ d.lsize + 63) / 64 - d.base / 64)

/-- RINIT up to arming, on the descriptor at `pa` (R236): the checks in the order of its table, and the ring. -/
def ringChecks (x : Ctx) (s : State) (ga pa : Nat) (la : Label) : Except Stop Ring :=
  let d := ringDesc (readBytes s.mem.gal pa 64)
  let len := d.count * 2 ^ d.lsize
  if 2 ^ 32 < d.base + len || (slotOutside x s d).isSome then x.trap s 0x08 x.grp (wd ga) 0
  else
    let basePa := (galPa x s d.base 1 true).getD 0
    if (galPa x s d.base 1 true).isNone || basePa / 2 ^ 20 != pa / 2 ^ 20 || 2 ^ 20 < basePa % 2 ^ 20 + len ||
        (decide (basePa < pa + 64) && decide (pa < basePa + len)) || !d.ok then x.trapG s 0x02
    else match setOf (x.labels s) d.handle with
      | none => x.trapG s 0x02
      | some L =>
        let src := joinAll [granLabel s.mem pa, la, x.wcl]
        if !dominates L src then x.trapL s 0x05 x.grp (wd ga) src L
        else
          match (List.range ((basePa + len + 63) / 64 - basePa / 64)).find? fun i =>
            !dominates (granLabel s.mem ((basePa / 64 + i) * 64)) L with
          | some i => x.trapL s 0x05 x.grp (wd ga) L (granLabel s.mem ((basePa / 64 + i) * 64))
          | none => .ok ⟨d.base, basePa, d.kind, d.lsize, d.count, if d.allow = 0 then d.count else d.allow, L, x.asid,
              0, 0, 0, [], [], none, [], []⟩

/-- Arming (R236, R248): a write at the home bank, which disarms an older ring first. -/
def armRing (s : State) (pa : Nat) (r : Ring) : State := (touchGranule s (pa / 64)).setRing pa r

/-- What the committing replica's RINIT of an external descriptor does, and delivers (R336, R343): 0, or the code, address and
labels of the check that failed. -/
def ringVerdict (s : State) (pa : Nat) : Except Stop Ring → State × List Word × List Label
  | .ok r => (armRing s pa r, [0], [])
  | .error (.trap t _) => (s, [wd t.code, t.addr], [t.srcl.getD [], t.dstl.getD []])
  | .error _ => (s, [0], [])

/-- RINIT (R248).  On an external granule a replicated launch performs it once (R342, log entry 12). -/
def execRinit (z : Bool) (a : BitVec 6) (s : State) : Host.Outcome State Fault Refusal :=
  issue (.rinit z a) { rg := [a.toNat] } 0 (fun x s => do
    let ga := x.w.regs.getG a.toNat
    let pa ← checkAddr x s ga 64 true
    let la := x.w.regs.labG a.toNat
    let s ← orderAccess x s [pa]
    let s ← publishFirst x s [pa / 64]
    if x.replicated && externalEntry x (pa / 64) then
      let q ← onceOp x s [opRecord x la ga.toNat [ga]] fun s => .ok (ringVerdict s pa (ringChecks x s ga.toNat pa la))
      let code := (nth 0 q.2.1 0).toNat
      if code = 0 then .ok q.1
      else if code = 0x05 then x.trapL q.1 0x05 x.grp ga (nth [] q.2.2 0) (nth [] q.2.2 1)
      else x.trap q.1 code x.grp (nth 0 q.2.1 1) 0
    else do
      let r ← ringChecks x s ga.toNat pa la
      .ok (armRing s pa r)) s

/-! ## Pushes and pops (R249) -/

/-- The armed ring that Ga names (R249), once the warp's earlier atomics on its descriptor have been performed (R232): the
state, the descriptor's physical address and the ring. -/
def ringOperand (x : Ctx) (s : State) (ga : Word) (wr : Bool) : Except Stop (State × Nat × Ring) := do
  let pa ← checkAddr x s ga 64 wr
  let s ← orderAccess x s [pa]
  match kget s.rings pa with
  | some r => .ok (s, pa, r)
  | none => x.trapG s 0x02

/-- The replica of the issuing warp that changes a ring itself: every one its private copy's, the committing one an external
ring (R341, R344). -/
def Ctx.changesRing (x : Ctx) (pa : Nat) : Bool := !x.replicated || x.commits || !externalEntry x (pa / 64)

/-- A ring instruction takes its place at the ring (R238, R239): a push, operation `id` of its warp, joins those that wait; a
pop binds its warp, and frees the slot that it holds (R237). -/
def joinRing (x : Ctx) (s : State) (pa : Nat) (r : Ring) (push : Bool) (id : Nat) : State :=
  if !x.changesRing pa then s
  else if push then s.setRing pa { r with waiting := r.waiting ++ [(x.wk, id)] }
  else s.setRing pa { freeHeld r with consumer := some x.producer }

/-- What marks a ring instruction that is issued again (R241, R357): its ring is disarmed (R240), bound to another warp (R239),
or, for a push, not of words or below the labels of its operands (R249). -/
def ringFault (x : Ctx) (s : State) (p : Pend) (l : LaneOp) (push : Bool) : Option FlagMark :=
  match kget s.rings l.pa with
  | none => some (disarmMark p)
  | some r =>
    let src := joinL p.cap l.lab
    if if push then r.kind == 1 else boundElsewhere x r then some (disarmMark p)
    else if push && !dominates r.lab src then
      some { markFor p 0x05 (wd l.ga) 0 0 with srcl := some src, dstl := some r.lab }
    else none

/-- A ring instruction issued again as operation `id` (R241, R357): it takes its place at the ring, or the mark that its checks
give. -/
def rejoinRing (x : Ctx) (s : State) (p : Pend) (l : LaneOp) (push : Bool) (id : Nat) : Except FlagMark State :=
  match ringFault x s p l push, kget s.rings l.pa with
  | some m, _ => .error m
  | none, some r => .ok (joinRing x s l.pa r push id)
  | none, none => .ok s

/-- The descriptor that a ring operation names. -/
def ringPa (w : Work) : Nat := (ringWork w).getD 0

/-- RPUSH and RPUSH.T up to their wait for admission (R249): the push joins those that wait, and RING_PUSH_ADMIT
performs it; where its own release has disarmed the ring, its flag clears with a mark (R240).  `ret` is the result register of
the .T form. -/
def pushBody (x : Ctx) (s : State) (f : BitVec 1) (ret : Option Nat) (a b : Nat) : Except Stop State := do
  let q := x.w.regs
  let ga := q.getG a
  let p ← ringOperand x s ga true
  let s := p.1
  let r := p.2.2
  let lb := groupLabel x [a]
  let src := joinL (q.labG b) lb
  if r.kind = 1 then x.trapG s 0x02
  else if !dominates r.lab src then x.trapL s 0x05 x.grp ga src r.lab
  else
    let s ← if ret.isSome then bindOr x s ga [joinL r.lab lb] else .ok s
    let s ← itemQuota x s 1
    let s ← releaseAt x s x.lr.top 2
      [recordOf 3 src ga.toNat [q.getG b]]
    let p := x.pendOf (x.flag f) (.push ret ⟨0, ga.toNat, p.2.1, q.getG b, 0, lb, [ga, q.getG b]⟩)
    .ok (match kget s.rings (ringPa p.work) with
      | some r => addPend (joinRing x s (ringPa p.work) r true x.w.issued) x.wk p p.work [] 0
      | none => addMark s x.wk (disarmMark p))

/-- RPUSH (R249). -/
def execRpush (z : Bool) (a b : BitVec 6) (f : BitVec 1) (s : State) : Host.Outcome State Fault Refusal :=
  issue (.rpush z a b f) { rg := [a.toNat, b.toNat] } 0 (fun x s => pushBody x s f none a.toNat b.toNat) s

/-- RPUSH.T (R249). -/
def execRpushT (z : Bool) (d a b : BitVec 6) (f : BitVec 1) (s : State) : Host.Outcome State Fault Refusal :=
  issue (.rpushT z d a b f) { rg := [a.toNat, b.toNat], wg := [d.toNat] } 0
    (fun x s => pushBody x s f (some d.toNat) a.toNat b.toNat) s

/-- RPOP and RPOP.T up to their wait for a slot (R249): the warp binds as the consumer and its held slot becomes free.
RING_POP_TAKE takes the slot. -/
def popBody (x : Ctx) (s : State) (f : BitVec 1) (tform : Bool) (d a : Nat) : Except Stop State := do
  let ga := x.w.regs.getG a
  let p ← ringOperand x s ga true
  if boundElsewhere x p.2.2 then x.trapG p.1 0x02
  else
    let lb := groupLabel x [a]
    let s ← bindOr x p.1 ga [joinL p.2.2.lab lb]
    let s ← if p.2.2.kind = 0 then orderItems x s ((List.range p.2.2.count).map p.2.2.slotPa) else .ok s
    .ok (startPend x (joinRing x s p.2.1 p.2.2 false x.w.issued) (x.flag f)
      (.pop d tform ⟨0, ga.toNat, p.2.1, 0, 0, lb, [ga]⟩) [] 0)

/-- RPOP (R249). -/
def execRpop (z : Bool) (d a : BitVec 6) (f : BitVec 1) (s : State) : Host.Outcome State Fault Refusal :=
  issue (.rpop z d a f) { rg := [a.toNat], wg := [d.toNat] } 0 (fun x s => popBody x s f false d.toNat a.toNat) s

/-- RPOP.T (R249): the value, and whether a slot was taken, in an even pair of registers. -/
def execRpopT (z : Bool) (d : BitVec 5) (a : BitVec 6) (f : BitVec 1) (s : State) : Host.Outcome State Fault Refusal :=
  issue (.rpopT z d a f) { rg := [a.toNat], wg := [2 * d.toNat, 2 * d.toNat + 1] } 0
    (fun x s => popBody x s f true (2 * d.toNat) a.toNat) s

/-- The word that RSTAT returns for an armed ring (R250). -/
def ringStat (r : Ring) : Word :=
  wd (2 ^ 63 + b2n r.consumer.isSome * 2 ^ 62 + r.producers % 16 * 2 ^ 58 + r.taken % 2 ^ 32 * 2 ^ 26 +
    r.free % 2 ^ 13 * 2 ^ 13 + r.fill % 2 ^ 13)

/-- RSTAT (R250); the state of an external ring is read once in a replicated launch (R336). -/
def execRstat (z : Bool) (d a : BitVec 6) (s : State) : Host.Outcome State Fault Refusal :=
  issue (.rstat z d a) { rg := [a.toNat], wg := [d.toNat] } 0 (fun x s => do
    let ga := x.w.regs.getG a.toNat
    let pa ← checkAddr x s ga 64 false
    let s ← orderAccess x s [pa]
    let read (s : State) : Except Stop (State × List Word × List Label) :=
      match kget s.rings pa with
      | some r => .ok (s, [ringStat r], [joinL r.lab (granLabel s.mem pa)])
      | none => .ok (s, [0], [granLabel s.mem pa])
    let r ← if x.replicated && externalEntry x (pa / 64) then
        onceOp x s [opRecord x (x.w.regs.labG a.toNat) ga.toNat [ga]] read
      else read s
    writeGAt x r.1 ga d.toNat (nth 0 r.2.1 0) (joinL (nth [] r.2.2 0) (groupLabel x [a.toNat]))) s

end Sys2Proof.Machine
end

