-- ==== Sys2Proof/Machine/Engines.lean ====
section
/-! DEFINITION. The engine class (R298 to R301, R318, R319, R325 to R329): binding chains and handing sublists over,
ETAIL, WAITSEQ, SEQR, COLL and COMMQ, and the acceptance of held requests (R377). -/
namespace Sys2Proof.Machine

/-! ## Blocks as the engines see them -/

/-- The slot of warp `w` of a block (R57). -/
def slotOfWarp (w : Nat) : Nat := 8 * (w % 4) + w / 4

/-- The cores of one replica of a gang. -/
def Gang.coresOf (g : Gang) (r : Nat) : List Nat := nth [] g.cores r

/-- The key of warp `w` of block `b` in replica `r`. -/
def warpKey (la : Launch) (g : Gang) (b w r : Nat) : Option Nat :=
  ((g.coresOf r)[b % la.record.gangBlocks]?).map fun c => c * 32 + slotOfWarp w

/-- The context of a block in one replica of its gang, whatever its warps do. -/
def blockCtx (s : State) (l b rep : Nat) : Option Ctx :=
  match s.launchOf l with
  | none => none
  | some la =>
    let gi := b / la.record.gangBlocks
    match kget la.gangs gi with
    | none => none
    | some g => (nth [] g.cores rep)[b % la.record.gangBlocks]?.map fun c =>
        ⟨c * 32, c, 0, Warp.zero, ⟨l, b, rep, true⟩, la, gi, g, ⟨0, 0, 0, 15, 15, []⟩, 0, {}, []⟩

/-- The context of a block in the committing replica of its gang (R333, R346). -/
def commitCtx (s : State) (l b : Nat) : Option Ctx :=
  match s.launchOf l with
  | none => none
  | some la => match kget la.gangs (b / la.record.gangBlocks) with
    | none => none
    | some g => blockCtx s l b g.commit

/-- A device write into the Gallery (R303, R346, R367): at its home bank, into every replica's copy; a byte beyond
the gang's windows counts as published. -/
def deviceWrite (x : Ctx) (s : State) (pa : Nat) (bs : List Byte) : State :=
  let s := if beyondGang x pa then markPublished x s else s
  let s := homeWrite s pa bs
  if x.replicated && !externalEntry x (pa / 64) then
    (x.gang.members.filter (· != x.blk.rep)).foldl (fun t r => homeWrite t (replicaPa x r pa) bs) s
  else s

/-! ## Chains (R298 to R301) -/

/-- The word of a completion word (R300). -/
def cwordOf (halt seq : Nat) : Nat := halt * 2 ^ 56 + seq % 2 ^ 48

/-- The physical address of the completion word of the chain whose descriptor is at `key`: it lies in the descriptor's slice
(R299). -/
def Chain.cwordPa (c : Chain) (key : Nat) : Nat := key / 2 ^ 20 * 2 ^ 20 + c.cword % 2 ^ 20

/-- A chain's completion word written, for the block that bound it (R300, R303). -/
def writeCompletion (s : State) (key : Nat) (c : Chain) (halt : Nat) : State :=
  match commitCtx s c.launch c.b with
  | some x => deviceWrite x s (c.cwordPa key) (toBytes 8 (cwordOf halt c.seq))
  | none => s

/-- Chains bound to an engine (R298): those of swapped-out blocks stay bound. -/
def engineLoad (s : State) (e : Nat) : Nat :=
  (s.chains.filter fun p => p.2.engine == e).length +
  (s.contexts.map fun c => (c.chains.filter fun p => p.2.engine == e).length).sum

/-- The first engine of a core's group, by die and by cluster (R298). -/
def firstEngine (core : Nat) : Nat := core / 160 * 64 + core % 160 / 20 * 8

/-- The engine a new chain binds to (R298): of the group that serves the core's cluster, the one with the fewest bound
chains, the lowest-numbered on a tie; none when all hold 32. -/
def freeEngine (s : State) (core : Nat) : Option Nat :=
  let es := (List.range 8).map (firstEngine core + ·)
  let best := es.foldl (fun b e => if engineLoad s e < engineLoad s b then e else b) (firstEngine core)
  if engineLoad s best < 32 then some best else none

/-- A state with a chain replaced. -/
def State.setChain (s : State) (pa : Nat) (c : Chain) : State := { s with chains := kset s.chains pa c }

/-! ## Status, sequence and halts (R302, R306) -/

/-- A failed check: the status code, the address for FVA, and the labels of a LABEL status. -/
structure Halt where
  code : Nat
  fva : Nat
  bad : Option (Label × Label)
  deriving DecidableEq, Repr

/-- An entry's status written into its granule, with the rights of the block that handed it over (R302, R304). -/
def writeStatus (s : State) (e : Entry) (done : Nat) : State :=
  match commitCtx s e.sub.launch e.sub.b with
  | none => s
  | some x => match galPa x s (e.ga + 0x30) 16 true with
    | some pa =>
      let bs := toBytes 8 (e.fva % 2 ^ 52) ++ toBytes 8 (e.code * 2 ^ 56 + min e.denied 0xFFFFFF * 2 ^ 32 + done % 2 ^ 32)
      let n := min 16 (64 - pa % 64)
      let s := deviceWrite x s pa (bs.take n)
      if n = 16 then s else match galPa x s (e.ga + 0x30 + n) (16 - n) true with
        | some pb => deviceWrite x s pb (bs.drop n)
        | none => s
    | none => s

/-- A physical address in every replica's copy. -/
def copiesOf (x : Ctx) (pa : Nat) : List Nat :=
  if x.replicated && !externalEntry x (pa / 64) then x.gang.members.map fun r => replicaPa x r pa else [pa]

/-- The halted entry or command of a completion word recorded for WAITSEQ (R361), in every live replica's copy. -/
def recordHalt (x : Ctx) (s : State) (cwordPa entry : Nat) (bad : Option (Label × Label)) : State :=
  { s with haltAt := (copiesOf x cwordPa).foldl (fun t q => kset t q (entry, bad)) s.haltAt }

/-! ### Hand-overs that wait (R301, R325, R377) -/

/-- Two records of a hand-over name the same one. -/
def HandedOver.same (a b : HandedOver) : Bool := a.launch == b.launch && a.b == b.b && a.warp == b.warp && a.id == b.id

/-- The descriptor that a waiting hand-over names, while the committing replica's warp holds it. -/
def heldAt (s : State) (h : HandedOver) : Option Nat :=
  match commitCtx s h.launch h.b with
  | none => none
  | some x => ((warpKey x.la x.gang h.b h.warp x.gang.commit).bind s.warp).bind fun w =>
      match (w.held.find? fun r => r.kind == 0 && r.op.id == h.id).map (fun r => r.op.work) with
      | some (Work.etail l) => galPa x s l.ga 64 true
      | _ => none

/-- The hand-overs on a chain that wait and have not been given up, in the order of receipt. -/
def waitingOn (s : State) (key : Nat) : List HandedOver :=
  s.hub.handovers.filter fun h => !h.up && heldAt s h == some key

/-- A hand-over that its descriptor's home bank has received before still waits (R301). -/
def behind (s : State) (key : Nat) (me : HandedOver) : Bool := !((waitingOn s key).takeWhile fun h => !h.same me).isEmpty

/-- A hand-over that its descriptor's home bank has received, and that waits. -/
def received (s : State) (h : HandedOver) : State :=
  s.modHub fun u => { u with handovers := u.handovers.filter (fun g => !g.same h) ++ [h] }

/-- A hand-over that no longer waits. -/
def handedOver (s : State) (h : HandedOver) : State :=
  s.modHub fun u => { u with handovers := u.handovers.filter fun g => !g.same h }

/-- The hand-overs that find no place among a halted chain's sublists are given up (R325). -/
def giveUp (s : State) (key : Nat) (c : Chain) : State :=
  let up := (waitingOn s key).drop (16 - c.subs.length)
  s.modHub fun u => { u with handovers := u.handovers.map fun h => if up.any h.same then { h with up := true } else h }

/-- A chain halted (R306): SEQ and the code in one write; the hand-overs that find no place are given up (R325). -/
def haltChain (s : State) (key : Nat) (c : Chain) (code entry : Nat) (bad : Option (Label × Label)) : State :=
  let s := giveUp (s.setChain key { c with halt := code }) key c
  let s := match commitCtx s c.launch c.b with
    | some x => recordHalt x s (c.cwordPa key) entry bad
    | none => s
  writeCompletion s key c code

/-- SEQ passes the entries that have completed, one write each, and stops at the first that has failed (R303, R306). -/
def settleChain (key : Nat) : Nat → Chain → State → State
  | 0, c, s => s.setChain key c
  | n + 1, c, s =>
    match c.entries with
    | [] => s.setChain key c
    | e :: t =>
      if e.code = 1 || e.code = 2 then
        let c := { c with seq := c.seq + 1, entries := t }
        settleChain key n c (writeCompletion (s.setChain key c) key c 0)
      else if 0x10 ≤ e.code then haltChain s key c e.code e.ga e.bad
      else s.setChain key c

/-- A chain with an entry replaced, or added in order. -/
def Chain.put (c : Chain) (e : Entry) : Chain :=
  if c.entries.any (·.num == e.num) then { c with entries := c.entries.map fun f => if f.num = e.num then e else f }
  else { c with entries := c.entries ++ [e] }

/-- An entry that ends or stops: its status is written, and the chain's sequence moves (R306). -/
def endEntry (s : State) (key : Nat) (c : Chain) (e : Entry) (done : Nat) : State :=
  let s := writeStatus s e done
  let c := c.put e
  let s := if e.code < 0x10 then s
    else (c.entries.filter fun f => decide (e.num < f.num) && f.code == 0).foldl (fun s f => writeStatus s f f.chunks) s
  if c.halt = 0 then settleChain key c.entries.length c s else s.setChain key c

/-- An entry that halts by a failed check. -/
def failEntry (s : State) (key : Nat) (c : Chain) (e : Entry) (h : Halt) : State :=
  endEntry s key c { e with code := h.code, fva := h.fva, bad := h.bad, slot := none } e.chunks

/-- KIND of an entry. -/
def entKind (ds : List Word) : Nat := bits (nth 0 ds 0) 60 4
/-- DSP. -/
def entDsp (ds : List Word) : Nat := bits (nth 0 ds 0) 52 2
/-- PIDX. -/
def entPidx (ds : List Word) : Nat := bits (nth 0 ds 0) 56 4
/-- Dword `i` of an entry as a number. -/
def entDw (ds : List Word) (i : Nat) : Nat := (nth 0 ds i).toNat
/-- NROWS of a GATH or SCAT. -/
def entRows (ds : List Word) : Nat := bits (nth 0 ds 3) 32 16 + 1
/-- RPS. -/
def entRps (ds : List Word) : Nat := bits (nth 0 ds 3) 8 8
/-- An entry that delivers into a ring. -/
def entRings (ds : List Word) : Bool := entKind ds == 2 && entDsp ds == 2
/-- The rows of one chunk (R298). -/
def rowsPerChunk (ds : List Word) : Nat := if entRings ds then entRps ds else 16
/-- How many chunks an entry has (R298); a MIGR or PFCH is one. -/
def chunkCount (ds : List Word) : Nat :=
  match entKind ds with
  | 1 => (entDw ds 3 + 4095) / 4096
  | 2 => (entRows ds + rowsPerChunk ds - 1) / rowsPerChunk ds
  | 3 => (entRows ds + 15) / 16
  | _ => 1

/-- A started entry has performed one more chunk, in which some rows or lines were denied.  The DONE of one that has stopped
meanwhile records its progress (R306). -/
def chunkDone (s : State) (key num denied : Nat) : State :=
  match kget s.chains key with
  | none => s
  | some c => match c.entries.find? (·.num == num) with
    | none => s
    | some e =>
      let e := { e with chunks := e.chunks + 1, denied := e.denied + denied, slot := none }
      if chunkCount e.dw ≤ e.chunks then endEntry s key c { e with code := 1 } e.chunks
      else if c.entries.any fun f => decide (0x10 ≤ f.code) then (writeStatus s e e.chunks).setChain key (c.put e)
      else s.setChain key (c.put e)

/-! ## Ring delivery (R237, R311) -/

/-- A chain as a producer (R238). -/
def chainProducer (key : Nat) : Producer := (key, 0, 0, 1)

/-- A slot reserved for a chain in every copy (R237): it is filling, and PUT advances. -/
def reserveSlot (x : Ctx) (s : State) (key pa : Nat) : State :=
  (copiesOf x pa).foldl (fun s q => match kget s.rings q with
    | some r => s.setRing q (r.reserve (chainProducer key) 1)
    | none => s) s

/-- A reserved slot written, in every copy (R237): every byte of it, and then it is full. -/
def fillSlot (x : Ctx) (s : State) (pa : Nat) (f : Filling) : State :=
  let s := if beyondGang x pa then markPublished x s else s
  (copiesOf x pa).foldl (fun s q => match kget s.rings q with
    | none => s
    | some r =>
      let n := 2 ^ r.lsize
      let slot := r.slotPa f.num
      let data := f.data ++ List.replicate (n - f.data.length) 0
      let s := (lineParts slot n).foldl (fun s p => homeWrite s p.1 ((data.drop (p.1 - slot)).take p.2)) s
      s.setRing q { r with slots := kset r.slots f.num 2 }) s

/-- A begun delivery completed (R311): its denied rows leave their records (R312), and its slot is full.  One whose ring has
been disarmed is not.  An entry's records are in the order of its chunks (log entry 23). -/
def deliverSlot (s : State) (key : Nat) (e : Entry) : State :=
  match e.slot, e.ring, commitCtx s e.sub.launch e.sub.b with
  | some f, some pa, some x =>
    if e.disarmed then s
    else
      let prin := nth 0 x.lr.prins (entPidx e.dw) % 2 ^ 24
      let s := f.denied.foldl (fun s d => sumpRecord s x.asid 1 d.1 prin d.2.toNat e.sub.b e.num) s
      chunkDone (fillSlot x s pa f) key e.num f.denied.length
  | _, _, _ => s

/-- A delivery of an entry that has begun. -/
def Entry.filling (e : Entry) : Bool := e.slot.isSome && !e.disarmed

/-- The begun deliveries of a chain completed: it then stands at a chunk boundary. -/
def finishSlots (s : State) (key : Nat) (c : Chain) : State :=
  (c.entries.filter (·.filling)).foldl (fun s e => deliverSlot s key e) s

/-- A chain that is to stop: with DETACH (R309), or with CANCEL (R308). -/
def stopChain (s : State) (key : Nat) (c : Chain) (code : Nat) : State :=
  if c.halt ≠ 0 then s
  else match c.entries.find? (·.code == 0) with
    | some e => failEntry s key c e ⟨code, e.ga, none⟩
    | none => haltChain s key c code (match c.walk, c.subs with
        | some w, _ => w.first
        | none, w :: _ => w.first
        | none, [] => 0) none

/-- A chain that stops at its chunk boundary: the deliveries that have begun are completed first (R237, R308). -/
def stopAtChunk (s : State) (key : Nat) (c : Chain) (code : Nat) : State :=
  let s := finishSlots s key c
  match kget s.chains key with
  | some c => stopChain s key c code
  | none => s

/-- A chain whose descriptor has been written halts with DETACH at its chunk boundaries, and unbinds (R309). -/
def unbindChain (s : State) (key : Nat) (c : Chain) : State :=
  let s := stopAtChunk s key c 0x16
  { s with chains := kdel s.chains key }

/-- How a hand-over ends at the descriptor's home bank (R325). -/
inductive HandOver where
  /-- Queued, or nothing to queue. -/
  | done (s : State)
  /-- It waits (R377). -/
  | hold
  /-- A check failed: the code, the address it reports and the labels of a label check. -/
  | bad (code addr : Nat) (labs : List Label)

/-- A halted chain resumed (R306): HALT clears, and every stopped entry is read again and continues at its chunk. -/
def resumeChain (s : State) (pa : Nat) (c : Chain) : State :=
  let s := s.setChain pa { c with
    halt := 0
    entries := c.entries.map fun e =>
      if e.code = 1 || e.code = 2 then e else { e with fresh := true, code := 0, bad := none } }
  writeCompletion s pa c 0

/-- A hand-over on a bound chain (R325): one behind a hand-over that waits there waits too (R301). -/
def queueSub (s : State) (pa : Nat) (c : Chain) (sub : SubList) (late : Bool) : HandOver :=
  if sub.count = 0 then (if c.halt = 0 then .done s else .done (resumeChain s pa c))
  else if 16 ≤ c.subs.length && c.halt != 0 then .bad 0x02 0 []
  else if 16 ≤ c.subs.length || late then .hold
  else .done (s.setChain pa { c with subs := c.subs ++ [sub], tail := c.tail + sub.count })

/-- A first hand-over on a descriptor binds a chain (R298, R299, R301). -/
def bindChain (x : Ctx) (s : State) (pa ga : Nat) (sub : SubList) (late : Bool) : HandOver :=
    let bs := readBytes s.mem.gal pa 64
    let cw := numAt bs 4 4
    if numAt bs 0 4 ≠ 0 || numAt bs 8 56 ≠ 0 || cw % 8 ≠ 0 then .bad 0x02 0 []
    else match galPa x s cw 8 true with
      | none => .bad 0x08 cw []
      | some cp =>
        if cp / 2 ^ 20 ≠ pa / 2 ^ 20 || cp / 64 = pa / 64 then .bad 0x02 0 []
        else if !dominates (granLabel s.mem cp) (granLabel s.mem pa) then
          .bad 0x05 ga [granLabel s.mem pa, granLabel s.mem cp]
        else match (if late then none else freeEngine s x.core) with
          | none => .hold
          | some e =>
            let c : Chain := ⟨e, ga, cw, x.blk.launch, x.blk.b, 0, 0, 0, [], none, [], 1, false⟩
            queueSub (deviceWrite x (s.setChain pa c) cp (toBytes 8 (cwordOf 0 0))) pa c sub false

/-- A hand-over at the descriptor's home bank, as one action (R325); a chain that has been detached unbinds first (R309).
`late` says that one received before it waits there. -/
def handOver (x : Ctx) (s : State) (pa ga : Nat) (sub : SubList) (late : Bool) : HandOver :=
  match kget s.chains pa with
  | some c => if c.detached then bindChain x (unbindChain s pa c) pa ga sub late else queueSub s pa c sub late
  | none => bindChain x s pa ga sub late

/-! ## ETAIL (R325) -/

/-- The kind 5 records of a sublist (R337, R340): each entry's 64 bytes, as its links lead, with what the warp's release
publishes over them.  Echo takes them when it compares, so that an external entry is read once for every replica (R336). -/
def entryRecords (x : Ctx) (s : State) : Nat → Nat → List Record
  | 0, _ => []
  | n + 1, a => match galPa x s a 64 false with
    | none => []
    | some pa =>
      let o := overlay (x.w.phase.filter (·.gran == pa / 64)) 0 (readBytes s.mem.gal pa 64)
      recordOf 5 (joinAll (granLabel s.mem pa :: o.2.map (·.lab))) a ((List.range 8).map fun i => dwordAt o.1 (8 * i)) ::
        entryRecords x s n (numAt o.1 0 4)

/-- The records of the sublists that an instruction's own records name (R340). -/
def sublistRecords (x : Ctx) (s : State) (rs : List Record) : List Record :=
  (rs.filter (·.kind == 4)).flatMap fun r => entryRecords x s (bits (nth 0 r.data 0) 32 16) (bits (nth 0 r.data 0) 0 32)

/-- The Echo event of the issuing instruction. -/
def Ctx.event (x : Ctx) : Nat := match x.w.echo with
  | some e => e.event
  | none => x.w.events

/-- A hand-over that waits: it is held before the warp's next clause (R377). -/
def holdEtail (x : Ctx) (s : State) (l : LaneOp) : State :=
  s.modWarp x.wk fun w =>
    { w with held := w.held ++ [⟨0, x.newPend none (.etail l) [] 0 w.issued, 0, []⟩], issued := w.issued + 1 }

/-- The issuing warp's hand-over with operation number `n`. -/
def Ctx.handover (x : Ctx) (n : Nat) : HandedOver := ⟨x.blk.launch, x.blk.b, x.w.index, n, false⟩

/-- The sublist that G[b] names, for the issuing warp. -/
def subOf (x : Ctx) (gb : Word) (lab : Label) (event : Nat) : SubList :=
  ⟨bits gb 0 32, bits gb 32 16, lab, x.blk.launch, x.blk.b, x.w.index, event⟩

/-- What a hand-over delivers to every replica: 0 done, 1 held, 2 a trap with its code and address. -/
def handResult (s : State) (me : HandedOver) : HandOver → State × List Word × List Label
  | .done s => (s, [0], [])
  | .hold => (received s me, [1], [])
  | .bad code addr ls => (s, [2, wd code, wd addr], ls)

/-- ETAIL (R325): the release and the hand-over are one event in a replicated launch (R333), and the committing replica's
chain takes the sublist (R346). -/
def execEtail (z : Bool) (a b : BitVec 6) (s : State) : Host.Outcome State Fault Refusal :=
  issue (.etail z a b) { rg := [a.toNat, b.toNat] } 0 (fun x s => do
    let ga := x.w.regs.getG a.toNat
    let gb := x.w.regs.getG b.toNat
    let n := bits gb 32 16
    if ga.toNat % 64 ≠ 0 then x.trap s 0x0B x.grp ga 0
    else if bits gb 48 16 ≠ 0 || decide (4096 < n) || (n != 0 && bits gb 0 32 % 64 != 0) then x.trapG s 0x02
    else match galPa x s ga.toNat 64 true with
      | none => x.trap s 0x08 x.grp ga 0
      | some pa =>
        let c := groupLabel x [a.toNat, b.toNat]
        if !dominates (granLabel s.mem pa) c then x.trapL s 0x05 x.grp ga c (granLabel s.mem pa)
        else do
          let s ← itemQuota x s 1
          let me := x.handover x.w.issued
          let r ← releaseOnce x s x.lr.top [recordOf 4 c ga.toNat [gb]] fun s =>
            .ok (handResult s me (handOver x s pa ga.toNat (subOf x gb c x.event) (behind s pa me)))
          let st := nth 0 r.2.1 0
          if st = 0 then .ok r.1
          else if st = 1 then .ok (holdEtail x r.1 ⟨0, ga.toNat, pa, gb, wd x.event, c, [ga, gb]⟩)
          else
            let code := (nth 0 r.2.1 1).toNat
            if code = 0x05 then x.trapL r.1 0x05 x.grp ga (nth [] r.2.2 0) (nth [] r.2.2 1)
            else x.trap r.1 code x.grp (nth 0 r.2.1 2) 0) s

/-! ## Held requests (R377) -/

/-- Every warp that shares a warp's first held request holds it too: in a replicated launch each has received Echo's
answer. -/
def heldByAll (x : Ctx) (s : State) (h : HeldReq) : Bool :=
  (sharers x).all fun k => match s.warp k with
    | some w => w.held.head?.any fun g => g.op.id == h.op.id
    | none => false

/-- A warp's first held request accepted or given up. -/
def dropHeld (s : State) (ks : List Nat) : State :=
  ks.foldl (fun s k => s.modWarp k fun w => { w with held := w.held.drop 1 }) s

/-- A held request that ends in a deferred fault (R325, R358): it is marked in every warp that holds it. -/
def markHeld (s : State) (ks : List Nat) (code : Nat) (addr : Word) (labs : List Label) : State :=
  ks.foldl (fun s k => s.modWarp k fun w => match w.held with
    | [] => w
    | h :: _ => { w with marks := w.marks ++
        [{ markFor h.op code addr 0 0 with srcl := labs[0]?, dstl := labs[1]? }] }) s

/-- A held ETAIL handed over by the committing replica; one that its chain's halt has given up, or that the chain cannot take
any more, is ILLEGAL-STATE at POINT 2 (R325). -/
def acceptEtail (x : Ctx) (s : State) (n : Nat) (l : LaneOp) : State :=
  let me := x.handover n
  let done (s : State) : State := dropHeld (handedOver s me) (sharers x)
  if s.hub.handovers.any fun h => h.up && h.same me then done (markHeld s (sharers x) 0x02 0 [])
  else
  match commitCtx s x.blk.launch x.blk.b with
  | none => s
  | some y =>
    let y := { y with w := x.w }
    match galPa y s l.ga 64 true with
    | none => s
    | some pa =>
      match handOver y s pa l.ga (subOf y l.v l.lab l.n.toNat) (behind s pa me) with
      | .done s => done s
      | .hold => s
      | .bad code addr ls => done (markHeld s (sharers x) code (wd addr) ls)

/-- HELD_REQUEST_ACCEPT (R377): the first held request of a warp is accepted, or given up, if it no longer waits. -/
def execHeldRequestAccept (w : Nat) (s : State) : Host.Outcome State Fault Refusal :=
  match ctxOf s w ⟨0, 0, 0, 15, 15, []⟩ 0 with
  | none => .next s
  | some x =>
    match x.w.held with
    | [] => .next s
    | h :: _ =>
      if !heldByAll x s h then .next s
      else if h.kind = 0 then
        match h.op.work with
        | .etail l => .next (acceptEtail x s h.op.id l)
        | _ => .next (dropHeld s (sharers x))
      else match formGen s (x.part s) h.first h.ds with
        | some s => .next (dropHeld s (sharers x))
        | none => .next s

/-! ## WAITSEQ (R326) -/

/-- The trap code of a status at WAITSEQ (R304). -/
def haltCode (h : Nat) : Nat :=
  match h with
  | 0x12 => 0x05
  | 0x15 => 0x0D
  | 0x17 => 0x07
  | _ => 0x0C

/-- The trap of a WAITSEQ whose word is halted (R304, R361): precise at the WAITSEQ. -/
def haltTrap (x : Ctx) (s : State) (ga pa halt : Nat) (cap : Label) : Trap :=
  let at_ := aget (0, none) s.haltAt pa
  let code := haltCode halt
  let entry := if code = 0x0D then at_.1 / 64 * 64 + 3 else at_.1
  let labs := if code = 0x05 then at_.2 else none
  { x.mkTrap code with
    addr := wd ga, aux := wd entry, srcl := labs.map (·.1), dstl := labs.map (·.2), tfl := joinL x.w.wcl cap }

/-- What a completion word says to a WAITSEQ for a target (R326): reached, halted, or neither. -/
def seqReached (v target : Nat) : Bool := decide (target ≤ v % 2 ^ 48)

/-- A warp that waits at WAITSEQ no longer does. -/
def endWait (s : State) (k : Nat) : State := s.modWarp k fun w => { w with wait := .none }

/-- WAITSEQ's effect on a word's value (R326). -/
def waitseqOn (x : Ctx) (s : State) (ga pa target : Nat) (cap : Label) (v : Nat) : Except Stop State :=
  if seqReached v target then .ok (acquireWidest x s)
  else if v / 2 ^ 56 ≠ 0 then .error (.trap (haltTrap x s ga pa (v / 2 ^ 56) cap) s)
  else .error (.stall (s.modWarp x.wk fun w => { w with wait := .seq ga pa target cap }))

/-- WAITSEQ (R326): the read of an external word is once-performed in a replicated launch (R336). -/
def execWaitseq (a b : BitVec 6) (s : State) : Host.Outcome State Fault Refusal :=
  issue (.waitseq a b) { rg := [a.toNat, b.toNat] } 0 (fun x s => do
    let q := x.w.regs
    let ga := q.getG a.toNat
    let target := q.getG b.toNat
    if ga.toNat % 8 ≠ 0 then x.trap s 0x0B x.grp ga 0
    else if bits target 48 16 ≠ 0 then x.trap s 0x02 x.grp ga 0
    else match galPa x s ga.toNat 8 false with
      | none => x.trap s 0x08 x.grp ga 0
      | some pa => do
        let src := joinAll [q.labG a.toNat, q.labG b.toNat, granLabel s.mem pa]
        if !dominates x.wcl src then x.trapL s 0x04 x.grp ga src x.wcl
        let s ← orderAccess x s [pa]
        let read (s : State) : Except Stop (State × List Word × List Label) := .ok (s, [wd (readNum s.mem.gal pa 8)], [])
        let r ← if x.replicated && externalEntry x (pa / 64) then
            onceOp x s [opRecord x (groupLabel x [a.toNat, b.toNat]) ga.toNat [ga, target]] read
          else read s
        waitseqOn x r.1 ga.toNat pa target.toNat (joinL (q.labG a.toNat) (q.labG b.toNat)) (nth 0 r.2.1 0).toNat) s

/-- The end of one warp's WAITSEQ on a word's value: its clause ends, or it traps at the WAITSEQ (R326). -/
def observeSeq (s : State) (k v : Nat) : State :=
  match s.warp k with
  | none => s
  | some w =>
    match w.wait, w.run with
    | .seq ga pa target cap, some r =>
      if cancelledWarp s k then s.setWarp k { w with status := .stopped }
      else match ctxOf (endWait s k) k r 0 with
        | none => s
        | some x =>
          let x := { x with word := (r.wordAt r.pos).getD 0 }
          if seqReached v target then endClause (clearOrd (acquireWidest x (endWait s k)) k true) k false
          else if v / 2 ^ 56 ≠ 0 then takeTrap (endWait s k) k (haltTrap x s ga pa (v / 2 ^ 56) cap)
          else s
    | _, _ => s

/-- The warps that observe a word together: every live replica's for an external word (R336), else the one. -/
def seqWatchers (s : State) (k pa : Nat) : List Nat :=
  match ctxOf s k ⟨0, 0, 0, 15, 15, []⟩ 0 with
  | none => [k]
  | some x => if externalEntry x (pa / 64) then sharers x else [k]

/-- A warp waits at WAITSEQ. -/
def waitsSeq (s : State) (k : Nat) : Bool :=
  match s.warp k with
  | some w => (match w.wait with
    | .seq _ _ _ _ => true
    | _ => false)
  | none => false

/-- WAITSEQ_OBSERVE (R326): a waiting warp reads the completion word at its home bank. -/
def execWaitseqObserve (w : Nat) (s : State) : Host.Outcome State Fault Refusal :=
  match (s.warp w).map Warp.wait with
  | some (.seq _ pa _ _) =>
    let ks := seqWatchers s w pa
    if ks.all (waitsSeq s) then .next (ks.foldl (fun t k => observeSeq t k (readNum s.mem.gal pa 8)) s) else .next s
  | _ => .next s

/-! ## SEQR (R327) -/

/-- TAIL of the chain at a descriptor, 0 when none is bound. -/
def chainTail (s : State) (pa : Nat) : Nat := match kget s.chains pa with
  | some c => c.tail
  | none => 0

/-- SEQR (R327): the committing replica's chain answers (R343). -/
def execSeqr (z : Bool) (d a : BitVec 6) (s : State) : Host.Outcome State Fault Refusal :=
  issue (.seqr z d a) { rg := [a.toNat], wg := [d.toNat] } 0 (fun x s => do
    let ga := x.w.regs.getG a.toNat
    let pa ← checkAddr x s ga 64 false
    let s ← orderAccess x s [pa]
    let lab := joinL (granLabel s.mem pa) (groupLabel x [a.toNat])
    let s ← bindOr x s ga [lab]
    let r ← onceOp x s [opRecord x (x.w.regs.labG a.toNat) ga.toNat [ga]] fun s =>
      .ok (s, [wd (chainTail s pa)], [])
    writeGAt x r.1 ga d.toNat (nth 0 r.2.1 0) lab) s

/-! ## COLL and COMMQ (R318, R319, R328, R329) -/

/-- A communicator. -/
def State.comm (s : State) (n : Nat) : Comm := aget Comm.zero s.hub.comms n
/-- VALID (R318). -/
def Comm.valid (c : Comm) : Bool := bit c.dw 63
/-- PRIO (R318). -/
def Comm.prio (c : Comm) : Nat := bits c.dw 60 3
/-- NRANK (R318). -/
def Comm.nrank (c : Comm) : Nat := bits c.dw 49 7
/-- RESV (R318). -/
def Comm.resv (c : Comm) : Nat := bits c.dw 33 16

/-- A rank entry lists this module and an ASID (R318). -/
def rankLists (s : State) (asid e : Nat) : Bool :=
  e / 2 ^ 24 % 256 == s.hub.moduleNumber && e / 2 ^ 11 % 2 ^ 13 == asid

/-- OP of a collective command (R319). -/
def collOp (ds : List Word) : Nat := bits (nth 0 ds 0) 60 4
/-- DT. -/
def collDt (ds : List Word) : Nat := bits (nth 0 ds 0) 56 4
/-- ROP. -/
def collRop (ds : List Word) : Nat := bits (nth 0 ds 0) 52 4
/-- COMM. -/
def collComm (ds : List Word) : Nat := bits (nth 0 ds 0) 46 6
/-- RANK. -/
def collRank (ds : List Word) : Nat := bits (nth 0 ds 0) 40 6
/-- ROOT. -/
def collRoot (ds : List Word) : Nat := bits (nth 0 ds 0) 34 6
/-- PIDX. -/
def collPidx (ds : List Word) : Nat := bits (nth 0 ds 0) 30 4
/-- COUNT. -/
def collCount (ds : List Word) : Nat := bits (nth 0 ds 3) 0 32
/-- COBJ. -/
def collCobj (ds : List Word) : Nat := bits (nth 0 ds 4) 0 32
/-- CSEQ. -/
def collCseq (ds : List Word) : Nat := bits (nth 0 ds 5) 0 48

/-- The field rules of a collective command (R319). -/
def commandOk (ds : List Word) : Bool :=
  let op := collOp ds
  let reduces := op == 1 || op == 2
  decide (1 ≤ op) && decide (op ≤ 4) && decide (collDt ds ≤ 5) &&
  (if reduces then decide (collRop ds ≤ 2) && collDt ds != 5 else collRop ds == 0) &&
  (op == 2 || op == 3 || collRoot ds == 0) && bits (nth 0 ds 0) 0 30 == 0 &&
  bits (nth 0 ds 1) 52 12 == 0 && bits (nth 0 ds 1) 0 6 == 0 &&
  bits (nth 0 ds 2) 52 12 == 0 && bits (nth 0 ds 2) 0 6 == 0 &&
  bits (nth 0 ds 3) 32 32 == 0 && collCount ds != 0 && (collDt ds != 5 || collCount ds % 64 == 0) &&
  bits (nth 0 ds 4) 32 32 == 0 && bits (nth 0 ds 5) 48 16 == 0 && collCseq ds != 0 && nth 0 ds 6 == 0 && nth 0 ds 7 == 0

/-- The communicator rules of a collective command (R328). -/
def memberOk (s : State) (asid : Nat) (ds : List Word) : Bool :=
  let c := s.comm (collComm ds)
  c.valid && decide (collRank ds < c.nrank) && decide (collRoot ds < c.nrank) &&
  rankLists s asid (nth 0 c.ranks (collRank ds))

/-- The number of the next COLL of a rank on a communicator (R320). -/
def collKey (ds : List Word) : Nat := collComm ds * 64 + collRank ds

/-- A rank's part queued on its die's collective engine, its completion object cleared (R323, R328); in a partition that is being
pre-empted it pauses at once (R324). -/
def queuePart (x : Ctx) (s : State) (cmd cobjPa : Nat) (ds : List Word) (c : Label) : State :=
  let paused := decide (2 ≤ (s.partOf (x.part s)).state)
  let s := markPublished x (deviceWrite x s cobjPa (toBytes 64 (if paused then 2 * 2 ^ 96 else 0)))
  let k := aget 0 s.hub.colls (collKey ds)
  s.modHub fun h => { h with
    colls := aset 0 h.colls (collKey ds) (k + 1)
    parcels := h.parcels ++ [⟨collComm ds, collRank ds, k, ds, cmd, x.blk.launch, x.blk.b, c, 0, paused, 0, x.core / 160,
      if beyondGang x cobjPa then some cobjPa else none⟩] }

/-- The checks of COLL on a command that has been read (R328): the completion object's physical address. -/
def collChecks (x : Ctx) (s : State) (ga : Word) (ds : List Word) (c : Label) : Except Stop Nat :=
  let cobj := collCobj ds
  match galPa x s (cobj / 64 * 64) 64 true with
  | none => x.trap s 0x08 x.grp (wd cobj) 0
  | some cp =>
    if cobj % 64 ≠ 0 then x.trap s 0x0B x.grp (wd cobj) 0
    else if !commandOk ds || !memberOk s x.asid ds then x.trapG s 0x02
    else if !dominates (granLabel s.mem cp) c then x.trapL s 0x05 x.grp ga c (granLabel s.mem cp)
    else .ok cp

/-- COLL's read of its command and, where its checks pass, its hand-over; the command and its label are delivered. -/
def collPerform (x : Ctx) (ga : Word) (pa : Nat) (lab : Label) (s : State) : State × List Word × List Label :=
  let r := readAccess s x.core pa 64 false
  let ds := (List.range 8).map fun i => dwordAt r.2.bytes (8 * i)
  let c := joinL r.2.lab lab
  match collChecks x r.1 ga ds c with
  | .ok cp => (queuePart x r.1 ga.toNat cp ds c, ds, [c])
  | .error _ => (r.1, ds, [c])

/-- COLL (R328): performed once for all replicas (R343). -/
def execColl (z : Bool) (a : BitVec 6) (s : State) : Host.Outcome State Fault Refusal :=
  issue (.coll z a) { rg := [a.toNat] } 0 (fun x s => do
    let ga := x.w.regs.getG a.toNat
    let pa ← checkAddr x s ga 64 false
    let s ← orderAccess x s [pa]
    let r ← onceOp x s [opRecord x (groupLabel x [a.toNat]) ga.toNat [ga]] fun s =>
      .ok (collPerform x ga pa (groupLabel x [a.toNat]) s)
    let _ ← collChecks x r.1 ga r.2.1 (nth [] r.2.2 0)
    .ok r.1) s

/-- The word of COMMQ (R329). -/
def commWord (s : State) (asid n : Nat) : Word :=
  let c := s.comm n
  if c.valid then
    let mine := (List.range c.nrank).find? fun i => rankLists s asid (nth 0 c.ranks i)
    wd (2 ^ 63 + bits c.dw 49 14 * 2 ^ 49 + b2n mine.isSome * 2 ^ 48 + mine.getD 0 * 2 ^ 42 + c.resv * 2 ^ 26)
  else 0

/-- COMMQ (R329). -/
def execCommq (z : Bool) (d a : BitVec 6) (s : State) : Host.Outcome State Fault Refusal :=
  issue (.commq z d a) { rg := [a.toNat], wg := [d.toNat] } 0 (fun x s =>
    let v := x.w.regs.getG a.toNat
    if bits v 6 58 ≠ 0 then x.trapG s 0x02
    else writeG x s d.toNat (commWord s x.asid (bits v 0 6)) (groupLabel x [a.toNat])) s

end Sys2Proof.Machine
end

