-- ==== Sys2Proof/Machine/Gang.lean ====
section
/-! DEFINITION. What stops a gang (R67, R308, R365 to R368, R371), and Echo's judgement of a replica (R333, R348 to R351):
shared by the monitor, Echo and the engines. -/
namespace Sys2Proof.Machine

/-! ## Places -/

/-- The gang that a block belongs to. -/
def LRec.gangOf (r : LRec) (b : Nat) : Nat := b / r.gangBlocks

/-- A gang of a launch. -/
def State.gangAt (s : State) (l g : Nat) : Option (Launch × Gang) :=
  match s.launchOf l with
  | none => none
  | some la => (kget la.gangs g).map fun x => (la, x)

/-- The cores of the live replicas of a gang. -/
def Gang.liveCores (g : Gang) : List Nat := g.live.flatMap g.coresOf

/-! ## Stopping (R67, R365) -/

/-- A warp told to stop (R365): at once where it waits between clauses or for Echo, else at its next clause boundary; one
that a trap awaits there (R350, R417) or that is trapped once the monitor has served its trap. -/
def askStop (w : Warp) : Warp :=
  match w.status with
  | .running =>
    if w.trap.isSome then w
    else if w.run.isNone || waitsEcho w || w.wait != .none then { w with status := .stopped }
    else { w with request := .stopped }
  | .trapped => { w with request := .stopped }
  | _ => { w with status := .stopped }

/-- A block is one of a gang's, in one of some replicas. -/
def ofGang (l : Nat) (la : Launch) (g : Nat) (reps : List Nat) (b : Option Block) : Bool :=
  match b with
  | some b => b.launch == l && la.record.gangOf b.b == g && reps.contains b.rep
  | none => false

/-- The cores that hold a gang's blocks in their live planes. -/
def hereCores (s : State) (l : Nat) (la : Launch) (gi : Nat) (g : Gang) : List Nat :=
  g.cores.flatten.filter fun c => ofGang l la gi (List.range g.cores.length) (s.core c).block

/-- Every block of a gang's live replicas is in its core's live planes. -/
def gangHere (s : State) (l : Nat) (la : Launch) (gi : Nat) (g : Gang) : Bool :=
  g.live.all fun r => (g.coresOf r).all fun c => ofGang l la gi [r] (s.core c).block

/-- A warp with a lane left told to stop. -/
def stopLive (p : Nat × Warp) : Nat × Warp := if p.2.live = 0 then p else (p.1, askStop p.2)

/-- The warps of a gang's blocks, in some replicas, told to stop; those of a block that is swapped out do not go on after a
resume. -/
def stopWarps (s : State) (l g : Nat) (reps : List Nat) : State :=
  match s.launchOf l with
  | none => s
  | some la =>
    let mine := ofGang l la g reps
    let s := { s with warps := s.warps.map fun (p : Nat × Warp) => if mine (s.core (p.1 / 32)).block then stopLive p else p }
    s.mapContexts fun c => if mine c.block then { c with warps := c.warps.map stopLive } else c

/-- A chain that a block of a gang bound. -/
def gangChain (l : Nat) (la : Launch) (g : Nat) (c : Chain) : Bool := c.launch == l && la.record.gangOf c.b == g

/-- A gang's chains stop for good at a chunk boundary, and unbind (R308). -/
def dropChains (s : State) (l g : Nat) : State :=
  match s.launchOf l with
  | none => s
  | some la =>
    let gone (p : Nat × Chain) : Bool := gangChain l la g p.2
    let s := (s.chains.filter gone).foldl (fun s p => finishSlots s p.1 p.2) s
    let s := { s with chains := s.chains.filter fun p => !gone p }
    s.mapContexts fun c => { c with chains := c.chains.filter fun p => !gone p }

/-- A code that a gang records, after the place of its warp in the order (LVL2, WARP) (R365). -/
def stopCode (la : Launch) (b w code : Nat) : Nat := ((b % la.record.gangBlocks) * 32 + w) * 256 + code

/-- A gang has stopped: each of its live replicas has. -/
def Gang.stopped (g : Gang) : Bool := !g.live.isEmpty && g.live.all fun r => (kget g.stop r).isSome

/-- A replica of a gang stopped by a trap that is not delivered (R67): the first trap in the order (LVL2, WARP) stands. -/
def stopReplica (s : State) (l g r code : Nat) : State :=
  let s := s.modGang l g fun x =>
    { x with stop := kset x.stop r (match kget x.stop r with
      | some u => min u code
      | none => code) }
  match s.gangAt l g with
  | none => s
  | some (_, x) =>
    let s := stopWarps s l g [r]
    if x.stopped then dropChains s l g else s

/-- A gang killed (R368): nothing of it is written back, and a notice goes to the supervisor. -/
def killGang (s : State) (l g code : Nat) : State :=
  match s.gangAt l g with
  | none => s
  | some (_, x) =>
    if x.ended || x.kill.isSome then s
    else
      let s := s.modGang l g fun x => { x with kill := some code }
      dropChains (stopWarps (s.notify 2 [l, g, code] []) l g (List.range x.cores.length)) l g

/-- A gang that failed is to be relaunched (R348, R368): it has not published beyond itself and was not relaunched
before. -/
def Gang.mayRelaunch (g : Gang) : Bool := !g.published && !g.relaunched

/-- A gang that was killed or failed, and is not to be relaunched. -/
def Gang.lost_ (g : Gang) : Bool := (g.kill.isSome || g.echoFail.isSome) && !g.mayRelaunch

/-! ## Fencing (R371) -/

/-- Gangs with a block on a core in a live replica: launch and gang. -/
def gangsOn (s : State) (c : Nat) : List (Nat × Nat) :=
  s.launches.flatMap fun p => (p.2.gangs.filter fun g => !g.2.ended && g.2.liveCores.contains c).map fun g => (p.1, g.1)

/-- A core fenced (R371): every gang that has a block on it is killed first and is not relaunched. -/
def fenceCore (s : State) (code c : Nat) : State :=
  if (s.core c).fenced then s
  else
    let s := (gangsOn s c).foldl (fun s p =>
      (killGang s p.1 p.2 code).modGang p.1 p.2 fun g => { g with relaunched := true }) s
    (s.modCore c fun k => { k with fenced := true, frozen := false }).notify 4 [c] []

/-! ## Echo traps (R352, R357) -/

/-- The word is an EXIT. -/
def isExit (w : BitVec 32) : Bool :=
  match decode w with
  | some (.exit _ _) => true
  | _ => false

/-- An Echo trap at the instruction of an event (R348, R349): its wait is over. -/
def echoTrap (s : State) (k code ev : Nat) : State :=
  match s.warp k with
  | none => s
  | some w => match w.run with
    | none => s
    | some r => match ctxOf s k r 0 with
      | none => s
      | some x =>
        let word := (r.wordAt r.pos).getD 0
        let t := { x.mkTrap code with
          word := word, point := if isExit word then 3 else 0, event := some (ev, x.blk.rep)
          tfl := joinL w.wcl ((w.echo.map (·.reads)).getD []) }
        takeTrap (s.setWarp k { w with echo := none }) k t

/-- A warp that can still take a trap: it has a lane left, has no trap and was not stopped for good. -/
def Warp.trapless (w : Warp) : Bool := w.live != 0 && w.trap.isNone && w.status != .stopped

/-- An Echo trap of a replica away from the event (R350, R417): taken where its warp waits between clauses, else at its
next clause boundary. -/
def lateTrap (s : State) (k code ev rep : Nat) : State :=
  match s.warp k with
  | none => s
  | some w =>
    if !w.trapless then s
    else
      let at_ := w.nextGroup
      let t := { startTrap w at_.1 at_.2 code 0 with event := some (ev, rep) }
      if w.run.isSome && !quiescent s k w then s.setWarp k { w with trap := some t, request := .trapped }
      else takeTrap (s.setWarp k { w with echo := none }) k t

/-- The frame words of a warp (R360). -/
def frameOf (w : Warp) : List Word := (List.range 8).map fun i => aget 0 w.tfw i

/-- The supervisor notice of a lost vote (R415): the warp, its replica and the event's number, with the trap frame as it
stands. -/
def lossNotice (s : State) (k ev : Nat) : State :=
  match s.warp k, (s.core (k / 32)).block with
  | some w, some b => s.notify 12 [k / 32, k % 32, b.launch, b.b, b.rep, ev] (frameOf w)
  | _, _ => s

/-- The trap of a replica that loses its vote away from the event, code `code`; a warp that can take none, since it is trapped,
stopped or has ended, leaves the notice at once (R415). -/
def voteTrap (s : State) (k code ev rep : Nat) : State :=
  match s.warp k with
  | none => s
  | some w => if w.trapless then lateTrap s k code ev rep else lossNotice s k ev

/-! ## The committing role (R333) -/

/-- A physical address of the committing replica's copy, in replica `r`'s copy. -/
def Gang.copyPa (x : Gang) (r pa : Nat) : Nat :=
  match (x.coresOf x.commit).findIdx? (· == pa / 2 ^ 20) with
  | some i => nth 0 (x.coresOf r) i * 2 ^ 20 + pa % 2 ^ 20
  | none => pa

/-- The role of the committing replica passed to another: the gang's chains are now those of its copy (R346), and the pushes
that wait at a ring outside the gang are its warps' (R341). -/
def passRole (s : State) (l g r : Nat) : State :=
  match s.gangAt l g with
  | none => s
  | some (la, x) =>
    if x.commit = r then s
    else
      let mine (c : Chain) : Bool := c.launch == l && la.record.gangOf c.b == g
      let key (pa : Nat) : Nat := match kget s.chains pa with
        | some c => if mine c then x.copyPa r pa else pa
        | none => pa
      let move (c : Chain) : Chain :=
        if mine c then { c with entries := c.entries.map fun e => { e with ring := e.ring.map (x.copyPa r) } } else c
      let heir (k : Nat) : Nat := match (x.coresOf x.commit).findIdx? (· == k / 32) with
        | some i => nth 0 (x.coresOf r) i * 32 + k % 32
        | none => k
      let s' := s.modGang l g fun x => { x with commit := r }
      { s' with
        rings := s.rings.map fun (p : Nat × Ring) =>
          if x.allCores.contains (p.1 / 2 ^ 20) then p
          else (p.1, { p.2 with waiting := p.2.waiting.map fun e => (heir e.1, e.2) })
        chains := s.chains.foldl (fun t p => kset t (key p.1) (move p.2)) []
        hub := { s'.hub with migrations := s'.hub.migrations.map fun m =>
          { m with entry := m.entry.map fun e => (key e.1, e.2) } } }

/-- The warps of a replica asked to stop at their next safe point, so that it can be copied (R351). -/
def askSafe (s : State) (cores : List Nat) : State :=
  { s with warps := s.warps.map fun p =>
      if cores.contains (p.1 / 32) && p.2.request == .running then (p.1, { p.2 with request := .preempted }) else p }

/-- A replica that disagreed is stopped (R349): the others go on, the committing role passes to the lowest-numbered one that is
not catching up if it was its (log entry 24), and it is to be re-cloned (R351), unless its core `c` has lost a vote of the
launch before: then the core is fenced and the gang finishes with the others. -/
def loseReplica (s : State) (l g r c : Nat) : State :=
  match s.gangAt l g with
  | none => s
  | some (la, x) =>
    let again := la.gangs.any fun y => y.2.lost.contains c
    let live := x.live.filter (· != r)
    let s := s.modLaunch l fun y => { y with vloss := y.vloss + 1 }
    let clone := x.clone.filter (·.1 != r)
    let s := if x.commit = r then passRole s l g ((live.filter fun k => clone.all (·.1 != k)).headD 0) else s
    let s := s.modGang l g fun y => { y with
      live := live, stop := kdel y.stop r, lost := y.lost ++ [c], clone := clone, kept := if clone.isNone then [] else y.kept }
    let s := stopWarps s l g [r]
    let s := (List.range la.record.gangBlocks).foldl (fun s i => match s.launchOf l with
      | some la => barLevels s l la (g * la.record.gangBlocks + i)
      | none => s) s
    match s.gangAt l g with
    | none => s
    | some (_, y) => if again then fenceCore s 0x0F c else askSafe s (y.coresOf y.commit)

/-- A gang whose replicas disagree without a majority (R348): it stops in every replica, with the detail of R352.  It is
relaunched when it may be; a mismatch in a relaunch that has not published has the cores `cs` of its block tested. -/
def failEcho (s : State) (l g detail : Nat) (cs : List Nat) : State :=
  match s.gangAt l g with
  | none => s
  | some (_, x) =>
    let s := s.modGang l g fun y => { y with echoFail := some (match y.echoFail with
      | some d => max d detail
      | none => detail) }
    let s := dropChains (stopWarps s l g (List.range x.cores.length)) l g
    if x.relaunched && !x.published then s.modHub fun h => { h with tests := h.tests ++ [⟨cs, [], false, 1⟩] } else s

/-! ## Judging signatures (R339, R341, R348, R349) -/

/-- What some replicas' signatures say. -/
inductive Verdict where
  /-- They match. -/
  | agree
  /-- One of three differs. -/
  | dissent (r : Nat)
  /-- There is no majority. -/
  | differ
  deriving DecidableEq, Repr

/-- The verdict on the signatures of the live replicas. -/
def judge (sigs : List (Nat × Sig)) : Verdict :=
  match sigs with
  | [a, b, c] =>
    if a.2 = b.2 then (if b.2 = c.2 then .agree else .dissent c.1)
    else if a.2 = c.2 then .dissent b.1
    else if b.2 = c.2 then .dissent a.1
    else .differ
  | [a, b] => if a.2 = b.2 then .agree else .differ
  | _ => .agree

end Sys2Proof.Machine
end

