-- ==== Sys2Proof/Machine/Launch.lean ====
section
/-! DEFINITION. The launch class (R72 to R74): LAUNCH, LCANCEL and LSTAT, and the copy of a waiting LAUNCH's record. -/
namespace Sys2Proof.Machine

/-! ## Reading a record -/

/-- The bytes of some granules as a load reads them (R179, R181). -/
def readGranules (core : Nat) (s : State) : List Nat → State × List Byte
  | [] => (s, [])
  | pa :: t =>
    let r := readAccess s core pa 64 false
    let q := readGranules core r.1 t
    (q.1, r.2.bytes ++ q.2)

/-- The label of a launch operand: its registers, WCL, and the record's eight granules (R72, R74). -/
def recordLabel (x : Ctx) (s : State) (regs pas : List Nat) : Label :=
  joinL (groupLabel x regs) (joinAll (pas.map (granLabel s.mem)))

/-- The bytes of a record as the words that Echo delivers. -/
def wordsOf (bs : List Byte) : List Word := (List.range ((bs.length + 7) / 8)).map fun i => dwordAt bs (8 * i)

/-! ## LAUNCH (R72) -/

/-- The operation number that the warp's next long-latency instruction gets. -/
def nextId (s : State) (k : Nat) : Nat :=
  match s.warp k with
  | some w => w.issued
  | none => 0

/-- A LAUNCH performed up to its wait for a slot: test 1 of R59 completes it at once; else it joins those that wait.
The words delivered: whether it has its verdict, and the verdict. -/
def launchPerform (x : Ctx) (qn : Nat) (bs : List Byte) (s : State) : State × List Word :=
  let s := markPublished x s
  let v := verdict s (some x.asid) qn bs
  if v = (4, 0x85) then (enqueue s (newLaunch s qn none x.asid bs v), [1, verdictWord v])
  else
    (s.modHub fun h =>
      let q := aget Queue.zero h.queues qn
      { h with queues := aset Queue.zero h.queues qn { q with waiting := q.waiting ++ [(x.wk, nextId s x.wk)] } }, [0, 0])

/-- What LAUNCH checks in a record that it has read (R72): the launch label is bound, and dominates. -/
def launchChecks (x : Ctx) (s : State) (ga : Word) (bs : List Byte) (src : Label) : Except Stop State :=
  match setOf (x.labels s) (numAt bs 0x3C 4 % 4096) with
  | none => x.trapG s 0x02
  | some L => if !dominates L src then x.trapL s 0x05 x.grp ga src L else bindOr x s ga [src]

/-- The record of a LAUNCH as it waits, or with its verdict: the words delivered first, and the record's. -/
def launchPend (x : Ctx) (s : State) (f : BitVec 1) (d qn : Nat) (vs : List Word) (bs : List Byte) (src : Label) : State :=
  let done := nth 0 vs 0 == 1
  let res : List LaneRes := if done then [⟨0, nth 0 vs 1, src, false⟩] else []
  startPend x s (x.flag f) (.launch d qn bs src) res (if done then 1 else 0)

/-- LAUNCH of a record that lies outside a replica's private copy (R336): the committing replica's core reads it in the
instruction's one event, and every replica receives its bytes and label (log entry 12). -/
def launchFar (x : Ctx) (s : State) (f : BitVec 1) (d : Nat) (ga gb : Word) (regs : Label) (pas : List Nat) : Except Stop State := do
  let qn := bits gb 0 12
  let q ← releaseOnce x s x.lr.top [opRecord x regs ga.toNat [ga, gb]] fun s =>
    let r := readGranules x.core s pas
    let src := joinL regs (joinAll (pas.map (granLabel s.mem)))
    match launchChecks x r.1 ga r.2 src with
    | .ok t =>
      let p := launchPerform x qn r.2 t
      .ok (p.1, p.2 ++ wordsOf r.2, [src])
    | .error _ => .ok (r.1, [0, 0] ++ wordsOf r.2, [src])
  let bs := (q.2.1.drop 2).flatMap fun w => toBytes 8 w.toNat
  let src := nth [] q.2.2 0
  let s ← launchChecks x q.1 ga bs src
  .ok (launchPend x s f d qn q.2.1 bs src)

/-- LAUNCH (R72): a release, performed once for all replicas in one event (R343). -/
def execLaunch (z : Bool) (d a b : BitVec 6) (f : BitVec 1) (s : State) : Host.Outcome State Fault Refusal :=
  issue (.launch z d a b f) { rg := [a.toNat, b.toNat], wg := [d.toNat] } 0 (fun x s => do
    let ga := x.w.regs.getG a.toNat
    let gb := x.w.regs.getG b.toNat
    let qn := bits gb 0 12
    if ga.toNat % 64 ≠ 0 then x.trap s 0x0B x.grp ga 0
    else match galGranules x s ga.toNat 512 false with
      | none => x.trap s 0x08 x.grp ga 0
      | some pas => do
        if bits gb 12 52 ≠ 0 then x.trapG s 0x02
        let s ← orderAccess x s pas
        if x.replicated && pas.any fun pa => externalEntry x (pa / 64) then
          launchFar x s f d.toNat ga gb (groupLabel x [a.toNat, b.toNat]) pas
        else
          let r := readGranules x.core s pas
          let src := recordLabel x r.1 [a.toNat, b.toNat] pas
          let s ← launchChecks x r.1 ga r.2 src
          let q ← releaseOnce x s x.lr.top [opRecord x src ga.toNat [ga, gb]] fun s =>
            let p := launchPerform x qn r.2 s
            .ok (p.1, p.2, [])
          .ok (launchPend x q.1 f d.toNat qn q.2.1 r.2 src)) s

/-- A queue has a free slot for a LAUNCH (R55). -/
def Queue.hasSlot (q : Queue) : Bool := decide (q.tail - q.head < 2 ^ q.logn)

/-- Every warp that shares a LAUNCH has left it pending: in a replicated launch each has received Echo's answer. -/
def launchThere (x : Ctx) (s : State) (n : Nat) : Bool :=
  (sharers x).all fun k => ((s.warp k).bind fun w => findPend w n).isSome

/-- The verdict given to the LAUNCH of a warp and of its replicas: their results stand ready. -/
def giveVerdict (x : Ctx) (s : State) (n : Nat) (v : Word) : State :=
  (sharers x).foldl (fun s j => s.modWarp j fun w =>
    match findPend w n with
    | some p => match p.work with
      | .launch _ _ _ l => w.setPend { p with res := [⟨0, v, l, false⟩], stage := 1 }
      | _ => w
    | none => w) s

/-- LAUNCH_RECORD_COPY (R72): the first LAUNCH that waits on its queue has its record copied into slot TAIL, and its
verdict. -/
def execLaunchRecordCopy (w n : Nat) (s : State) : Host.Outcome State Fault Refusal :=
  match (s.warp w).bind fun q => findPend q n with
  | none => .next s
  | some p =>
    match p.work, ctxOf s w ⟨0, 0, 0, 15, 15, []⟩ 0 with
    | .launch _ qn bs _, some x =>
      let q := aget Queue.zero s.hub.queues qn
      if q.waiting.headD (0, 0) != (w, n) || q.waiting.isEmpty || !q.hasSlot || s.hub.hubctl.getLsbD 0 == false ||
          !launchThere x s n || (sharers x).any (fun k => (s.warp k).any (·.status == .preempted)) then .next s
      else
        let v := verdict s (some x.asid) qn bs
        let s := writeVa s q.asid (q.ring.toNat + 512 * (q.tail % 2 ^ q.logn)) bs
        let q2 : Queue := { q with waiting := q.waiting.drop 1, tail := q.tail + 1, seen := q.tail + 1 }
        let s := s.modHub fun h => { h with queues := aset Queue.zero h.queues qn q2 }
        let s := enqueue s { newLaunch s qn (some q.tail) q.asid bs v with
          cwordAsid := if v = (4, 0x85) then x.asid else q.asid }
        .next (giveVerdict x s n (verdictWord v))
    | _, _ => .next s

/-! ## LCANCEL (R73) -/

/-- A launch cancelled: its unplaced blocks never run, its quiescent warps stop at once; its chains and
collectives stop at their next chunk boundary. -/
def cancelLaunch (s : State) (l : Nat) : State :=
  match s.launchOf l with
  | none => s
  | some la =>
    let s := s.modLaunch l fun x => { x with cancelled := true }
    stopQuiet s (la.gangs.flatMap fun g => if g.2.ended then [] else g.2.allCores)

/-- The launches that an LCANCEL names. -/
def cancelMatches (s : State) (asid qn cseq : Nat) : List Nat :=
  (s.launches.filter fun p => p.2.queue == qn && p.2.asid == asid && p.2.completed.isNone && p.2.record.cseq == cseq).map
    (·.1)

/-- LCANCEL (R73): performed once for all replicas. -/
def execLcancel (z : Bool) (a : BitVec 6) (s : State) : Host.Outcome State Fault Refusal :=
  issue (.lcancel z a) { rg := [a.toNat] } 0 (fun x s => do
    let v := x.w.regs.getG a.toNat
    let lab := joinL (x.w.regs.labG a.toNat) x.wcl
    if bits v 12 4 ≠ 0 then x.trapG s 0x02
    else if lab ≠ [] then x.trapL s 0x05 x.grp 0 lab []
    else
      let r ← onceOp x s [opRecord x [] v.toNat [v]] fun s =>
        let s := markPublished x (nextSeq s).1
        .ok ((cancelMatches s x.asid (bits v 0 12) (bits v 16 48)).foldl cancelLaunch s, [], [])
      .ok r.1) s

/-! ## LSTAT (R74) -/

/-- LSTAT (R74): the verdict of R59 without an enqueue; performed once for all replicas. -/
def execLstat (z : Bool) (d a : BitVec 6) (s : State) : Host.Outcome State Fault Refusal :=
  issue (.lstat z d a) { rg := [a.toNat], wg := [d.toNat] } 0 (fun x s => do
    let v := x.w.regs.getG a.toNat
    let ga := bits v 0 32
    if bits v 44 20 ≠ 0 then x.trapG s 0x02
    else if ga % 64 ≠ 0 then x.trap s 0x0B x.grp (wd ga) 0
    else match galGranules x s ga 512 false with
      | none => x.trap s 0x08 x.grp (wd ga) 0
      | some pas => do
        let s ← orderAccess x s pas
        let lab := recordLabel x s [a.toNat] pas
        let r ← onceOp x s [opRecord x (x.w.regs.labG a.toNat) ga [v]] fun s =>
          let q := readGranules x.core s pas
          .ok (q.1, [verdictWord (verdict q.1 (some x.asid) (bits v 32 12) q.2)], [lab])
        writeGAt x r.1 (wd ga) d.toNat (nth 0 r.2.1 0) (nth [] r.2.2 0)) s

end Sys2Proof.Machine
end

