-- ==== Sys2Proof/Machine/Platform.lean ====
section
/-! DEFINITION. The capability list (R390 to R392), CAPR (R412) and the software log (R413). -/
namespace Sys2Proof.Machine

/-! ## The capability list (R390, R391) -/

/-- A record's header (R390): version 1. -/
def capHeader (id len next : Nat) : Word := wd (next * 2 ^ 32 + len * 2 ^ 24 + 2 ^ 16 + id)

/-- The dwords after the header of each record in list order, with its ID (R391). -/
def capRecords (s : State) (c : CapSnap) : List (Nat × List Word) :=
  let fence (i : Nat) : Nat := (c.fenced.filter fun n => n / 64 == i).foldl (fun a n => a ||| 2 ^ (n % 64)) 0
  let mask (l : List Nat) : Nat := l.foldl (fun a n => a ||| 2 ^ n) 0
  [(0x0001, wd ((Config.cores - c.fenced.length) * 2 ^ 16 + Config.cores) :: (List.range 10).map fun i => wd (fence i)),
   (0x0002, [wd (c.contained.length * 2 ^ 16 + Config.controllers), wd (768 * 1024), wd (2 * 1024 * 1024)]),
   (0x0003, [wd (0x3F * 2 ^ 16 + 0x0100)]),
   (0x0004, [wd (4 * 2 ^ 9 + 256)]),
   (0x0005, [wd 3])] ++
  (if s.hub.testFuse then [(0x0006, [])] else []) ++
  [(0x0007, [wd (8 * 2 ^ 12 + 2 ^ 11 + 2 ^ 10 + 16 * 2 ^ 4 + 7)]),
   (0x0008, [wd (s.hub.moduleNumber % 2 ^ 8 * 2 ^ 36 + mask c.up * 2 ^ 18 + (2 ^ 18 - 1))]),
   (0x0009, [wd (Config.spdmVersions 0 % 2 ^ 8)])]

/-- The dwords of the list from a record at an offset on, each record's NEXT naming the one after it (R390). -/
def capDwords (off : Nat) : List (Nat × List Word) → List Word
  | [] => []
  | (id, ds) :: t =>
    let len := ds.length + 1
    (capHeader id len (if t.isEmpty then 0 else off + 8 * len) :: ds) ++ capDwords (off + 8 * len) t

/-- The dword of the list at an offset; 0 beyond the last record (R412). -/
def capDword (s : State) (c : CapSnap) (off : Nat) : Word := nth 0 (capDwords 0 (capRecords s c)) (off / 8)

/-- The fields of R392 as they stand. -/
def capNow (s : State) : CapSnap :=
  ⟨(s.cores.filter (·.2.fenced)).map (·.1), (s.hub.ctrls.filter (·.2.contained)).map (·.1),
    (s.hub.ports.filter (·.2.state == 3)).map (·.1)⟩

/-- CAPR (R412): the fields of R392 read as they stood when the launch was placed. -/
def execCapr (z : Bool) (d a : BitVec 6) (s : State) : Host.Outcome State Fault Refusal :=
  issue (.capr z d a) { rg := [a.toNat], wg := [d.toNat] } 0 (fun x s =>
    let v := x.w.regs.getG a.toNat
    if bits v 16 48 ≠ 0 then x.trapG s 0x02
    else if bits v 0 3 ≠ 0 then x.trap s 0x0B x.grp v 0
    else writeGAt x s v d.toNat (capDword s x.la.caps v.toNat) (groupLabel x [a.toNat])) s

/-! ## The software log (R413) -/

/-- The log descriptor's bytes, where records are not dropped. -/
def logDesc (s : State) (asid : Nat) : Option (List Byte) :=
  let d := (s.asidOf asid).slogd.toNat
  if d = 0 then none
  else match readVa s asid d 64 with
    | some bs => if numAt bs 0 8 = 0 then none else some bs
    | none => none

/-- LABEL of a log (R413). -/
def logLabel (s : State) (asid : Nat) (bs : List Byte) : Label :=
  (setOf (s.asidOf asid).labels (numAt bs 0x28 2 % 4096)).getD []

/-- A record appended to an ASID's log (R413). -/
def appendLog (x : Ctx) (s : State) (a b : Word) : State :=
  let r := nextSeq s
  ringPut r.1 x.asid (r.1.asidOf x.asid).slogd.toNat
    [wd (x.blk.b % 2 ^ 32 * 2 ^ 32 + x.w.index * 2 ^ 27 + x.asid), a, b, wd r.2]

/-- SLOG (R413): once for its group, and once for all replicas (R343). -/
def execSlog (z : Bool) (a b : BitVec 6) (s : State) : Host.Outcome State Fault Refusal :=
  issue (.slog z a b) { rg := [a.toNat, b.toNat] } 0 (fun x s => do
    let va := x.w.regs.getG a.toNat
    let vb := x.w.regs.getG b.toNat
    let src := groupLabel x [a.toNat, b.toNat]
    let r ← onceOp x s [opRecord x src 0 [va, vb]] fun s =>
      match logDesc s x.asid with
      | none => .ok (markPublished x s, [0], [])
      | some bs =>
        if dominates (logLabel s x.asid bs) src then .ok (appendLog x (markPublished x s) va vb, [0], [])
        else .ok (s, [1], [logLabel s x.asid bs])
    if nth 0 r.2.1 0 = 1 then x.trapL r.1 0x05 x.grp 0 src (nth [] r.2.2 0) else .ok r.1) s

end Sys2Proof.Machine
end

