-- ==== Sys2Proof/Machine/Place.lean ====
section
/-! DEFINITION. The placement front end and the placement units: doorbells and queue registers (R55), verdicts (R59),
eligibility (R56), placement (R57, R58, R332, R382), staging and the state at the first instruction (R61, R62). -/
namespace Sys2Proof.Machine

/-- A queue. -/
def State.queue (s : State) (q : Nat) : Queue := aget Queue.zero s.hub.queues q
/-- A state with a queue replaced. -/
def State.setQueue (s : State) (q : Nat) (v : Queue) : State :=
  s.modHub fun h => { h with queues := aset Queue.zero h.queues q v }
/-- HUBCTL.EN: placement runs (R393). -/
def placing (s : State) : Bool := bit s.hub.hubctl 0

/-! ## Doorbells and queue registers (R55) -/

/-- DOORBELL_WRITE (R55): TAIL carried to the front end; discarded with DBDROP for a device queue, and OVF outside HEAD to
HEAD + 2^LOGN. -/
def execDoorbellWrite (q : Nat) (v : Word) (s : State) : Host.Outcome State Fault Refusal :=
  if Config.queues ≤ q then .next s
  else
    let u := s.queue q
    if u.devq then .next (s.setQueue q { u with dbdrop := true })
    else if v.toNat < u.head || u.head + 2 ^ u.logn < v.toNat then .next (s.setQueue q { u with ovf := true })
    else .next (s.setQueue q { u with tail := max u.tail v.toNat })

/-- A launch's record stands in a slot that has not been consumed (R55). -/
def inSlot (q : Nat) (u : Queue) (la : Launch) : Bool :=
  la.queue == q && la.completed.isNone && match la.slot with
    | some k => decide (u.head ≤ k) && !u.consumed.contains k
    | none => false

/-- The launches of a queue whose slots are emptied (R55): one whose record is discarded before a block of it was placed is
gone; the placed blocks of another such one run on, and no completion word is written for it (log entry 13).  A launch whose
slot was consumed has no record there any more: it goes on as it is. -/
def discardRecords (q : Nat) (u : Queue) (ls : Tab Launch) : Tab Launch :=
  (ls.filter fun p => !(inSlot q u p.2 && p.2.gangs.isEmpty)).map fun p =>
    if inSlot q u p.2 then (p.1, { p.2 with queue := Config.queues, slot := none })
    else if p.2.queue = q then (p.1, { p.2 with slot := none }) else p

/-- QUEUE_ENABLE_WRITE (R55): the driver writes the fields of a queue descriptor.  When EN goes from 0 to 1, every record in the
slots is discarded, HEAD and TAIL are zero, and QSTAT is clear. -/
def execQueueEnableWrite (q : Nat) (ring ctl : Word) (coreMask : BitVec 640) (s : State) : Host.Outcome State Fault Refusal :=
  if Config.queues ≤ q then .next s
  else
    let u := s.queue q
    let v : Queue := { u with
      ring := ring, devq := bit ctl 33, en := bit ctl 32, asid := bits ctl 19 13, prio := bits ctl 16 3
      logn := bits ctl 0 16, coreMask := coreMask }
    if u.en || !v.en then .next (s.setQueue q v)
    else .next { s.setQueue q { v with head := 0, tail := 0, seen := 0, dbdrop := false, ovf := false, consumed := [] } with
      launches := discardRecords q u s.launches }

/-! ## Verdicts (R59) -/

/-- A record read from its slot; a slot that does not translate reads as zeros (log entry 13). -/
def slotRecord (s : State) (u : Queue) (k : Nat) : List Byte :=
  (readVa s u.asid (u.ring.toNat + 512 * (k % 2 ^ u.logn)) 512).getD (List.replicate 512 0)

/-- ENQUEUE_VERDICT (R59): the next record that a host queue's TAIL covers is tested. -/
def execEnqueueVerdict (q : Nat) (s : State) : Host.Outcome State Fault Refusal :=
  let u := s.queue q
  if Config.queues ≤ q || !placing s || u.ovf || u.devq || u.tail ≤ u.seen then .next s
  else
    let bs := slotRecord s u u.seen
    let la := newLaunch s q (some u.seen) u.asid bs (verdict s none q bs)
    .next (enqueue (s.setQueue q { u with seen := u.seen + 1 }) la)

/-! ## Eligibility (R56) -/

/-- The number of gangs of a launch. -/
def LRec.gangCount (r : LRec) : Nat := r.blocks / r.gangBlocks

/-- A launch has placed all its blocks. -/
def Launch.placedAll (la : Launch) : Bool := decide (la.record.gangCount ≤ la.placed)

/-- The launch at the head of a queue (R56): the first that has neither placed all its blocks nor completed. -/
def headOf (s : State) (q : Nat) : Option (Nat × Launch) :=
  s.launches.find? fun p => p.2.queue == q && p.2.completed.isNone && !p.2.placedAll

/-- A dependence entry (R56): unused or met, not met, or none when it cannot be tested. -/
def depMet (s : State) (asid : Nat) (d : Word × Word) : Option Bool :=
  if d.1 = 0 then some true
  else if bits d.1 0 3 ≠ 0 then none
  else (readVaNum s asid d.1.toNat 8).map fun v => decide (d.2.toNat ≤ v)

/-- LAUNCH_ELIGIBLE (R56): the dependence entries of a queue's head are tested. -/
def execLaunchEligible (q : Nat) (s : State) : Host.Outcome State Fault Refusal :=
  if !placing s || (s.queue q).ovf then .next s
  else match headOf s q with
    | none => .next s
    | some (l, la) =>
      if la.eligible || la.cancelled then .next s
      else
        let ds := la.record.deps.map (depMet s la.asid)
        if ds.any (·.isNone) then .next (finishLaunch s l (4, 0x88))
        else if ds.all (· == some true) then .next (s.modLaunch l fun x => { x with eligible := true })
        else .next s

/-! ## Placement (R57, R58, R332) -/

/-- A core that a resuming partition awaits (R382). -/
def awaited (s : State) (c : Nat) : Bool := s.hub.parts.any fun p => p.2.state == 4 && (kget p.2.saved c).isSome

/-- A core is free for a block: it holds none, its planes are not being moved, and no resume awaits it (R57, R382). -/
def coreFree (s : State) (c : Nat) : Bool :=
  (s.core c).block.isNone && (s.core c).shadow.isNone && !(s.core c).fenced && !(s.core c).frozen && !awaited s c

/-- A core and its mirrors can take a block of a launch (R57, R332). -/
def placeable (s : State) (u : Queue) (repl c : Nat) : Bool :=
  usableCore s u repl c && (List.range repl).all fun k => coreFree s (mirrorCore c k)

/-- The cores of one cluster (R9). -/
def clusterCores (k : Nat) : List Nat := (List.range 4).map (4 * k + ·)

/-- How many blocks the next placement of a launch takes: a gang, or everything with COSIDE (R57, R58). -/
def LRec.placeSize (r : LRec) : Nat := if r.coside then r.blocks else r.gangBlocks

/-- The launch could be placed now (R57): enough free cores, for a clustered gang in one cluster. -/
def canPlace (s : State) (la : Launch) : Bool :=
  let u := s.queue la.queue
  let ok := placeable s u la.record.repl
  if la.record.coside then decide (la.record.blocks / la.record.gangBlocks ≤ (gangsFit ok la.record).length)
  else if la.record.clustered then
    (List.range (Config.cores / 4)).any fun k => decide (la.record.gangBlocks ≤ ((clusterCores k).filter ok).length)
  else (List.range Config.cores).any ok

/-- A launch waits for cores: eligible, at its queue's head, and its partition runs. -/
def waitsCores (s : State) (la : Launch) : Bool :=
  la.eligible && la.completed.isNone && !la.cancelled && !la.stagingFault && !la.placedAll && !(s.queue la.queue).ovf &&
  decide ((s.partOf (s.asidOf la.asid).part).state ≤ 1)

/-- A queue's distance in the round of its priority, from the one after the queue served last (R57). -/
def turnOf (s : State) (q : Nat) : Nat :=
  let last := aget (Config.queues - 1) s.hub.lastQueue (s.queue q).prio
  (q + Config.queues - last - 1) % Config.queues

/-- A launch's queue comes before another's (R57). -/
def before (s : State) (a b : Nat) : Bool :=
  decide ((s.queue b).prio < (s.queue a).prio) || ((s.queue a).prio == (s.queue b).prio && decide (turnOf s a < turnOf s b))

/-- A list of numbers without repetitions. -/
def distinct : List Nat → Bool
  | [] => true
  | x :: t => !t.contains x && distinct t

/-- A list cut into parts of `n`. -/
def chunksOf (n : Nat) : Nat → List Nat → List (List Nat)
  | 0, _ => []
  | k + 1, l => l.take n :: chunksOf n k (l.drop n)

/-- The chosen cores suit a launch (R57, R58, R332): as many as it takes, usable and free with their mirrors, none twice,
and each clustered gang within one cluster. -/
def coresSuit (s : State) (la : Launch) (cores : List Nat) : Bool :=
  let r := la.record
  cores.length == r.placeSize && cores.all (placeable s (s.queue la.queue) r.repl) &&
  distinct (cores.flatMap fun c => (List.range r.repl).map (mirrorCore c)) &&
  (!r.clustered || (chunksOf r.gangBlocks (r.placeSize / r.gangBlocks) cores).all fun g => g.all fun c => c / 4 == g.headD 0 / 4)

/-- No launch that comes before could use one of the cores or of their mirrors (R57, R332).  One that cannot be placed yet keeps
no core from the others (log entry 25). -/
def nobodyBefore (s : State) (la : Launch) (cores : List Nat) : Bool :=
  let set := cores.flatMap fun c => (List.range la.record.repl).map (mirrorCore c)
  !s.launches.any fun p => p.2.queue != la.queue && waitsCores s p.2 && before s p.2.queue la.queue &&
    set.any (inMask s (s.queue p.2.queue)) && canPlace s p.2

/-- A gang as it is placed: the cores of its replicas, every replica live, replica 0 committing (R332, R333). -/
def newGang (repl gen : Nat) (cores : List Nat) : Gang :=
  ⟨(List.range repl).map fun k => cores.map (mirrorCore · k), false, false, false, [], none, none, false, false, [],
    List.range repl, 0, gen, false, [], false, none, (0, 0, 0), none, []⟩

/-- One gang placed: its cores hold its blocks (R57). -/
def placeGang (l gi : Nat) (s : State) (cores : List Nat) : State :=
  match s.launchOf l with
  | none => s
  | some la =>
    let part := (s.asidOf la.asid).part
    let g := newGang la.record.repl (s.partOf part).gen cores
    let s := s.modLaunch l fun x => { x with gangs := kset x.gangs gi g, placed := x.placed + 1 }
    g.cores.zipIdx.foldl (fun s rc => rc.1.zipIdx.foldl (fun s cb =>
      s.modCore cb.1 fun k => { k with block := some ⟨l, gi * la.record.gangBlocks + cb.2, rc.2, false⟩ }) s) s

/-- Gangs placed in increasing order (R57). -/
def placeGangs (l : Nat) : Nat → List (List Nat) → State → State
  | _, [], s => s
  | gi, cs :: t, s => placeGangs l (gi + 1) t (placeGang l gi s cs)

/-- A partition that was idle runs. -/
def startPart (s : State) (p : Nat) : State :=
  s.modPart p fun q => if q.state = 0 then { q with state := 1 } else q

/-- BLOCK_PLACE (R57, R58): the next gang or block of launch `l`, or all of them with COSIDE, on some cores. -/
def execBlockPlace (l : Nat) (cores : List Nat) (s : State) : Host.Outcome State Fault Refusal :=
  match s.launchOf l with
  | none => .next s
  | some la =>
    if !placing s || !waitsCores s la || (headOf s la.queue).map (·.1) != some l || !coresSuit s la cores ||
        !nobodyBefore s la cores then .next s
    else
      let r := la.record
      let s := if la.placed = 0 then s.modLaunch l fun x => { x with caps := capNow s } else s
      let s := placeGangs l la.placed (chunksOf r.gangBlocks (r.placeSize / r.gangBlocks) cores) s
      let s := startPart s (s.asidOf la.asid).part
      let s := s.modHub fun h => { h with lastQueue := aset (Config.queues - 1) h.lastQueue (s.queue la.queue).prio la.queue }
      match la.slot, (s.launchOf l).map (·.placedAll) with
      | some k, some true => .next (consumeSlot s la.queue k)
      | _, _ => .next s

/-! ## Staging (R61) -/

/-- A window cleared (R61): every byte zero, every granule public; what stood there before, damage, rings and chains, is
gone, and the core's snapshot is empty.  As any write there, it disarms, unbinds and wakes what another launch has there through a
grant (R153, R240, R309). -/
def clearWindow (win : Nat) (s : State) (c : Nat) : State :=
  let inW (k : Nat) : Bool := decide (c * 2 ^ 20 ≤ k) && decide (k < c * 2 ^ 20 + 4096 * win)
  let s := ((s.rings.filter fun p => inW p.1).map (·.1)).foldl disarmRing s
  let s := (s.chains.filter fun p => inW p.1).foldl (fun s p => unbindChain s p.1 p.2) s
  let s := { s with
    mem := { s.mem with
      gal := s.mem.gal.filter fun p => !inW p.1
      glab := s.mem.glab.filter fun p => !inW (p.1 * 64) }
    warps := s.warps.map fun (p : Nat × Warp) => (p.1, { p.2 with
      parked := p.2.parked.map fun (q : Parked) => if inW (q.gran * 64) then { q with woken := true } else q })
    rings := s.rings.filter fun p => !inW p.1
    chains := s.chains.filter fun p => !inW p.1
    haltAt := s.haltAt.filter fun p => !inW p.1 }
  s.modCore c fun k => { k with dmg := k.dmg.filter fun g => !inW (g * 64), snapshot := [] }

/-- One line staged into every replica's copy (R61, R336): an allowed line with its page's label, a damaged one as such; a
denied one leaves a sump record.  None when its address does not translate. -/
def stageLine (la : Launch) (cores : List Nat) (b : Nat) (s : State) (va off : Nat) : Option State :=
  (translate s la.asid va).map fun p =>
    let prin := nth 0 la.record.prins 0 % 2 ^ 24
    if aclAllows s la.asid prin p.2.tag then
      let bs := dramBytes s p.1 64
      let lab := tagLabel s la.asid p.2.tag
      let bad := contained s p.1
      cores.foldl (fun s c =>
        let s := wakeParked s ((c * 2 ^ 20 + off) / 64)
        let s := { s with mem := setGranLabel (s.mem.writeGal (c * 2 ^ 20 + off) bs) (c * 2 ^ 20 + off) lab }
        if bad then s.modCore c fun k => { k with dmg := insNat ((c * 2 ^ 20 + off) / 64) k.dmg } else s) s
    else sumpRecord s la.asid 2 va prin p.2.tag.toNat b 0

/-- The lines of a range staged in order; the truth value says that one did not translate. -/
def stageLines (la : Launch) (cores : List Nat) (b : Nat) : State → List (Nat × Nat) → State × Bool
  | s, [] => (s, false)
  | s, p :: t => match stageLine la cores b s p.1 p.2 with
    | some s => stageLines la cores b s t
    | none => (s, true)

/-- The lines of a region for block `b` (R54): the DRAM address and the window offset of each. -/
def regionLines (g : Word × Word) (b : Nat) : List (Nat × Nat) :=
  (List.range (regLen g)).map fun i => (regBase g + 64 * regStride g * b + 64 * i, regOff g + 64 * i)

/-- One block's windows cleared and staged, in every replica of a list (R61). -/
def stageBlock (la : Launch) (cores : List Nat) (b : Nat) (s : State) : State × Bool :=
  let s := cores.foldl (clearWindow la.record.win) s
  let ls := (la.record.used.filter fun g => regDir g % 2 == 1).flatMap fun g => regionLines g b
  stageLines la cores b s ls

/-- The blocks of a gang staged in order. -/
def stageBlocks (la : Launch) (g : Gang) : State → List (Nat × Nat) → State × Bool
  | s, [] => (s, false)
  | s, p :: t =>
    let r := stageBlock la (g.live.filterMap fun k => (g.coresOf k)[p.1]?) p.2 s
    if r.2 then r else stageBlocks la g r.1 t

/-! ## The state at the first instruction (R62) -/

/-- The registers at a warp's first instruction (R62), G62 and G63 too where an exit state reads otherwise (log entry 25). -/
def startRegs (la : Launch) (g0 : Nat) (w : Nat) : WRegs :=
  let top := wd (g0 + 4096 * la.record.win - 16 * la.record.stk * w)
  (((WRegs.zero.setG 0 (wd g0) []).setG 1 la.record.arg la.label).setG 62 top []).setG 63 top []

/-- A warp at its first instruction (R62). -/
def startWarp (la : Launch) (b rep w : Nat) : Warp :=
  let r := la.record
  let g0 := if r.clustered then r.lvl b 2 * 2 ^ 20 else 0
  { Warp.zero with
    index := w
    regs := startRegs la g0 w
    pc := setPcs [] 0xFFFFFFFF#32 r.entry
    exited := BitVec.ofNat 32 (2 ^ 32 - 2 ^ r.lanes)
    wcl := la.label
    slim := wd (g0 + 4096 * r.win - 16 * r.stk * w - 16 * r.stk)
    arrivals := ((List.range 6).map (· + 2)).foldl (fun t n => aset 0 t n (barPhase la (r.unitOf b n) n rep)) [] }

/-- The warps of block `b` started on a core (R57, R62). -/
def startBlock (la : Launch) (b : Nat) (s : State) (c : Nat) : State :=
  let n := lvlCount (la.record.level 2)
  let rep := ((s.core c).block.map (·.rep)).getD 0
  let s := (List.range n).foldl (fun s w => s.setWarp (c * 32 + slotOfWarp w) (startWarp la b rep w)) s
  s.modCore c fun k => { k with
    block := k.block.map fun q => { q with started := true }, tiles := [], engine := [], allocs := [] }

/-- A gang staged and started, in each live replica; a translation fault stops the launch's staging (R61). -/
def stageGang (s : State) (l gi : Nat) : State :=
  match s.gangAt l gi with
  | none => s
  | some (la, g) =>
    let bs := (List.range la.record.gangBlocks).map fun i => (i, gi * la.record.gangBlocks + i)
    let r := stageBlocks la g s bs
    if r.2 then
      (r.1.modLaunch l fun x => { x with stagingFault := true }).modGang l gi fun x => { x with failed := true }
    else
      let s := bs.foldl (fun s p =>
        (g.live.filterMap fun k => (g.coresOf k)[p.1]?).foldl (startBlock la p.2) s) r.1
      s.modGang l gi fun x => { x with staged := true }

/-- WINDOW_STAGING (R61): a gang starts once every block of it has been staged; it waits for its partition to run on the gang's
cores (R376, R382). -/
def execWindowStaging (l g : Nat) (s : State) : Host.Outcome State Fault Refusal :=
  match s.gangAt l g with
  | none => .next s
  | some (la, x) =>
    if x.staged || x.ended || x.failed || la.stagingFault || la.cancelled || x.kill.isSome || !gangHere s l la g x ||
        2 ≤ (s.partOf (s.asidOf la.asid).part).state then .next s
    else .next (stageGang s l g)

end Sys2Proof.Machine
end

