-- ==== Sys2Proof/Machine/Choose.lean ====
section
/-! DEFINITION. The agent that moves next (log entry 2): the agenda's head.  With an empty agenda the model's own order: the
steps that the devices may be due to take, and the turns of the warps, alternate. -/
namespace Sys2Proof.Machine

/-- The step that an operation in flight waits for. -/
def pendStep (k : Nat) (p : Pend) : Instr :=
  if p.stage ≠ 0 then .longLatencyComplete k p.id
  else match p.work with
    | .atomic _ _ _ _ => .atomicPerform k p.id
    | .push _ _ => .ringPushAdmit k p.id
    | .pop _ _ _ => .ringPopTake k p.id
    | .launch _ _ _ _ => .launchRecordCopy k p.id
    | _ => .longLatencyComplete k p.id

/-- The steps that a warp may wait for. -/
def warpSteps (s : State) (k : Nat) (w : Warp) : List Instr :=
  w.pend.map (pendStep k) ++
  (if w.parked.any (·.wakes) then [.parkWake k] else []) ++
  (match w.wait with
    | .bar _ _ => [.barrierWaitEnd k]
    | .seq _ _ _ _ => [.waitseqObserve k]
    | _ => []) ++
  (if w.held.isEmpty then [] else [.heldRequestAccept k]) ++
  (match w.echo, (s.core (k / 32)).block with
    | some e, some b =>
      if e.granted then []
      else if e.release then [.echoCompare b.launch b.b w.index] else [.onceOpRendezvous b.launch b.b w.index]
    | _, _ => [])

/-- The steps that a core may be due to take. -/
def coreSteps (c : Nat) (k : Core) : List Instr :=
  (if k.notices.isEmpty then [] else [.trapNotice c]) ++
  (if k.allocs.isEmpty then [] else [.tileAllocate c]) ++
  (if k.engine.isEmpty then [] else [.tileExecute c, .flowstoneGroupExecute c]) ++
  (if k.frozen then [.damageSnapshot (c / 4)] else []) ++
  (if k.moving then [.contextSaveMove c] else if k.block.isSome then [.coreSwap c] else [])

/-- Cores that suit a launch. -/
def firstCores (s : State) (la : Launch) : List Nat :=
  (gangsFit (placeable s (s.queue la.queue) la.record.repl) la.record).flatten.take la.record.placeSize

/-- The steps that a launch may be due to take. -/
def launchSteps (s : State) (l : Nat) (la : Launch) : List Instr :=
  if la.completed.isSome then []
  else
    (if waitsCores s la then [.blockPlace l (firstCores s la)] else []) ++
    (la.gangs.flatMap fun g =>
      if g.2.ended then []
      else
        (if g.2.staged then [] else [.windowStaging l g.1]) ++
        (List.range la.record.gangBlocks).map (fun i => .blockRetire l (g.1 * la.record.gangBlocks + i)) ++
        [.gangRelaunch l g.1] ++ ((List.range la.record.repl).filter fun r => !g.2.live.contains r).map fun r => .reclone l g.1 r) ++
    [.launchComplete l]

/-- The Lantern pair's step for a waiting request. -/
def mailboxStep (s : State) : List Instr :=
  if !s.hub.mailbox.go then []
  else match bits (aget 0 s.hub.mailbox.request 0) 0 8 with
    | 0x01 => [.asidCreate]
    | 0x02 => [.asidDestroy]
    | 0x03 => [.lhandle]
    | 0x04 => [.map]
    | 0x05 => [.unmap]
    | 0x06 => [.settag]
    | 0x07 => [.acl]
    | 0x08 => [.cred]
    | 0x09 => [.ctxkey]
    | 0x0A => [.pooladd]
    | 0x0B => [.pooldel]
    | _ => []

/-- The steps that the hub may be due to take. -/
def hubSteps (s : State) : List Instr :=
  mailboxStep s ++
  (s.hub.queues.flatMap fun q => [.enqueueVerdict q.1, .launchEligible q.1]) ++
  ((List.range s.hub.migrations.length).map .migr) ++
  ((List.range 64).filter fun n => s.hub.parcels.any (·.comm == n)).map .collectiveChunk ++
  (s.hub.parts.flatMap fun p =>
    if p.2.state = 4 then p.2.saved.map fun x => .contextResumeLoad p.1 x.1 true else []) ++
  ((s.hub.tests.flatMap (·.cores)).map fun c => .coreSelfTest c (Config.freeBool s.free)) ++
  ((s.hub.ports.filter (·.2.requested)).map fun p => .linkKeyInstall p.1)

/-- The steps that the siphon engines may be due to take: every started entry's, and the next one's. -/
def chainSteps (key : Nat) (c : Chain) : List Instr :=
  ((c.entries.filter (·.code == 0)).map fun e => .engineChunk key e.num 0) ++
  (if c.walk.isSome || !c.subs.isEmpty || c.detached then [.engineChunk key c.next 0] else [])

/-- Every step that some device may be due to take; one whose condition does not hold changes nothing. -/
def dueSteps (s : State) : List Instr :=
  (s.warps.flatMap fun p => warpSteps s p.1 p.2) ++ (s.cores.flatMap fun p => coreSteps p.1 p.2) ++
  (s.chains.flatMap fun p => chainSteps p.1 p.2) ++ (s.launches.flatMap fun p => launchSteps s p.1 p.2) ++ hubSteps s

/-- The model's own order when the agenda is empty. -/
def ownOrder (s : State) : State × Option Instr :=
  let es := dueSteps s
  let t := { s with round := s.round + 1 }
  let event := es[s.round / 2 % es.length]?
  match pickIssue s with
  | none => (t, event)
  | some (q, n) => if s.round % 2 = 1 && event.isSome then (t, event) else turn { t with rr := q } (q / 4) n

/-- A module reset. -/
def isReset : Instr → Bool
  | .moduleReset => true
  | _ => false

/-- The state in which the next agent moves, and its instruction; none when nothing can move.  A warp slot that the agenda names
moves when it is its turn in its quadrant (R46).  After the thermal stop only a
module reset moves the module (R411). -/
def choose (s : State) : State × Option Instr :=
  match s.agenda with
  | .device i :: t =>
    if s.hub.thermal && !isReset i then ({ s with agenda := t }, none) else ({ s with agenda := t }, some i)
  | .issue c n :: t =>
    if s.hub.thermal || quadPick s c (n / 8) != some n then ({ s with agenda := t }, none) else turn { s with agenda := t } c n
  | [] => if s.hub.thermal then (s, none) else ownOrder s

end Sys2Proof.Machine
end

