-- ==== Sys2Proof/Machine/Clause.lean ====
section
/-! DEFINITION. The start of a clause (R23 to R26, R30, R46, R143, R152, R155, R156, R277, R358). -/
namespace Sys2Proof.Machine

/-- The window flushes before a clause starts (R277): its wait mask names a flag that a windowed instruction holds, it
is a safe point, or it holds no tile instruction. -/
def flushesAt (w : Warp) (c : Clause) : Bool :=
  w.window.any (holdsFlag c.wait) || c.safe ||
  !c.instrs.any fun p => entersWindow p.2 || (match p.2 with
    | .tstat _ _ _ => true
    | _ => false)

/-- The live descriptor's check (R156): every armed Jn is in Jmask, every active LCk is below nLC. -/
def descCovers (w : Warp) (d : BitVec 32) : Bool :=
  ((List.range 8).all fun n => !(w.rejoin n).armed || d.getLsbD (2 + n)) &&
  (List.range 3).all fun k => !(w.loop k).active || decide (k < (field d 0 2).toNat)

/-- A clause contains the END word of an active loop (R152). -/
def endsLoop (w : Warp) (c : Clause) : Bool :=
  (List.range 3).any fun k => (w.loop k).active && c.instrs.any fun p => p.1 == (w.loop k).last

/-- The mark that a clause takes at its start (R30, R358): one on a flag of its wait mask, or of an instruction that
sets no flag. -/
def markAtStart (w : Warp) (m : BitVec 12) : Option FlagMark :=
  w.marks.find? fun q => match q.flag with
    | some f => m.getLsbD f
    | none => true

/-- The group of a clause: a clause with a warp-wide instruction also takes in the marked lanes at its PC (R45), which then
run it from its start (log entry 10). -/
def clauseGroup (w : Warp) (c : Clause) (p : Word) (grp : Mask) : Mask :=
  if c.instrs.any fun q => warpWide q.2 then grp ||| lanesAt w (w.eligible &&& w.yielded) p else grp

/-- The warp takes the slot and the clause runs (R46, R155). -/
def beginClause (s : State) (k : Nat) (c : Clause) (p : Word) (grp : Mask) : State :=
  let s := s.modWarp k fun w =>
    { w with
      run := some ⟨p, c.first p, grp, c.setA, c.setB, c.words⟩
      overdue := if c.safe then 0 else w.overdue + 1 }
  s.modCore (k / 32) fun q => { q with last := aset 7 q.last (k % 32 / 8) (k % 8) }

/-- The checks of a clause that decodes, once no flag of its wait mask is pending (R30, R73, R152, R155, R156, R376). -/
def startChecked (s : State) (x : Ctx) (c : Clause) (p : Word) (grp : Mask) : State :=
  let w := x.w
  match markAtStart w c.wait with
  | some m =>
    takeTrap (consumeMark s x.wk m) x.wk { markTrap x m 0 with run := none }
  | none =>
    if !c.safe && decide (4096 ≤ w.overdue) then takeTrap s x.wk (startTrap w p grp 0x11 0)
    else if c.safe && !descCovers w c.desc then takeTrap s x.wk (startTrap w p grp 0x02 0)
    else if endsLoop w c && (w.live &&& ~~~grp) != 0 then takeTrap s x.wk (startTrap w p grp 0x02 0)
    else if c.safe && x.la.cancelled then s.setWarp x.wk { w with status := .stopped }
    else if c.safe && w.request == .preempted then s.setWarp x.wk { w with status := .preempted, atSafe := w.live &&& ~~~grp == 0 }
    else beginClause s x.wk c p grp

/-- CLAUSE_HEADER (R23, R26): the start of the current warp's next clause.  A warp that cannot issue, or a flag of the
wait mask or a held request that is pending, leaves it waiting. -/
def execClauseHeader (w : BitVec 12) (a b : BitVec 4) (s0 : BitVec 1) (s : State) : Host.Outcome State Fault Refusal :=
  match s.warp s.cur with
  | none => .fault .noIssuer
  | some wp =>
    match wp.group with
    | none => .next s
    | some (p, grp) =>
      match ctxOf s s.cur ⟨p, p, grp, 15, 15, []⟩ 0 with
      | none => .fault .noIssuer
      | some x =>
        if !wp.canIssue || wp.run.isSome then .next s
        else if wp.request == .stopped || wp.request == .frozen then
          .next (s.setWarp s.cur { wp with status := wp.request })
        else if wp.request == .trapped then .next (takeLate s s.cur wp p grp)
        else match decodeFrom s x.asid p w a b s0 with
          | .error e => .next (takeTrap s s.cur (startTrap wp p grp e.1 e.2))
          | .ok c =>
            let s := if flushesAt wp c then flushWindow s s.cur else s
            match s.warp s.cur with
            | none => .fault .noIssuer
            | some wp =>
              if flagsPending wp c.wait || !wp.held.isEmpty then .next s
              else .next (startChecked s { x with w := wp } c p (clauseGroup wp c p grp))

end Sys2Proof.Machine
end

