-- ==== Sys2Proof/Machine/Complete.lean ====
section
/-! DEFINITION. The steps that end what a warp waits for: LONG_LATENCY_COMPLETE (R27, R30), PARK_WAKE (R153),
ATOMIC_PERFORM (R231), BARRIER_WAIT_END (R243), RING_PUSH_ADMIT and RING_POP_TAKE (R237 to R239, R344). -/
namespace Sys2Proof.Machine

/-! ## Completion (R27, R197, R358) -/

/-- The destination of a completed operation: V or G register, if it writes one. -/
def destOf : Work → Option (Bool × Nat)
  | .load r _ _ _ => some (true, r)
  | .gload r _ => some (false, r)
  | .special r => some (true, r)
  | .atomic (some r) _ _ _ => some (true, r)
  | .xrnd r _ => some (true, r)
  | .push (some r) _ => some (false, r)
  | .pop r _ _ => some (false, r)
  | .launch r _ _ _ => some (false, r)
  | .rand r => some (false, r)
  | _ => none

/-- The results that an operation writes when its flag clears: WCL as it stands joins each label (R212), and the registers of a
lane that has exited do not change any more (R166). -/
def finalRes (w : Warp) (p : Pend) : List LaneRes :=
  let here (r : LaneRes) : Bool := match destOf p.work with
    | some (true, _) => !w.exited.getLsbD r.lane
    | _ => true
  (p.res.filter here).map fun r => { r with lab := joinL r.lab w.wcl }

/-- Results written to their register; a G destination takes its results in an ascending row of registers. -/
def writeResults (q : WRegs) (work : Work) (res : List LaneRes) : WRegs :=
  match destOf work with
  | some (true, r) => res.foldl (fun q x => q.setV r x.lane x.val x.lab) q
  | some (false, r) => res.foldl (fun q x => q.setG (r + x.lane) x.val x.lab) q
  | none => q

/-- The lanes of an operation's access. -/
def workLanes : Work → List LaneOp
  | .load _ _ _ ls => ls
  | .gload _ l => [l]
  | .atomic _ _ _ ls => ls
  | .xrnd _ ls => ls
  | .push _ l => [l]
  | .pop _ _ l => [l]
  | _ => []

/-- The Gallery address of a lane of an operation. -/
def laneGa (p : Pend) (lane : Nat) : Nat := (((workLanes p.work).find? (·.lane == lane)).map (·.ga)).getD 0

/-- The mark that a completed operation leaves, if any: the source of RAND disabled (R388), damage (R369), or lanes that
were discarded (R213). -/
def completionMark (s : State) (p : Pend) : Option FlagMark :=
  match p.work with
  | .rand _ => if p.res.isEmpty then some (markFor p 0x02 0 0 0) else none
  | .atomic _ _ _ ls =>
    (match p.res.find? (·.dmg) with
      | some r => some (markFor p 0x0D (wd (laneGa p r.lane)) 1 0)
      | none => discardMark s p ls)
  | _ => (p.res.find? (·.dmg)).map fun r => markFor p 0x0D (wd (laneGa p r.lane)) 1 0

/-- An operation completed: its registers are written, its flag clears, and a mark stands on it if it failed (R30, R197), with
LABEL-EXHAUSTED where WCL has risen since issue and a label is too large now (log entry 11). -/
def completeOp (s : State) (k asid : Nat) (q : Warp) (p : Pend) : State :=
  let res := finalRes q p
  match bindLabels s asid (res.map (·.lab)) with
  | none =>
    let bad := (res.find? fun r => decide (Config.maxOwners < r.lab.length)).getD ⟨0, 0, [], false⟩
    s.modWarp k fun w => w.markPend p (markFor p 0x07 (wd (laneGa p bad.lane)) 0 0)
  | some s =>
    let m := completionMark s p
    s.modWarp k fun w =>
      let w := { w with regs := writeResults w.regs p.work res }
      match m with
      | some m => w.markPend p m
      | none => w.dropPend p.id

/-- A mark that arrived after the warp's last EXIT (R358): it is taken at POINT 3, at that EXIT. -/
def lateMark (s : State) (k : Nat) : State :=
  match s.warp k with
  | none => s
  | some w =>
    match w.marks, w.exitAt with
    | m :: _, some (r, word) =>
      if w.exited = 0xFFFFFFFF#32 && w.status == .running && w.trap.isNone then
        match ctxOf s k r word with
        | some x => takeTrap (consumeMark s k m) k { exitTrap x m with run := none }
        | none => s
      else s
    | _, _ => s

/-- LONG_LATENCY_COMPLETE (R27): operation `n` of warp `w`, once its results stand; a tile instruction's completion is
the matrix engine's. -/
def execLongLatencyComplete (w n : Nat) (s : State) : Host.Outcome State Fault Refusal :=
  match ctxOf s w ⟨0, 0, 0, 15, 15, []⟩ 0 with
  | none => .next s
  | some x =>
    match findPend x.w n with
    | none => .next s
    | some p =>
      if p.stage = 0 || (tileOf p).isSome then .next s
      else .next (lateMark (completeOp s w x.asid x.w p) w)

/-! ## PARK_WAKE (R153, R147) -/

/-- PARK_WAKE (R153): the woken groups of a warp are eligible again, and its rejoin registers are evaluated. -/
def execParkWake (w : Nat) (s : State) : Host.Outcome State Fault Refusal :=
  match s.warp w with
  | none => .next s
  | some q =>
    if !q.parked.any (·.wakes) then .next s
    else if cancelledWarp s w && quiescent s w q then .next (s.setWarp w { q with status := .stopped })
    else .next (s.setWarp w (evalRejoins { q with parked := q.parked.filter fun p => !p.wakes }))

/-! ## ATOMIC_PERFORM (R231, R232) -/

/-- An earlier atomic of the warp, with which this one is in program order (R179, R232), waits. -/
def earlierAtomic (w : Warp) (core n : Nat) (ls : List LaneOp) : Bool :=
  w.pend.any fun p => decide (p.id < n) && p.stage == 0 && match p.work with
    | .atomic _ _ _ ms => ms.any fun m => ls.any fun l => inOrder core l.pa m.pa
    | _ => false

/-- ATOMIC_PERFORM (R231): the lanes of an issued atomic at their home banks, the warp's atomics on one granule, and those of
its core's slice, in order (R179, R232).  Without a result it is then complete. -/
def execAtomicPerform (w n : Nat) (s : State) : Host.Outcome State Fault Refusal :=
  match ctxOf s w ⟨0, 0, 0, 15, 15, []⟩ 0 with
  | none => .next s
  | some x =>
    match findPend x.w n with
    | none => .next s
    | some p =>
      match p.work with
      | .atomic ret op size ls =>
        if p.stage ≠ 0 || earlierAtomic x.w x.core n ls then .next s
        else
          let r := atomicLanes x op size s ls
          match ret with
          | some reg => .next (r.1.modWarp w fun q =>
              q.setPend { p with work := .atomic (some reg) op size r.2.discarded, res := r.2.res, stage := 1 })
          | none =>
            let m := atomicMark r.1 p r.2
            .next (lateMark (r.1.modWarp w fun q => match m with
              | some m => q.markPend p m
              | none => q.dropPend n) w)
      | _ => .next s

/-! ## BARRIER_WAIT_END (R243, R247) -/

/-- BARRIER_WAIT_END (R247): the phase that a warp arrived in has completed; its arrived bit clears, and it acquires. -/
def execBarrierWaitEnd (w : Nat) (s : State) : Host.Outcome State Fault Refusal :=
  match ctxOf s w ⟨0, 0, 0, 15, 15, []⟩ 0 with
  | none => .next s
  | some x =>
    match x.w.wait with
    | .bar n p =>
      if barPhase x.la (x.lr.unitOf x.blk.b n) n x.blk.rep ≤ p then .next s
      else if x.la.cancelled then .next (s.setWarp w { x.w with status := .stopped })
      else
        let s := s.setWarp w { x.w with wait := .none, arrived := aset 0 x.w.arrived n 0 }
        .next (acquireAt x s n)
    | _ => .next s

/-! ## Rings (R237 to R239, R344) -/

/-- A warp's waiting push: the context, the operation, its result register and operands.  That of a warp stopped for a
pre-emption is withdrawn (R241). -/
def pushOf (s : State) (k n : Nat) : Option (Ctx × Pend × Option Nat × LaneOp) :=
  match ctxOf s k ⟨0, 0, 0, 15, 15, []⟩ 0 with
  | none => none
  | some x => match findPend x.w n with
    | some p => (match p.work with
      | .push ret l => if p.stage = 0 && x.w.status != .preempted then some (x, p, ret, l) else none
      | _ => none)
    | none => none

/-- A warp's waiting pop: the context, the operation, its result register, its form and operands; that of a warp stopped for a
pre-emption is withdrawn (R241). -/
def popOf (s : State) (k n : Nat) : Option (Ctx × Pend × Nat × Bool × LaneOp) :=
  match ctxOf s k ⟨0, 0, 0, 15, 15, []⟩ 0 with
  | none => none
  | some x => match findPend x.w n with
    | some p => (match p.work with
      | .pop d t l => if p.stage = 0 && x.w.status != .preempted then some (x, p, d, t, l) else none
      | _ => none)
    | none => none

/-- The warps whose rings a ring step changes: every live replica's copy of a private ring (R344), or the committing
replica's warp for a ring outside it; and the warp that decides. -/
def ringWarps (x : Ctx) (pa : Nat) : Nat × List Nat :=
  let lead := (replicaWarp x x.gang.commit).getD x.wk
  if x.replicated then (lead, if externalEntry x (pa / 64) then [lead] else sharers x) else (x.wk, [x.wk])

/-- The ring that a warp's waiting operation names. -/
def ringAt (s : State) (l : LaneOp) : Option Ring := kget s.rings l.pa

/-- The rings of some warps' waiting operations stand alike: the same slots in the same states. -/
def ringsAlike (s : State) (ls : List LaneOp) : Bool :=
  match ls.map fun l => (ringAt s l).map (·.slots) with
  | [] => true
  | a :: t => a.isSome && t.all (· == a)

/-- The producer of the push that holds up a waiting one (R238): of those before it, the first that does not wait on its own
allowance alone. -/
def holder (s : State) (r : Ring) (k n : Nat) : Option Producer :=
  (r.waiting.takeWhile (· != (k, n))).findSome? fun e => (pushOf s e.1 e.2).bind fun q =>
    if r.allows q.1.producer then some q.1.producer else none

/-- A push performed on one ring (R237): the word in slot PUT, which becomes full. -/
def pushWord (x : Ctx) (s : State) (k n : Nat) (l : LaneOp) : State :=
  match ringAt s l with
  | none => s
  | some r =>
    let s := homeWrite s (r.slotPa r.put) (toBytes 8 l.v.toNat)
    s.setRing l.pa { r.reserve x.producer 2 with waiting := r.waiting.filter (· != (k, n)) }

/-- A push that leaves those that wait. -/
def unwait (s : State) (pa k n : Nat) : State :=
  match kget s.rings pa with
  | some r => s.setRing pa { r with waiting := r.waiting.filter (· != (k, n)) }
  | none => s

/-- The end of a push in one warp: RPUSH's flag clears; RPUSH.T's result stands (R249). -/
def endPush (s : State) (k : Nat) (p : Pend) (ret : Option Nat) (v : Word) (lab : Label) : State :=
  s.modWarp k fun w => match ret with
    | some _ => w.setPend { p with res := [⟨0, v, lab, false⟩], stage := 1 }
    | none => w.dropPend p.id

/-- RING_PUSH_ADMIT (R238, R249): a waiting push is admitted and performed; RPUSH.T is answered, once the pushes before it that
are admitted have been performed.  In a replicated launch
every live replica's push is there, and the copies of a private ring take it together (R344). -/
def execRingPushAdmit (w n : Nat) (s : State) : Host.Outcome State Fault Refusal :=
  match pushOf s w n with
  | none => .next s
  | some (x, _, ret, l) =>
    let g := ringWarps x l.pa
    let all := (sharers x).filterMap fun k => (pushOf s k n).map fun q => (k, q)
    match pushOf s g.1 n with
    | none => .next s
    | some (y, _, _, m) =>
      let mine := all.filter fun q => g.2.contains q.1
      if all.length ≠ (sharers x).length || !ringsAlike s (mine.map (·.2.2.2.2)) then .next s
      else match ringAt s m with
        | none => .next s
        | some r =>
          let first := holder s r g.1 n
          if first.isNone && r.admits y.producer then
            let s := if beyondGang y m.pa then markPublished y s else s
            let s := mine.foldl (fun s q => pushWord q.2.1 s q.1 n q.2.2.2.2) s
            .next (all.foldl (fun s q => endPush s q.1 q.2.2.1 ret 1 (joinL r.lab q.2.2.2.2.lab)) s)
          else if ret.isSome && !first.any r.admits then
            .next (all.foldl (fun s q => endPush (unwait s q.2.2.2.2.pa q.1 n) q.1 q.2.2.1 ret 0 (joinL r.lab q.2.2.2.2.lab)) s)
          else .next s

/-- An earlier pop of the warp on the same ring waits: pops of one warp take slots in order. -/
def earlierPop (w : Warp) (n pa : Nat) : Bool :=
  w.pend.any fun p => decide (p.id < n) && p.stage == 0 && match p.work with
    | .pop _ _ l => l.pa == pa
    | _ => false

/-- An earlier atomic of the warp on the word that its pop would return has not been performed (R232). -/
def slotAtomic (s : State) (x : Ctx) (n : Nat) (l : LaneOp) : Bool :=
  (ringAt s l).any fun r => r.kind == 0 && earlierAtomic x.w x.core n [{ l with pa := r.slotPa r.take }]

/-- Slot TAKE taken from a ring (R237): a word ring's slot becomes free, a buffer ring's held, after any slot held before; for a
consumer that has exited it becomes free at once. -/
def Ring.pop (r : Ring) (exited : Bool) : Ring :=
  let k := r.take
  let r := freeHeld r
  let r := if r.kind = 0 || exited then r.freeSlot k else { r with slots := kset r.slots k 3 }
  { r with take := (k + 1) % r.count, taken := r.taken + 1 }

/-- The value that a pop returns, and whether its slot's granule is damaged (R249, R369). -/
def popValue (s : State) (r : Ring) : Word × Bool :=
  let pa := r.slotPa r.take
  if r.kind = 0 then (if granDamaged s pa then (0, true) else (wd (readNum s.mem.gal pa 8), false))
  else (wd (r.slotGa r.take), false)

/-- The end of a pop in one warp, of a ring with label `ring`: the results stand and the warp acquires (R193); a damaged word is zero, with its mark at
once (R369). -/
def endPop (s : State) (k n ga : Nat) (ring : Label) (v : Word × Bool) (taken : Bool) : State :=
  match popOf s k n with
  | none => s
  | some (x, p, _, t, l) =>
    let lab := joinL ring l.lab
    let res : List LaneRes := ⟨0, v.1, lab, v.2⟩ :: (if t then [⟨1, wd (b2n taken), lab, false⟩] else [])
    let q := { p with res := res, stage := 1 }
    let s := if taken then acquireWidest x s else s
    if v.2 then
      ((bindLabels s x.asid ((finalRes x.w q).map (·.lab))).getD s).modWarp k fun w => { w with regs := writeResults w.regs q.work (finalRes w q) }.markPend q (markFor q 0x0D (wd ga) 1 0)
    else s.modWarp k fun w => w.setPend q

/-- RING_POP_TAKE (R237, R249): a waiting pop takes slot TAKE when it is full; RPOP.T is answered.  In a replicated launch
every live replica's pop is there, and they take the same slot (R344). -/
def execRingPopTake (w n : Nat) (s : State) : Host.Outcome State Fault Refusal :=
  match popOf s w n with
  | none => .next s
  | some (x, _, _, tform, l) =>
    let g := ringWarps x l.pa
    let all := (sharers x).filterMap fun k => (popOf s k n).map fun q => (k, q)
    match popOf s g.1 n with
    | none => .next s
    | some (y, _, _, _, m) =>
      let mine := all.filter fun q => g.2.contains q.1
      if all.length ≠ (sharers x).length || !ringsAlike s (mine.map (·.2.2.2.2.2)) || earlierPop y.w n m.pa ||
          mine.any (fun q => slotAtomic s q.2.1 n q.2.2.2.2.2) then .next s
      else match ringAt s m with
        | none => .next s
        | some r =>
          if aget 0 r.slots r.take = 2 then
            let v := popValue s r
            let ga := r.slotGa r.take
            let s := mine.foldl (fun s q => match ringAt s q.2.2.2.2.2 with
              | some r => s.setRing q.2.2.2.2.2.pa (r.pop (y.w.exited == 0xFFFFFFFF#32))
              | none => s) s
            .next (all.foldl (fun s q => lateMark (endPop s q.1 n ga r.lab v true) q.1) s)
          else if tform then .next (all.foldl (fun s q => endPop s q.1 n 0 r.lab (0, false) false) s)
          else .next s

end Sys2Proof.Machine
end

