-- ==== Sys2Proof/Machine/Echo.lean ====
section
/-! DEFINITION. Echo: the comparison and commit of events (R341, R343, R345, R349), stragglers (R350) and the re-clone of a
replica that lost a vote (R351). -/
namespace Sys2Proof.Machine

/-! ## The replicas at an event -/

/-- A replica at an event: its number, its warp's key, and what it sent, if it has. -/
structure Party where
  rep : Nat
  key : Nat
  sent : Option EchoWait
  deriving DecidableEq, Repr

/-- What a warp has sent Echo and waits for. -/
def sentBy (s : State) (k : Nat) : Option EchoWait :=
  match s.warp k with
  | none => none
  | some w => if w.trap.isSome then none else w.echo.filter fun e => !e.granted

/-- Replica `r`'s warp `w` of block `b`. -/
def partyOf (s : State) (la : Launch) (g : Gang) (b w r : Nat) : Option Party :=
  (warpKey la g b w r).map fun k => ⟨r, k, sentBy s k⟩

/-- The live replicas of warp `w` of block `b` that Echo hears at its next event: not one that has yet to pass an earlier one
(R351). -/
def parties (s : State) (la : Launch) (g : Gang) (b w : Nat) : List Party :=
  (g.live.filter fun r => !g.lags r b w).filterMap (partyOf s la g b w)

/-- The number of the event that the replicas wait at. -/
def eventOf (ps : List Party) : Nat := ((ps.filterMap (·.sent)).map (·.event)).headD 0

/-- The core that a party's warp runs on. -/
def Party.core (p : Party) : Nat := p.key / 32

/-! ## Commit (R341) -/

/-- The clause and word that a waiting warp is at. -/
def waitingCtx (s : State) (k : Nat) : Option Ctx :=
  match s.warp k with
  | none => none
  | some w => match w.run with
    | none => none
    | some r => (ctxOf s k r 0).map fun x => { x with word := (r.wordAt r.pos).getD 0 }

/-- The signature of what a party has sent, with the records of the sublists that it names, as Echo takes them (R337, R340). -/
def partySig (s : State) (p : Party) (e : EchoWait) : Sig :=
  match waitingCtx s p.key with
  | some x =>
    let rs := sublistRecords x s e.ops
    extendSig (bindRecords s x.asid rs) x.asid e.sig rs
  | none => e.sig

/-- The label sets of the sublist entries that some parties' records name, bound before they are compared (R209, R337). -/
def bindSublists (s : State) (ps : List Party) : State :=
  ps.foldl (fun s p => match waitingCtx s p.key, p.sent with
    | some x, some e => bindRecords s x.asid (sublistRecords x s e.ops)
    | _, _ => s) s

/-- The signatures that have been sent. -/
def sentSigs (s : State) (ps : List Party) : List (Nat × Sig) :=
  ps.filterMap fun p => p.sent.map fun e => (p.rep, partySig s p e)

/-- The publication of an event's release in one replica: its failures, those of external entries marked. -/
def publishParty (s : State) (p : Party) : State × List (Bool × Nat × Label × Label) :=
  match waitingCtx s p.key, p.sent with
  | some x, some e =>
    if e.release then
      let ext := (published x x.w e.level).filter fun q => externalEntry x q.gran
      let r := publishLevel x s e.level
      (r.1, r.2.map fun f => (ext.any (·.ga == f.1), f.1, f.2.1, f.2.2))
    else (s, [])
  | _, _ => (s, [])

/-- The publications of every party, in order (R341, R342). -/
def publishParties : List Party → State → State × List (Nat × List (Bool × Nat × Label × Label))
  | [], s => (s, [])
  | p :: t, s =>
    let r := publishParty s p
    let q := publishParties t r.1
    (q.1, (p.rep, r.2) :: q.2)

/-- A mark in the warps of an event's parties, each on its own copy of held item `i` (R341, R358). -/
def markItem (s : State) (ps : List Party) (i : Nat) (m : FlagMark) : State :=
  ps.foldl (fun s p => s.modWarp p.key fun w => match w.items[i]? with
    | some h => { w with marks := w.marks ++ [{ m with op := h.by_ }] }
    | none => w) s

/-- The acquire that an ORD.ACQ before a held atomic has due when it is performed, in each replica (R189, R335). -/
def itemAcquires (x : Ctx) (ps : List Party) (h : HeldItem) (s : State) : State :=
  match h.by_.ord with
  | some (1, n) => ps.foldl (fun s p => acquireScope s p.core (acqCode x n)) s
  | _ => s

/-- Held atomics performed once, at the committing replica's locations, and their values mirrored (R341). -/
def performItems (x : Ctx) (ps : List Party) : Nat → List HeldItem → State → State
  | _, [], s => s
  | i, h :: t, s =>
    let r := atomicLanes x h.op h.size s [h.l]
    let s := mirror x r.1 h.l.pa (atomicSize h.op h.size)
    let s := match atomicMark s h.by_ r.2 with
      | some m => keep x (markItem s ps i m) fun e => { e with marks := e.marks ++ [(i, m)] }
      | none => s
    performItems x ps (i + 1) t (itemAcquires x ps h s)

/-- Echo's answer to one party: the event has committed, with the party's own failures and those of the external entries
(R196). -/
def answer (s : State) (commit : Nat) (fs : List (Nat × List (Bool × Nat × Label × Label))) (p : Party) : State :=
  let ext := (aget [] fs commit).filter (·.1)
  let own := (aget [] fs p.rep).filter fun f => !f.1
  let bad := lowestFailed ((ext ++ own).map (·.2))
  s.modWarp p.key fun w => { w with
    items := []
    echo := w.echo.map fun e => { e with granted := true, failed := bad } }

/-- The event of some parties as the gang's last one (R347): block, warp and number. -/
def markLast (s : State) (l g : Nat) (ps : List Party) : State :=
  match ps.find? (·.sent.isSome) with
  | none => s
  | some p => match waitingCtx s p.key with
    | some x => s.modGang l g fun y => { y with lastEv := (x.blk.b, x.w.index, eventOf ps) }
    | none => s

/-- A copy that has fallen too far behind (R351): the replica's warps stop, and it is to be copied again at the committing
replica's next safe point. -/
def abandonClone (s : State) (l g : Nat) : State :=
  match s.gangAt l g with
  | none => s
  | some (_, y) => match y.clone with
    | none => s
    | some c =>
      let s := s.modGang l g fun y => { y with live := y.live.filter (· != c.1), clone := none, kept := [] }
      askSafe (stopWarps s l g [c.1]) (y.coresOf y.commit)

/-- The largest number of events that a copy may be behind (R351). -/
def maxBehind : Nat := 1024

/-- An event that commits, of the committing replica's warp `x`, kept for a copy that has yet to pass it (R351): with the
external entries that could not be published; one of which an entry failed performs nothing more. -/
def keepEvent (s : State) (l g : Nat) (x : Ctx) (e : EchoWait) (sig : Sig) (fs : List (Bool × Nat × Label × Label)) : State :=
  match s.gangAt l g with
  | none => s
  | some (_, y) =>
    if !(y.clone.any fun c => y.lags c.1 x.blk.b x.w.index) then s
    else if maxBehind ≤ (y.kept.filter fun k => k.b == x.blk.b && k.w == x.w.index).length then abandonClone s l g
    else s.modGang l g fun y => { y with kept := y.kept ++ [⟨x.blk.b, x.w.index, e.event, sig, e.once && fs.isEmpty,
      (fs.filter (·.1)).map (·.2), [], [], [], []⟩] }

/-- An event committed (R341, R343): every party publishes, the committing replica's held items are performed once, and
the parties are answered.  The hub event arbiter orders the commits of operations (R222, R374). -/
def commitEvent (s : State) (l g : Nat) (ps : List Party) : State :=
  match s.gangAt l g with
  | none => s
  | some (_, y) =>
    let r := publishParties ps (markLast s l g ps)
    let lead := ps.find? fun p => p.rep == y.commit
    let rel := ps.any fun p => match p.sent with
      | some e => e.release
      | none => false
    let s := match lead.bind fun p => (waitingCtx r.1 p.key).bind fun x => x.w.echo.map fun e => (x, e, partySig s p e) with
      | some (x, e, sig) =>
        let s := keepEvent r.1 l g x e sig (aget [] r.2 y.commit)
        let s := if x.w.items.isEmpty && !e.once && e.ops.isEmpty then s else (nextSeq s).1
        if rel then performItems x ps 0 x.w.items s else s
      | none => r.1
    ps.foldl (fun s p => if rel then answer s y.commit r.2 p
      else s.modWarp p.key fun w => { w with echo := w.echo.map fun e => { e with granted := true } }) s

/-- An event on which Echo has every answer it needs: commit, vote, or mismatch (R341, R348, R349). -/
def settleEvent (s : State) (l g : Nat) (ps : List Party) : State :=
  let ev := eventOf ps
  let s := bindSublists s ps
  match judge (sentSigs s ps) with
  | .agree => commitEvent s l g ps
  | .dissent r =>
    match ps.find? (·.rep == r) with
    | none => s
    | some p =>
      let s := loseReplica (echoTrap s p.key 0x0F ev) l g r p.core
      commitEvent s l g (ps.filter (·.rep != r))
  | .differ =>
    failEcho (ps.foldl (fun s p => echoTrap s p.key 0x0E ev) s) l g 0x0E (ps.map (·.core))

/-- The gang and the parties of an event, where its gang still runs. -/
def eventAt (s : State) (l b w : Nat) : Option (Nat × Gang × List Party) :=
  match s.launchOf l with
  | none => none
  | some la =>
    let gi := la.record.gangOf b
    match kget la.gangs gi with
    | none => none
    | some g =>
      if g.ended || g.kill.isSome || g.echoFail.isSome || la.record.repl < 2 then none
      else some (gi, g, parties s la g b w)

/-- Every party has sent. -/
def allSent (ps : List Party) : Bool := !ps.isEmpty && ps.all fun p => p.sent.isSome

/-- Echo has a vote on an event: of two replicas, or of all where none has yet to catch up (R349, R351). -/
def canVote (g : Gang) (b w : Nat) (ps : List Party) : Bool :=
  allSent ps && (decide (2 ≤ ps.length) || g.clone.all fun c => !g.lags c.1 b w)

/-! ## Catching up (R351) -/

/-- What a re-cloned replica's warp does at an event that it finds kept: its own entries are published, what the event's
operations left in private granules stands in its copy too, and it receives the kept results. -/
def passKept (s : State) (l gi : Nat) (g : Gang) (p : Party) (e : EchoWait) (k : KeptEvent) : State :=
  let r := publishParty s p
  let s := match waitingCtx r.1 p.key with
    | some x => if e.release then x.w.items.foldl (fun s h => itemAcquires x [p] h s) r.1 else r.1
    | none => r.1
  let s := k.writes.foldl (fun s q => homeWrite s (nth 0 (g.coresOf p.rep) q.1 * 2 ^ 20 + q.2.1) q.2.2) s
  let s := k.marks.foldl (fun s m => markItem s [p] m.1 m.2) s
  let s := s.modWarp p.key fun w => { w with
    items := if e.release then [] else w.items
    echo := w.echo.map fun e => { e with
      granted := true, once := false, vals := k.vals, labs := k.labs
      failed := if e.release then lowestFailed (k.failed ++ r.2.map (·.2)) else none } }
  s.modGang l gi fun g =>
    let kept := g.kept.erase k
    { g with kept := kept, clone := if kept.isEmpty then none else g.clone }

/-- The event that a re-cloned replica's warp has reached, compared with the one that was kept (R351): none when there is none
to compare.  One whose signature differs has lost a vote again. -/
def catchUp (s : State) (l b w : Nat) (release : Bool) : Option State :=
  match s.launchOf l with
  | none => none
  | some la =>
    let gi := la.record.gangOf b
    match kget la.gangs gi with
    | none => none
    | some g =>
      match g.clone.bind fun c => if c.2 then partyOf s la g b w c.1 else none, g.kept.find? fun k => k.b == b && k.w == w with
      | some p, some k => match p.sent with
        | none => none
        | some e =>
          if g.ended || g.kill.isSome || g.echoFail.isSome || e.release != release then none
          else if k.event ≠ e.event ∨ partySig s p e ≠ k.sig then some (loseReplica (echoTrap s p.key 0x0F e.event) l gi p.rep p.core)
          else if k.once then none
          else some (passKept s l gi g p e k)
      | _, _ => none

/-- Some party's event is a release. -/
def anyRelease (ps : List Party) : Bool := ps.any fun p => match p.sent with
  | some e => e.release
  | none => false

/-- ECHO_COMPARE (R341, R351): the signatures of a release, once every live replica has sent one; a replica that catches up is
compared with what was kept. -/
def execEchoCompare (l b w : Nat) (s : State) : Host.Outcome State Fault Refusal :=
  match catchUp s l b w true with
  | some t => .next t
  | none => match eventAt s l b w with
    | none => .next s
    | some (gi, g, ps) => if canVote g b w ps && anyRelease ps then .next (settleEvent s l gi ps) else .next s

/-- ONCE_OP_RENDEZVOUS (R345, R351): the records of a once-performed operation, once every live replica has issued it, or those
of a replica that catches up. -/
def execOnceOpRendezvous (l b w : Nat) (s : State) : Host.Outcome State Fault Refusal :=
  match catchUp s l b w false with
  | some t => .next t
  | none => match eventAt s l b w with
    | none => .next s
    | some (gi, g, ps) => if canVote g b w ps && !anyRelease ps then .next (settleEvent s l gi ps) else .next s

/-! ## Stragglers (R350) -/

/-- The traps of an event that a straggler ends without a majority: at the event's instruction where a replica has
arrived, else where the late one is. -/
def stragglerTraps (s : State) (ps : List Party) (ev : Nat) : State :=
  ps.foldl (fun s p => if p.sent.isSome then echoTrap s p.key 0x10 ev else lateTrap s p.key 0x10 ev p.rep) s

/-- The re-cloned replica's warp, when it has not come to an event that was kept, with the event's number (R351). -/
def lateClone (s : State) (la : Launch) (g : Gang) (b w : Nat) : Option (Party × Nat) :=
  match g.clone.bind fun c => if c.2 then partyOf s la g b w c.1 else none, g.kept.find? fun k => k.b == b && k.w == w with
  | some p, some k => if p.sent.isNone then some (p, k.event) else none
  | _, _ => none

/-- ECHO_STRAGGLER (R350): a replica is 2^24 cycles late at an event that another has reached; a re-cloned one that comes no
nearer loses its vote too (R351, log entry 24). -/
def execEchoStraggler (l b w : Nat) (s : State) : Host.Outcome State Fault Refusal :=
  match eventAt s l b w with
  | none => .next s
  | some (gi, g, ps) =>
    let here := ps.filter fun p => p.sent.isSome
    let late := ps.filter fun p => p.sent.isNone
    let part := match s.launchOf l with
      | some la => (s.partOf (s.asidOf la.asid).part).state
      | none => 0
    if 2 ≤ part then .next s
    else if here.isEmpty || late.isEmpty then
      match (s.launchOf l).bind fun la => lateClone s la g b w with
      | some (p, ev) =>
        let s := s.modLaunch l fun la => { la with strag := la.strag + 1 }
        .next (loseReplica (voteTrap s p.key 0x10 ev p.rep) l gi p.rep p.core)
      | none => .next s
    else
      let ev := eventOf ps
      let s := bindSublists s here
      let v := judge (sentSigs s here)
      let s := s.modLaunch l fun la => { la with strag := la.strag + 1 }
      match here, late, v with
      | [_, _], [p], .agree =>
        let s := loseReplica (voteTrap s p.key 0x10 ev p.rep) l gi p.rep p.core
        .next (commitEvent s l gi here)
      | _, _, _ => .next (failEcho (stragglerTraps s ps ev) l gi 0x10 (ps.map (·.core)))

/-! ## The re-clone (R351) -/

/-- A warp of the source replica stands where it can be copied: at a safe point, quiescent, or at its end. -/
def copyable (s : State) (p : Nat × Warp) : Bool := p.2.atRest || p.2.status == .preempted || quiescent s p.1 p.2

/-- The source replica's warps go on (R351). -/
def goOn (s : State) (cores : List Nat) : State :=
  { s with warps := s.warps.map fun p =>
      if cores.contains (p.1 / 32) then
        (p.1, { p.2 with
          status := if p.2.status = .preempted then .running else p.2.status
          atSafe := false
          request := if p.2.request = .preempted then .running else p.2.request })
      else p }

/-- A physical Gallery address moved with a private copy: `m` lists the source's cores and the copy's. -/
def movePa (m : List (Nat × Nat)) (pa : Nat) : Nat :=
  match m.find? (·.1 == pa / 2 ^ 20) with
  | some p => p.2 * 2 ^ 20 + pa % 2 ^ 20
  | none => pa

/-- A warp key moved with a private copy. -/
def moveKey (m : List (Nat × Nat)) (k : Nat) : Nat :=
  match m.find? (·.1 == k / 32) with
  | some p => p.2 * 32 + k % 32
  | none => k

/-- A granule moved with a private copy. -/
def moveGran (m : List (Nat × Nat)) (g : Nat) : Nat := movePa m (g * 64) / 64

/-- A lane's access moved with the private copy. -/
def LaneOp.move (m : List (Nat × Nat)) (l : LaneOp) : LaneOp := { l with pa := movePa m l.pa }

/-- An operation moved with the private copy. -/
def Work.move (m : List (Nat × Nat)) : Work → Work
  | .load r n sx ls => .load r n sx (ls.map (·.move m))
  | .gload r l => .gload r (l.move m)
  | .atomic ret op n ls => .atomic ret op n (ls.map (·.move m))
  | .xrnd r ls => .xrnd r (ls.map (·.move m))
  | .push ret l => .push ret (l.move m)
  | .pop r t l => .pop r t (l.move m)
  | .etail l => .etail (l.move m)
  | w => w

/-- A pending operation moved with the private copy. -/
def Pend.move (m : List (Nat × Nat)) (p : Pend) : Pend := { p with work := p.work.move m }

/-- A warp's state moved with the private copy. -/
def Warp.move (m : List (Nat × Nat)) (w : Warp) : Warp :=
  { w with
    parked := w.parked.map fun q => { q with gran := moveGran m q.gran }
    phase := w.phase.map fun e => { e with gran := moveGran m e.gran }
    pend := w.pend.map (·.move m)
    window := w.window.map (·.move m)
    marks := w.marks.map fun q => { q with op := q.op.move m }
    held := w.held.map fun h => { h with op := h.op.move m }
    handler := w.handler.map fun h => { h with again := h.again.map (·.move m) }
    items := w.items.map fun h => { h with by_ := h.by_.move m, l := h.l.move m }
    wait := match w.wait with
      | .seq ga pa t c => .seq ga (movePa m pa) t c
      | q => q }

/-- A ring moved with the private copy. -/
def Ring.move (m : List (Nat × Nat)) (r : Ring) : Ring :=
  { r with
    basePa := movePa m r.basePa
    waiting := r.waiting.map fun p => (moveKey m p.1, p.2) }

/-- A collection with the entries that a test accepts replaced by copies of others under moved keys. -/
def copyTab {β : Type} (t : Tab β) (there here : Nat → Bool) (key : Nat → Nat) (f : β → β) : Tab β :=
  (t.filter fun p => here p.1).foldl (fun q p => kset q (key p.1) (f p.2)) (t.filter fun p => !there p.1)

/-- One core's block copied onto another core (R351): registers, accumulators, windows and control state. -/
def copyCore (m : List (Nat × Nat)) (win : Nat) (s : State) (ab : Nat × Nat) : State :=
  let inWin (c k : Nat) : Bool := decide (c * 2 ^ 20 ≤ k) && decide (k < c * 2 ^ 20 + 4096 * win)
  let a := ab.1
  let b := ab.2
  let ca := s.core a
  let own (t : Tile) : Tile := { t with owner := t.owner.map fun o => (moveKey m o.1, o.2) }
  let mem := { s.mem with
    gal := copyTab s.mem.gal (inWin b) (inWin a) (movePa m) id
    glab := copyTab s.mem.glab (fun g => inWin b (g * 64)) (fun g => inWin a (g * 64)) (moveGran m) id }
  let s := { s with
    mem := mem
    warps := copyTab s.warps (· / 32 == b) (· / 32 == a) (moveKey m) (·.move m)
    rings := copyTab s.rings (· / 2 ^ 20 == b) (· / 2 ^ 20 == a) (movePa m) (·.move m)
    haltAt := copyTab s.haltAt (· / 2 ^ 20 == b) (· / 2 ^ 20 == a) (movePa m) id }
  s.modCore b fun c => { c with
    tiles := ca.tiles.map fun p => (p.1, own p.2)
    engine := ca.engine.map fun u => { u with warp := moveKey m u.warp }
    allocs := ca.allocs.map (moveKey m)
    dmg := (ca.dmg.filter fun q => inWin a (q * 64)).map (moveGran m)
    snapshot := [], last := ca.last }

/-- A replica that has lost a vote may be re-cloned: it is not live, no copy is on its way, and none of its cores is fenced. -/
def lostReplica (s : State) (la : Launch) (g : Gang) (r : Nat) : Bool :=
  decide (r < la.record.repl) && !g.live.contains r && g.clone.isNone && !g.ended && g.kill.isNone && g.echoFail.isNone &&
  g.stop.isEmpty && !la.cancelled && (g.coresOf r).all fun c => !(s.core c).fenced && (s.core c).notices.isEmpty

/-- The copied warps held until their cores swap the copy in (R351), and let go then. -/
def holdCopy (hold : Bool) (s : State) (cores : List Nat) : State :=
  { s with warps := s.warps.map fun p =>
      if cores.contains (p.1 / 32) && p.2.status == (if hold then .running else .stopped) then
        (p.1, { p.2 with status := if hold then .stopped else .running })
      else p }

/-- A copy that has crossed is swapped in (R351): the replica is live again, its parked groups wake, and it catches up on the
events that were kept. -/
def swapIn (s : State) (l g r : Nat) (x : Gang) : State :=
  let s := holdCopy false s (x.coresOf r)
  let s : State := { s with warps := s.warps.map fun p => if (x.coresOf r).contains (p.1 / 32) then (p.1, p.2.wakeAll) else p }
  (s.modLaunch l fun y => { y with recln := y.recln + 1 }).modGang l g fun y => { y with
    live := insNat r y.live, clone := if y.kept.isEmpty then none else some (r, true) }

/-- A copy of replica `r` is on its way and may be swapped in: its gang goes on, in a partition that runs. -/
def crossing (s : State) (la : Launch) (x : Gang) (r : Nat) : Bool :=
  x.clone == some (r, false) && !x.ended && x.kill.isNone && x.echoFail.isNone && x.stop.isEmpty && !la.cancelled &&
  decide ((s.partOf (s.asidOf la.asid).part).state < 2) && (x.coresOf r).all fun c => !(s.core c).fenced

/-- RECLONE (R351): once every warp of the committing replica stands at a safe point and those of the lost one have
stopped, its state is copied to the lost replica's cores, and it goes on; the next one swaps the copy in, and Echo counts three
again. -/
def execReclone (l g r : Nat) (s : State) : Host.Outcome State Fault Refusal :=
  match s.gangAt l g with
  | none => .next s
  | some (la, x) =>
    if crossing s la x r then .next (swapIn s l g r x)
    else
    let src := x.coresOf x.commit
    let busy := s.warps.any fun p => src.contains (p.1 / 32) && !copyable s p
    let late := s.warps.any fun p => (x.coresOf r).contains (p.1 / 32) && !standsStill s p
    let engines := src.any fun c => !(s.core c).engine.isEmpty
    let part := (s.partOf (s.asidOf la.asid).part).state
    if !lostReplica s la x r || busy || late || engines || 2 ≤ part then .next s
    else
      let s := goOn s src
      let s := (src.zip (x.coresOf r)).foldl (copyCore (src.zip (x.coresOf r)) la.record.win) s
      let s := holdCopy true s (x.coresOf r)
      .next (s.modGang l g fun y => { y with clone := some (r, false), kept := [] })

end Sys2Proof.Machine
end

