-- ==== Sys2Proof/Machine/Siphon.lean ====
section
/-! DEFINITION. The siphon engines (R302 to R312): reading an entry, checking and performing a chunk, status, sequence and
halts. -/
namespace Sys2Proof.Machine

/-! ## Entries (R302, R310) -/

/-- SSP. -/
def entSsp (ds : List Word) : Nat := bits (nth 0 ds 0) 54 2
/-- NEXT. -/
def entNext (ds : List Word) : Nat := bits (nth 0 ds 0) 0 32
/-- RSIZE in bytes. -/
def entRsize (ds : List Word) : Nat := 32 * bits (nth 0 ds 3) 0 8
/-- IDX. -/
def entIdx (ds : List Word) : Nat := bits (nth 0 ds 2) 0 32
/-- STRIDE. -/
def entStride (ds : List Word) : Nat := bits (nth 0 ds 2) 32 32
/-- DPITCH or SPITCH. -/
def entPitch (ds : List Word) : Nat := bits (nth 0 ds 4) 32 32
/-- DST or SRC of dword 4. -/
def entGal (ds : List Word) : Nat := bits (nth 0 ds 4) 0 32

/-- An address of a space fits its field: 32 bits of Gallery, 52 bits of DRAM. -/
def spaceOk (sp : Nat) (v : Nat) : Bool := decide (sp ≤ 1) && decide (v < 2 ^ (if sp = 0 then 32 else 52))

/-- The limits that GATH and SCAT share (R310). -/
def rowsOk (ds : List Word) : Bool :=
  decide (entDw ds 1 < 2 ^ 52) && entStride ds % 32 == 0 && entIdx ds % 4 == 0 && bits (nth 0 ds 3) 48 16 == 0 &&
  bits (nth 0 ds 3) 16 16 == 0 && decide (1 ≤ bits (nth 0 ds 3) 0 8) && decide (bits (nth 0 ds 3) 0 8 ≤ 128)

/-- The pitch rules of a row kind that does not deliver into a ring (R310). -/
def pitchOk (ds : List Word) : Bool :=
  decide (entRsize ds ≤ entPitch ds) && entPitch ds % 32 == 0 && entRps ds == 0

/-- The field rules of R302 and R310, but for those on an armed ring. -/
def entryOk (ds : List Word) : Bool :=
  bits (nth 0 ds 0) 32 20 == 0 && entDw ds 5 == 0 &&
  match entKind ds with
  | 1 => spaceOk (entSsp ds) (entDw ds 1) && spaceOk (entDsp ds) (entDw ds 2) && entDw ds 1 % 64 == 0 &&
      entDw ds 2 % 64 == 0 && decide (entDw ds 3 < 2 ^ 32) && entDw ds 3 != 0 && entDw ds 3 % 64 == 0 && entDw ds 4 == 0
  | 2 => entSsp ds == 1 && rowsOk ds && (if entDsp ds = 2 then decide (1 ≤ entRps ds) else entDsp ds == 0 && pitchOk ds)
  | 3 => entSsp ds == 0 && entDsp ds == 1 && rowsOk ds && pitchOk ds
  | 4 => entSsp ds == 0 && entDsp ds == 0 && decide (entDw ds 1 < 2 ^ 52) && entDw ds 1 % 2 ^ 19 == 0 &&
      decide (entDw ds 2 ≤ 1) && entDw ds 3 == 0 && entDw ds 4 == 0
  | 5 => entSsp ds == 0 && entDsp ds == 0 && decide (entDw ds 1 < 2 ^ 52) && entDw ds 2 == 0 &&
      decide (entDw ds 3 < 2 ^ 32) && entDw ds 4 == 0
  | _ => false

/-! ## Why an entry halts (R304, R305) -/

/-- A check that fails. -/
def halt {α : Type} (code fva : Nat) : Except Halt α := .error ⟨code, fva, none⟩

/-- The dominance check of R305: LABEL, or EXHAUST when the join exceeds eight owners (R304, R305, log entry 23). -/
def checkFlow (entry fva : Nat) (must need : Label) : Except Halt Unit :=
  if Config.maxOwners < need.length then halt 0x17 entry
  else if dominates must need then .ok ()
  else .error ⟨0x12, fva, some (need, must)⟩

/-- The Gallery pieces of a range: physical address and length (GBOUND). -/
def galPieces (x : Ctx) (s : State) (a n : Nat) (wr : Bool) : Except Halt (List (Nat × Nat)) :=
  (lineParts a n).mapM fun p => match galPa x s p.1 p.2 wr with
    | some pa => .ok (pa, p.2)
    | none => halt 0x14 p.1

/-- The DRAM pieces of a range, with their leaves (XLATE, WPROT). -/
def dramPieces (x : Ctx) (s : State) (a n : Nat) (wr : Bool) : Except Halt (List (Nat × Nat × Leaf)) :=
  (lineParts a n).mapM fun p => match translate s x.asid p.1 with
    | none => halt 0x10 p.1
    | some q => if wr && !leafW q.2 then halt 0x11 p.1 else .ok (q.1, p.2, q.2)

/-! ## Reading an entry when it starts (R303, R305) -/

/-- The labels of the index-list granules that an entry reads (R305). -/
def indexLabel (x : Ctx) (s : State) (ds : List Word) : Except Halt Label :=
  if entKind ds == 2 || entKind ds == 3 then
    (galPieces x s (entIdx ds) (4 * entRows ds) false).map fun ps => joinAll (ps.map fun p => granLabel s.mem p.1)
  else .ok []

/-- The armed buffer ring that a GATH delivers into (R310): the physical address of its descriptor. -/
def ringOf (x : Ctx) (s : State) (ds : List Word) : Except Halt (Option Nat) :=
  if !entRings ds then .ok none
  else match galPa x s (entGal ds) 64 true with
    | none => halt 0x14 (entGal ds)
    | some pa => match kget s.rings pa with
      | some r => if r.kind = 1 && decide (entRps ds * entRsize ds ≤ 2 ^ r.lsize) then .ok (some pa) else halt 0x13 0
      | none => halt 0x13 0

/-- CTL of an entry whose granule is at `pa`, and the check that the granule dominates it (R305). -/
def controlLabel (x : Ctx) (s : State) (e : Entry) (pa : Nat) : Except Halt Label := do
  let il ← indexLabel x s e.dw
  let ctl := joinAll [e.sub.lab, granLabel s.mem pa, il]
  checkFlow e.ga e.ga (granLabel s.mem pa) ctl
  .ok ctl

/-- An entry read at its home bank (R303) and checked: `first` when it has not started before. -/
def readEntry (x : Ctx) (s : State) (e : Entry) (pa : Nat) (first : Bool) : Except Halt Entry := do
  let ds := (List.range 8).map fun i => wd (readNum s.mem.gal (pa + 8 * i) 8)
  let e := { e with dw := ds }
  if granDamaged s pa then halt 0x15 e.ga
  if !entryOk ds || (first && (entDw ds 6 != 0 || entDw ds 7 != 0)) then halt 0x13 e.ga
  let ring ← match ringOf x s ds with
    | .error h => if h.code = 0x13 then halt 0x13 e.ga else .error h
    | .ok r => .ok r
  let ctl ← controlLabel x s e pa
  .ok { e with fresh := false, ctl := ctl, code := 0, fva := 0, bad := none, ring := ring, disarmed := false }

/-! ## The moves of a chunk (R311) -/

/-- One line or row of a chunk: whether it comes from the Gallery, its pieces and address, its label, the tag that denies
it (R221); its destination (0 Gallery, 1 DRAM, 2 a ring slot), pieces, the labels that must dominate, and its address. -/
structure Move where
  gal : Bool
  src : List (Nat × Nat)
  sva : Nat
  lab : Label
  deny : Option Word
  dsp : Nat
  dst : List (Nat × Nat)
  must : List Label
  dva : Nat
  deriving DecidableEq, Repr

/-- The source of a move: pieces, label and denying tag. -/
def moveSrc (x : Ctx) (s : State) (dram : Bool) (prin a n : Nat) : Except Halt (List (Nat × Nat) × Label × Option Word) :=
  if dram then
    (dramPieces x s a n false).map fun ps =>
      let deny := (ps.find? fun p => !aclAllows s x.asid prin p.2.2.tag).map fun p => p.2.2.tag
      (ps.map fun p => (p.1, p.2.1),
        if deny.isSome then [] else joinAll (ps.map fun p => tagLabel s x.asid p.2.2.tag), deny)
  else (galPieces x s a n false).map fun ps => (ps, joinAll (ps.map fun p => granLabel s.mem p.1), none)

/-- The destination of a move: pieces and the labels that must dominate. -/
def moveDst (x : Ctx) (s : State) (dsp a n : Nat) : Except Halt (List (Nat × Nat) × List Label) :=
  if dsp = 1 then
    (dramPieces x s a n true).map fun ps => (ps.map fun p => (p.1, p.2.1), ps.map fun p => tagLabel s x.asid p.2.2.tag)
  else if dsp = 0 then (galPieces x s a n true).map fun ps => (ps, ps.map fun p => granLabel s.mem p.1)
  else .ok ([], [])

/-- A move of `n` bytes from one space to another. -/
def mkMove (x : Ctx) (s : State) (sdram : Bool) (prin sa dsp da n : Nat) : Except Halt Move := do
  let a ← moveSrc x s sdram prin sa n
  let b ← moveDst x s dsp da n
  .ok ⟨!sdram, a.1, sa, a.2.1, a.2.2, dsp, b.1, b.2, da⟩

/-- The DRAM address of row `k` of a GATH or SCAT (R311). -/
def rowVa (x : Ctx) (s : State) (ds : List Word) (k : Nat) : Except Halt Nat :=
  let ia := entIdx ds + 4 * k
  match galPa x s ia 4 false with
  | none => halt 0x14 ia
  | some pa =>
    if granDamaged s pa then halt 0x15 ia
    else
      let ra := (entDw ds 1 + entStride ds * readNum s.mem.gal pa 4) % 2 ^ 64
      if 2 ^ 52 ≤ ra || ra % 32 ≠ 0 then halt 0x10 (ra % 2 ^ 52) else .ok ra

/-- The moves of chunk `i` of an entry, with every address checked (R306). -/
def chunkMoves (x : Ctx) (s : State) (ds : List Word) (prin i : Nat) : Except Halt (List Move) :=
  match entKind ds with
  | 1 =>
    let n := min 4096 (entDw ds 3 - 4096 * i)
    (List.range (n / 64)).mapM fun j =>
      let o := 4096 * i + 64 * j
      mkMove x s (entSsp ds == 1) prin (entDw ds 1 + o) (entDsp ds) (entDw ds 2 + o) 64
  | 2 =>
    let k := rowsPerChunk ds * i
    (List.range (min (rowsPerChunk ds) (entRows ds - k))).mapM fun j => do
      let ra ← rowVa x s ds (k + j)
      if entDsp ds = 2 then mkMove x s true prin ra 2 (entGal ds) (entRsize ds)
      else mkMove x s true prin ra 0 (entGal ds + entPitch ds * (k + j)) (entRsize ds)
  | 3 =>
    let k := 16 * i
    (List.range (min 16 (entRows ds - k))).mapM fun j => do
      let ra ← rowVa x s ds (k + j)
      mkMove x s false prin (entGal ds + entPitch ds * (k + j)) 1 ra (entRsize ds)
  | _ => .ok []

/-- The label checks of a chunk (R305). -/
def checkMoves (entry : Nat) (ctl : Label) (ring : Option Label) (ms : List Move) : Except Halt Unit :=
  ms.forM fun m =>
    let need := joinL m.lab ctl
    (if m.dsp = 2 then ring.toList else m.must).forM fun l => checkFlow entry m.dva l need

/-- A move's source is damaged: a Gallery granule, or a line of a contained controller that is delivered (R307, R400). -/
def moveDamaged (s : State) (m : Move) : Bool :=
  m.deny.isNone && m.src.any fun p => if m.gal then granDamaged s p.1 else contained s p.1

/-- The bytes of a move's source, as they stand; a denied row is zero (R221). -/
def moveBytes (s : State) (m : Move) : List Byte :=
  if m.deny.isSome then (m.src.flatMap fun p => List.replicate p.2 0)
  else m.src.flatMap fun p => if m.gal then readBytes s.mem.gal p.1 p.2 else dramBytes s p.1 p.2

/-- Bytes written over some pieces. -/
def writePieces (w : State → Nat → List Byte → State) : State → List (Nat × Nat) → List Byte → State
  | s, [], _ => s
  | s, p :: t, bs => writePieces w (w s p.1 (bs.take p.2)) t (bs.drop p.2)

/-- The rows or lines of a chunk that are denied: address and tag. -/
def deniedMoves (ms : List Move) : List (Nat × Word) := ms.filterMap fun m => m.deny.map fun tag => (m.sva, tag)

/-- One move performed; a denied row leaves a sump record (R312). -/
def performMove (x : Ctx) (e : Entry) (prin : Nat) (s : State) (m : Move) : State :=
  let s := match m.deny with
    | some tag => sumpRecord s x.asid 1 m.sva prin tag.toNat e.sub.b e.num
    | none => s
  let bs := moveBytes s m
  match m.dsp with
  | 0 => writePieces (deviceWrite x) s m.dst bs
  | 1 => markPublished x (writePieces writeDramPa s m.dst bs)
  | _ => s

/-- The moves of a chunk performed in order. -/
def performMoves (x : Ctx) (e : Entry) (prin : Nat) (s : State) (ms : List Move) : State :=
  ms.foldl (performMove x e prin) s

/-! ## Echo and an engine's reads (R346, R417) -/

/-- The Gallery bytes that a chunk reads from the gang's private copy: the address, the physical address, the length. -/
def privateReads (x : Ctx) (s : State) (ds : List Word) (i : Nat) (ms : List Move) : List (Nat × Nat × Nat) :=
  let idx := if entKind ds == 2 || entKind ds == 3 then
      let k := rowsPerChunk ds * i
      (List.range (min (rowsPerChunk ds) (entRows ds - k))).filterMap fun j =>
        (galPa x s (entIdx ds + 4 * (k + j)) 4 false).map fun pa => (entIdx ds + 4 * (k + j), pa, 4)
    else []
  let src := (ms.filter (·.gal)).flatMap fun m =>
    ((lineParts m.sva (m.src.map (·.2)).sum).zip m.src).map fun p => (p.1.1, p.2.1, p.2.2)
  (idx ++ src).filter fun r => !externalEntry x (r.2.1 / 64)

/-- The kind 7 signature of those bytes in replica `r`'s copy (R337, R346). -/
def chunkSig (x : Ctx) (s : State) (rs : List (Nat × Nat × Nat)) (r : Nat) : Sig :=
  signature s x.asid (rs.map fun q =>
    let pa := replicaPa x r q.2.1
    recordOf 7 (granLabel s.mem pa) q.1 ((List.range 8).map fun i => wd (ofBytes (((readBytes s.mem.gal pa q.2.2).drop (8 * i)).take 8))))

/-- The judgement of a chunk's reads (R417): the state, and whether the chunk may write.  A replica that still catches up is
not compared (R351). -/
def judgeChunk (x : Ctx) (s : State) (e : Entry) (rs : List (Nat × Nat × Nat)) : State × Bool :=
  if !x.replicated || rs.isEmpty then (s, true)
  else
    let l := x.blk.launch
    let key (r : Nat) : Nat := (warpKey x.la x.gang e.sub.b e.sub.warp r).getD 0
    match judge (x.gang.voters.map fun r => (r, chunkSig x s rs r)) with
    | .agree => (s, true)
    | .dissent r => (loseReplica (voteTrap s (key r) 0x0F e.sub.event r) l x.gi r (key r / 32), true)
    | .differ =>
      (failEcho (x.gang.live.foldl (fun s r => lateTrap s (key r) 0x0E e.sub.event r) s) l x.gi 0x0E
        (x.gang.live.map fun r => key r / 32), false)

/-- A ring has room for the chain, and the copies stand alike (R238, R344). -/
def ringRoom (x : Ctx) (s : State) (key pa : Nat) : Bool :=
  match kget s.rings pa with
  | none => false
  | some r => r.admits (chainProducer key) && (copiesOf x pa).all fun q => (kget s.rings q).map (·.slots) == some r.slots

/-! ## Migrations asked for by an entry (R315, R316) -/

/-- The frames of a tier's free pool (R401). -/
def Hub.pool (h : Hub) (tier : Nat) : List Nat := if tier = 0 then h.pool0 else h.pool1

/-- A page may migrate to a tier (R315): a 512 KiB page in the other tier, with none of PIN, PEERW and MLOCK, and a free
frame there. -/
def mayMigrate (s : State) (asid page tier : Nat) : Bool :=
  match leafAt s asid (page * 2 ^ 19) with
  | some (lf, 19) => bits lf.tag 32 3 == 0 && bits lf.tag 35 2 != tier && !(s.hub.pool tier).isEmpty
  | _ => false

/-- DONE of a MIGR or PFCH that completes, whose chunks the specification does not count: a free value, the same on every run
(R2, log entry 1). -/
def openDone (e : Entry) : Nat := (Config.fixedWord e.dw).toNat

/-- A chunk whose transfers have failed once, and then succeeded, is counted and logged (R307). -/
def logRetry (s : State) (key num failures : Nat) : State := if failures = 1 then s.notify 10 [1, key, num] [] else s

/-- MIGR as an entry (R307, R311, R315): SKIP, or a migration that the engine runs piece by piece. -/
def startMigr (x : Ctx) (s : State) (key : Nat) (c : Chain) (e : Entry) (failures : Nat) : State :=
  let va := entDw e.dw 1
  let tier := entDw e.dw 2
  match leafAt s x.asid va with
  | none => failEntry s key c e ⟨0x10, va, none⟩
  | some _ =>
    if !mayMigrate s x.asid (va / 2 ^ 19) tier then endEntry s key c { e with code := 2 } (openDone e)
    else if 2 ≤ failures then failEntry s key c e ⟨0x15, va, none⟩
    else
      let s := logRetry s key e.num failures
      let m : Migration := ⟨x.asid, va / 2 ^ 19, tier, 0, 0, 0, false, 0, some (key, e.num)⟩
      (s.setChain key (c.put e)).modHub fun h => { h with migrations := h.migrations ++ [m] }

/-! ## ENGINE_CHUNK -/

/-- A move as another replica's copy sees it, once the committing role has passed to it (R417). -/
def Move.inCopy (g : Gang) (r : Nat) (m : Move) : Move :=
  { m with
    src := if m.gal then m.src.map fun p => (g.copyPa r p.1, p.2) else m.src
    dst := if m.dsp = 0 then m.dst.map fun p => (g.copyPa r p.1, p.2) else m.dst }

/-- A chunk that has passed its checks is performed, from the committing replica's copy (R306, R311, R417).  One for a ring
reserves its slot, and is delivered by the entry's next step (R237). -/
def performChunk (x : Ctx) (s : State) (key : Nat) (e : Entry) (prin : Nat) (ms : List Move) : State :=
  let j := judgeChunk x s e (privateReads x s e.dw e.chunks ms)
  if !j.2 then j.1
  else match commitCtx j.1 e.sub.launch e.sub.b with
    | none => j.1
    | some y =>
      let key := if y.blk.rep = x.blk.rep then key else x.gang.copyPa y.blk.rep key
      match kget j.1.chains key with
      | none => j.1
      | some c =>
        let e := (c.entries.find? (·.num == e.num)).getD e
        let ms := if y.blk.rep = x.blk.rep then ms else ms.map (·.inCopy x.gang y.blk.rep)
        match e.ring.bind fun pa => (kget j.1.rings pa).map fun r => (pa, r) with
        | some (pa, r) =>
          (reserveSlot y j.1 key pa).setChain key (c.put
            { e with slot := some ⟨r.put, ms.flatMap (moveBytes j.1), deniedMoves ms⟩ })
        | none => chunkDone (performMoves y e prin j.1 ms) key e.num (deniedMoves ms).length

/-- CTL of a started entry, formed and checked for the chunk that comes (R305). -/
def chunkControl (x : Ctx) (s : State) (e : Entry) : Except Halt Label :=
  match galPa x s e.ga 64 true with
  | some pa => controlLabel x s e pa
  | none => halt 0x14 e.ga

/-- One chunk of a started entry (R305 to R307, R311): `failures` counts the transfers of this chunk that failed. -/
def runChunk (x : Ctx) (s : State) (key : Nat) (c : Chain) (e : Entry) (failures : Nat) : State :=
  let prin := nth 0 x.lr.prins (entPidx e.dw) % 2 ^ 24
  let ring := e.ring.bind (kget s.rings)
  if entKind e.dw = 4 then startMigr x s key c e failures
  else if entKind e.dw = 5 then endEntry (logRetry s key e.num failures) key c { e with code := 1 } (openDone e)
  else if e.disarmed then failEntry s key c e ⟨0x13, entGal e.dw, none⟩
  else
    let checked : Except Halt (Label × List Move) := do
      let ctl ← chunkControl x s e
      let ms ← chunkMoves x s e.dw prin e.chunks
      checkMoves e.ga ctl (ring.map (·.lab)) ms
      match ms.find? (moveDamaged s) with
        | some m => halt 0x15 m.sva
        | none => if 2 ≤ failures then halt 0x15 e.ga else .ok (ctl, ms)
    match checked with
    | .error h => failEntry s key c e h
    | .ok (ctl, ms) =>
      let e := { e with ctl := ctl }
      if e.ring.any fun pa => !ringRoom x s key pa then s.setChain key (c.put e)
      else performChunk x ((logRetry s key e.num failures).setChain key (c.put e)) key e prin ms

/-- The rest of a sublist once an entry's NEXT is known: nothing when the entry was its last (R301). -/
def nextOf (e : Entry) : Option SubList :=
  if e.sub.count ≤ 1 then none else some { e.sub with first := entNext e.dw, count := e.sub.count - 1 }

/-- An entry that starts: entry `num`, the first of what is left of its sublist. -/
def startEntry (num : Nat) (w : SubList) : Entry := ⟨num, w.first, w, true, [], [], 0, 0, 0, 0, none, none, false, none⟩

/-- The entry that an engine's step names: one that has started, or the next one, whose sublist is then taken (R301).  None is
next while one that has started is still to be read, as its NEXT is (R306). -/
def pickEntry (c : Chain) (num : Nat) : Option (Chain × Entry × Bool) :=
  match c.entries.find? (·.num == num) with
  | some e => if e.code = 0 then some (c, e, false) else none
  | none =>
    if num ≠ c.next || c.entries.any (·.fresh) then none
    else match c.walk, c.subs with
      | some w, _ => some ({ c with next := num + 1 }, startEntry num w, true)
      | none, w :: t => some ({ c with subs := t, next := num + 1 }, startEntry num w, true)
      | none, [] => none

/-- An entry may take a chunk: no lower entry has failed, and no lower one waits at its ring (R306, R311). -/
def mayRun (x : Ctx) (s : State) (key : Nat) (c : Chain) (num : Nat) : Bool :=
  c.entries.all fun f => decide (num ≤ f.num) || (decide (f.code < 0x10) &&
    (f.code != 0 || f.slot.isSome || f.ring.all fun pa => ringRoom x s key pa))

/-- A migration runs for an entry of a chain. -/
def migrating (s : State) (key num : Nat) : Bool := s.hub.migrations.any fun m => m.entry == some (key, num)

/-- One entry of a chain takes its next chunk, after it has been read if it is to be (R303); one whose address is no multiple
of 64 halts with FORM (R302, R310). -/
def stepEntry (s : State) (key : Nat) (c : Chain) (num failures : Nat) : State :=
  match pickEntry c num with
  | none => s
  | some (c', e, first) =>
    match commitCtx s e.sub.launch e.sub.b with
    | none => s
    | some x =>
      if !mayRun x s key c num || migrating s key num then s
      else if !e.fresh then runChunk x s key c' e failures
      else
        let last := num + 1 == c'.next
        let lost := if last then { c' with walk := none } else c'
        match (if e.ga % 64 = 0 then galPa x s e.ga 64 true else none) with
        | none => failEntry s key lost e ⟨if e.ga % 64 = 0 then 0x14 else 0x13, e.ga, none⟩
        | some pa => match readEntry x s e pa first with
          | .error h =>
            let e := { e with dw := (List.range 8).map fun i => wd (readNum s.mem.gal (pa + 8 * i) 8) }
            failEntry s key (if last then { c' with walk := nextOf e } else c') e h
          | .ok e => runChunk x s key (if last then { c' with walk := nextOf e } else c') e failures

/-- A chain's partition does not run (R308, R376). -/
def chainPaused (s : State) (c : Chain) : Bool :=
  match s.launchOf c.launch with
  | some la => decide (2 ≤ (s.partOf (s.asidOf la.asid).part).state)
  | none => true

/-- ENGINE_CHUNK (R311): entry `e` of the chain at `ch` takes its next chunk, whose transfers failed `failures` times, or
completes the delivery that it has begun. -/
def execEngineChunk (ch e failures : Nat) (s : State) : Host.Outcome State Fault Refusal :=
  match kget s.chains ch with
  | none => .next s
  | some c =>
    match c.entries.find? (fun f => f.num == e && f.filling), s.launchOf c.launch with
    | some f, _ => .next (deliverSlot s ch f)
    | none, none => .next s
    | none, some la =>
      if chainPaused s c then .next s
      else if c.detached then .next (unbindChain s ch c)
      else if c.halt ≠ 0 then .next s
      else if la.cancelled then .next (stopAtChunk s ch c 0x19)
      else .next (stepEntry s ch c e failures)

end Sys2Proof.Machine
end

