-- ==== Sys2Proof/Machine/Retire.lean ====
section
/-! DEFINITION. The end of blocks, gangs and launches: retirement and write-back (R63, R308, R347), the end of a gang that
failed (R67, R365), relaunch (R348, R368), and completion (R65, R366). -/
namespace Sys2Proof.Machine

/-! ## When a block has done -/

/-- A warp has exited, and nothing of it is left (R63). -/
def Warp.done (w : Warp) : Bool :=
  w.exited == 0xFFFFFFFF#32 && w.status == .running && w.trap.isNone && w.run.isNone && w.pend.isEmpty && w.window.isEmpty &&
  w.echo.isNone && w.held.isEmpty

/-- The warps of block `b` in one replica. -/
def warpsOf (s : State) (g : Gang) (n b r : Nat) : List (Nat × Warp) :=
  match (g.coresOf r)[b % n]? with
  | some c => s.warps.filter fun p => p.1 / 32 == c
  | none => []

/-- The warps of block `b` in every live replica. -/
def liveWarps (s : State) (la : Launch) (g : Gang) (b : Nat) : List (Nat × Warp) :=
  g.live.flatMap (warpsOf s g la.record.gangBlocks b)

/-- A warp's tile instructions have executed. -/
def tilesDone (s : State) (k : Nat) : Bool := !(s.core (k / 32)).engine.any (·.warp == k)

/-- A chain has completed or halted on every entry handed over (R308). -/
def Chain.done (c : Chain) : Bool :=
  (c.halt != 0 && !c.entries.any (·.filling)) || (c.entries.isEmpty && c.subs.isEmpty && c.walk.isNone)

/-- The chains that a block bound, those whose descriptors lie with a context that is not loaded among them (R308). -/
def blockChains (s : State) (l b : Nat) : Tab Chain :=
  (s.chains ++ s.contexts.flatMap (·.chains)).filter fun p => p.2.launch == l && p.2.b == b

/-- A block is in the live planes of its core in every live replica. -/
def blockHere (s : State) (l : Nat) (la : Launch) (g : Gang) (b : Nat) : Bool :=
  g.live.all fun r => match (g.coresOf r)[b % la.record.gangBlocks]? with
    | some c => (s.core c).block.any fun k => k.launch == l && k.b == b && k.rep == r
    | none => false

/-- A re-clone's copy is on its way to cores that can take it in (R351): the gang waits for it. -/
def awaitsClone (s : State) (g : Gang) : Bool :=
  g.clone.any fun c => !c.2 && (g.coresOf c.1).all fun k => !(s.core k).fenced

/-- A block may retire (R63, R308). -/
def blockDone (s : State) (l : Nat) (la : Launch) (g : Gang) (b : Nat) : Bool :=
  !awaitsClone s g && blockHere s l la g b && (liveWarps s la g b).all (fun p => p.2.done && tilesDone s p.1) &&
    (blockChains s l b).all fun p => p.2.done

/-! ## Write-back (R63, R347) -/

/-- The granules of a block's out and inout regions, in entry order: DRAM address and window offset. -/
def outLines (la : Launch) (b : Nat) : List (Nat × Nat) :=
  (la.record.used.filter fun g => decide (2 ≤ regDir g)).flatMap fun g => regionLines g b

/-- The window's first physical address of block `b` in replica `r`. -/
def windowPa (la : Launch) (g : Gang) (b r : Nat) : Nat := nth 0 (g.coresOf r) (b % la.record.gangBlocks) * 2 ^ 20

/-- The kind 8 signature of a block's write-back in one replica (R337, R340). -/
def backSig (s : State) (la : Launch) (g : Gang) (b r : Nat) : Sig :=
  let g0 := if la.record.clustered then la.record.lvl b 2 * 2 ^ 20 else 0
  signature s la.asid ((outLines la b).map fun p =>
    let pa := windowPa la g b r + p.2
    recordOf 8 (granLabel s.mem pa) (g0 + p.2) ((List.range 8).map fun i => wd (readNum s.mem.gal (pa + 8 * i) 8)))

/-- The bytes that write-back takes from a granule: free ones when it is damaged (log entries 1 and 14). -/
def backBytes (s : State) (pa : Nat) : State × List Byte :=
  if granDamaged s pa then
    (((List.range 8).foldl (fun s _ => s.drew) s),
      (List.range 8).flatMap fun i => toBytes 8 (Config.freeWord (s.free + i)).toNat)
  else (s, readBytes s.mem.gal pa 64)

/-- One granule written back, or skipped with its sump record (R63); the truth value says that it was skipped.  Of a
damaged granule free bytes are written (log entry 14). -/
def writeBackLine (la : Launch) (b pa : Nat) (s : State) (va : Nat) : State × Bool :=
  match translate s la.asid va with
  | some p =>
    if leafW p.2 && dominates (tagLabel s la.asid p.2.tag) (granLabel s.mem pa) then
      let r := backBytes s pa
      (writeDramPa r.1 p.1 r.2, false)
    else (sumpRecord s la.asid 3 va 0 p.2.tag.toNat b 0, true)
  | none => (sumpRecord s la.asid 3 va 0 0 b 0, true)

/-- A block's regions written back, in entry order, from the committing replica (R63, R341). -/
def writeBack (la : Launch) (b base : Nat) : State → List (Nat × Nat) → State × Bool
  | s, [] => (s, false)
  | s, p :: t =>
    let r := writeBackLine la b (base + p.2) s p.1
    let q := writeBack la b base r.1 t
    (q.1, r.2 || q.2)

/-! ## The end of a gang -/

/-- What waits in a ring or queue for warps of some cores is withdrawn. -/
def withdrawWaits (s : State) (cores : List Nat) : State :=
  let gone (p : Nat × Nat) : Bool := cores.contains (p.1 / 32)
  { s with
    rings := s.rings.map fun r => (r.1, { r.2 with waiting := r.2.waiting.filter fun p => !gone p })
    hub := { s.hub with queues := s.hub.queues.map fun q =>
      (q.1, { q.2 with waiting := q.2.waiting.filter fun p => !gone p }) } }

/-- Consumers among the warps of a gang are gone (R239). -/
def dropConsumers (s : State) (l : Nat) (la : Launch) (gi : Nat) : State :=
  let leave (r : Nat × Ring) : Nat × Ring :=
    if r.2.consumer.any fun p => p.1 == l && la.record.gangOf p.2.1 == gi then (r.1, unbindRing r.2) else r
  let s := { s with rings := s.rings.map leave }
  s.mapContexts fun c => { c with rings := c.rings.map leave }

/-- A core that held a block of an ended gang is free (R57). -/
def freeCore (s : State) (c : Nat) : State :=
  s.modCore c fun k => { k with block := none, tiles := [], engine := [], allocs := [], notices := [] }

/-- The context of a block whose gang has ended holds no block any more. -/
def Context.cleared (c : Context) : Context := { c with block := none, warps := [], tiles := [], engine := [] }

/-- The warps and the waits of some cores gone. -/
def clearWarps (s : State) (cores : List Nat) : State :=
  let s := withdrawWaits s cores
  { s with warps := s.warps.filter fun p => !cores.contains (p.1 / 32) }

/-- No block of a partition is on a core or in the save area. -/
def partEmpty (s : State) (p : Nat) : Bool :=
  !(s.launches.any fun q => (s.asidOf q.2.asid).part == p && q.2.gangs.any fun g => !g.2.ended)

/-- The chains of a gang of a cancelled launch stopped with CANCEL, at a chunk boundary (R308). -/
def cancelChains (s : State) (l : Nat) (la : Launch) (gi : Nat) : State :=
  (s.chains.filter fun p => gangChain l la gi p.2).foldl (fun s p => stopAtChunk s p.1 p.2 0x19) s

/-- A gang has ended: its cores are free, its chains unbound, its waits withdrawn, wherever its blocks are. -/
def endGang (s : State) (l gi : Nat) : State :=
  match s.gangAt l gi with
  | none => s
  | some (la, g) =>
    let cores := hereCores s l la gi g
    let s := if la.cancelled then cancelChains s l la gi else s
    let s := clearWarps (dropConsumers (dropChains s l gi) l la gi) cores
    let s := cores.foldl freeCore s
    let s := s.mapContexts fun c => if ofGang l la gi (List.range g.cores.length) c.block then c.cleared else c
    let s := s.modGang l gi fun x => { x with ended := true }
    let part := (s.asidOf la.asid).part
    if partEmpty s part then s.modPart part fun q => if q.state = 1 then { q with state := 0 } else q else s

/-- Every warp of the live replicas is at rest and its operations have ended, but for those that only wait (R365). -/
def gangAtRest (s : State) (l : Nat) (la : Launch) (gi : Nat) (g : Gang) : Bool :=
  (s.warps.filter fun p => ofGang l la gi g.live (s.core (p.1 / 32)).block).all fun p =>
    standsStill s p && p.2.status != .trapped && p.2.status != .frozen && tilesAtRest s p.1 && drained s p

/-- A gang is over without retirement: cancelled, stopped, failed or killed for good, or never to be started (R61, R67, R73,
R348, R368). -/
def gangOver (la : Launch) (g : Gang) : Bool :=
  la.cancelled || (g.stopped && g.kill.isNone && g.echoFail.isNone) || g.lost_ || (!g.staged && la.stagingFault)

/-! ## BLOCK_RETIRE -/

/-- A mark that arrived after a warp's last EXIT keeps its block from retiring (R63, R358): it is taken. -/
def takeLateMarks (s : State) (ks : List Nat) : State := ks.foldl lateMark s

/-- The registers that an EXIT reads: its guard. -/
def exitUses (word : BitVec 32) : Uses :=
  match decode word with
  | some (.exit _ g) => { rp := [g.toNat] }
  | _ => {}

/-- The Echo trap of a mismatch at write-back, in one replica: at the EXIT of the gang's last event (R347). -/
def backTrap (la : Launch) (g : Gang) (code : Nat) (s : State) (r : Nat) : State :=
  let k := (warpKey la g g.lastEv.1 g.lastEv.2.1 r).getD 0
  match (s.warp k).bind Warp.exitAt with
  | none => s
  | some (run, word) => match ctxOf s k run word with
    | none => s
    | some x => takeTrap s k { ({ x with uses := exitUses word } : Ctx).mkTrap code with
        point := 3, run := none, event := some (g.lastEv.2.2, r) }

/-- Echo's judgement of one block's write-back, before anything is written (R347): a mismatch is one of the gang's last event.
None where the signatures match. -/
def judgeBack (s : State) (l gi : Nat) (la : Launch) (g : Gang) (b : Nat) : Option State :=
  let core (r : Nat) : Nat := nth 0 (g.coresOf r) (g.lastEv.1 % la.record.gangBlocks)
  match judge (g.live.map fun r => (r, backSig s la g b r)) with
  | .agree => none
  | .dissent r => some (loseReplica (backTrap la g 0x0F s r) l gi r (core r))
  | .differ => some (failEcho (g.live.foldl (backTrap la g 0x0E) s) l gi 0x0E (g.live.map core))

/-- The blocks of a gang. -/
def gangBlockList (la : Launch) (gi : Nat) : List Nat :=
  (List.range la.record.gangBlocks).map (gi * la.record.gangBlocks + ·)

/-- The write-back of a gang's blocks, in their order (R63, R67). -/
def writeBackAll (la : Launch) (g : Gang) : State → List Nat → State × Bool
  | s, [] => (s, false)
  | s, b :: t =>
    let r := writeBack la b (windowPa la g b g.commit) s (outLines la b)
    let q := writeBackAll la g r.1 t
    (q.1, r.2 || q.2)

/-- The end of a gang all of whose blocks have done: nothing of it is written back before (R67, R365, log entry 25).  Echo judges
the write-back first, and waits until the notice of a replica that it stopped has been served. -/
def finishGang (s : State) (l gi : Nat) : State :=
  match s.gangAt l gi with
  | none => s
  | some (la, g) =>
    if !gangHere s l la gi g || awaitsClone s g || (s.warps.any fun p => g.allCores.contains (p.1 / 32) && p.2.status == .trapped) then s
    else match (gangBlockList la gi).findSome? (judgeBack s l gi la g) with
      | some s => s
      | none =>
        let r := writeBackAll la g s (gangBlockList la gi)
        let s := r.1.modGang l gi fun x => { x with skipped := x.skipped || r.2 }
        endGang (if g.relaunched then s.notify 10 [2, l, gi] [] else s) l gi

/-- A block has done (R63, R308): its chains unbind, and its gang ends with its last block. -/
def retireBlock (s : State) (l gi b : Nat) : State :=
  match s.gangAt l gi with
  | none => s
  | some (la, g) =>
    let other (p : Nat × Chain) : Bool := !(p.2.launch == l && p.2.b == b)
    let s := { s with chains := s.chains.filter other }
    let s := s.mapContexts fun c => { c with chains := c.chains.filter other }
    let s := s.modGang l gi fun x => { x with done := insNat b x.done }
    if g.done.length + 1 = la.record.gangBlocks then finishGang s l gi else s

/-- BLOCK_RETIRE (R63, R365): a block whose warps are done retires, and a gang whose blocks all have is written back; the blocks
of a gang that is over leave their cores once its warps are at rest, and nothing is written back. -/
def execBlockRetire (l b : Nat) (s : State) : Host.Outcome State Fault Refusal :=
  match s.launchOf l with
  | none => .next s
  | some la =>
    let gi := la.record.gangOf b
    match kget la.gangs gi with
    | none => .next s
    | some g =>
      if g.ended then .next s
      else if gangOver la g then (if gangAtRest s l la gi g then .next (endGang s l gi) else .next s)
      else if g.kill.isSome || g.echoFail.isSome || !g.stop.isEmpty || !g.staged then .next s
      else if g.done.contains b then (if g.done.length = la.record.gangBlocks then .next (finishGang s l gi) else .next s)
      else if !blockDone s l la g b then .next s
      else
        let ws := (liveWarps s la g b).filter fun p => !p.2.marks.isEmpty
        if !ws.isEmpty then .next (takeLateMarks s (ws.map (·.1))) else .next (retireBlock s l gi b)

/-! ## GANG_RELAUNCH (R368) -/

/-- A gang as its relaunch starts: its live replicas on the same cores, nothing done yet. -/
def Gang.fresh (g : Gang) : Gang :=
  { g with
    staged := false, failed := false, skipped := false, stop := [], kill := none, echoFail := none, relaunched := true
    done := [], echoAgain := g.echoFail.isSome, echoPast := g.echoFail, clone := none, kept := [] }

/-- GANG_RELAUNCH (R368): a gang that was killed, or failed Echo's comparison, without having published beyond itself runs
once more on the same cores from its retained record (R348). -/
def execGangRelaunch (l g : Nat) (s : State) : Host.Outcome State Fault Refusal :=
  match s.gangAt l g with
  | none => .next s
  | some (la, x) =>
    if x.ended || la.cancelled || (x.kill.isNone && x.echoFail.isNone) || !x.mayRelaunch || !gangAtRest s l la g x ||
        !gangHere s l la g x || 2 ≤ (s.partOf (s.asidOf la.asid).part).state then .next s
    else
      let cores := hereCores s l la g x
      let s := clearWarps (dropConsumers (s.notify 3 [l, g] []) l la g) cores
      let s := cores.foldl (fun s c => s.modCore c fun k => { k with tiles := [], engine := [], allocs := [] }) s
      let s := s.modGang l g Gang.fresh
      if la.stagingFault then .next s else .next (stageGang s l g)

/-! ## LAUNCH_COMPLETE (R65, R366) -/

/-- The detail of a gang that failed Echo's comparison without a relaunch that retired (R352): 0x10 when a straggler took part. -/
def Gang.echoDetail (g : Gang) : Option Nat :=
  let retired := g.kill.isNone && g.echoFail.isNone && g.stop.isEmpty && !g.failed
  match g.echoFail, g.echoPast with
  | some d, some p => some (max d p)
  | some d, none => some d
  | none, p => if retired then none else p

/-- How a gang ended: status and detail (R61, R63, R67, R348, R352, R368). -/
def gangStatus (g : Gang) : Nat × Nat :=
  match g.echoDetail, g.kill with
  | some d, _ => (2, d)
  | none, some c => (1, c)
  | none, none =>
    match g.live.filterMap (kget g.stop) with
    | v :: _ => (4, v % 256)
    | [] => if g.failed then (4, 0x86) else if g.skipped then (4, 0x87) else (0, 0)

/-- The status of a launch (R366): the first that applies, with the detail of its lowest gang. -/
def launchStatus (la : Launch) : Nat × Nat :=
  if la.cancelled then (5, 0)
  else
    let ss := la.gangs.map fun g => gangStatus g.2
    match ss.find? (·.1 == 2), ss.find? (·.1 == 1), ss.find? (·.1 == 4) with
    | some v, _, _ => v
    | none, some v, _ => v
    | none, none, some v => v
    | none, none, none => (0, 0)

/-- Nothing of a launch runs or is still to be placed (R65). -/
def launchOver (la : Launch) : Bool :=
  la.completed.isNone && (la.placedAll || la.cancelled || la.stagingFault || decide (Config.queues ≤ la.queue)) &&
  la.gangs.all fun g => g.2.ended

/-- LAUNCH_COMPLETE (R65): the completion word is written, or a sump record; a launch whose record the driver discarded
writes none (R55). -/
def execLaunchComplete (l : Nat) (s : State) : Host.Outcome State Fault Refusal :=
  match s.launchOf l with
  | none => .next s
  | some la =>
    if !launchOver la then .next s
    else if Config.queues ≤ la.queue then .next (s.modLaunch l fun x => { x with completed := some (launchStatus la) })
    else .next (finishLaunch s l (launchStatus la))

end Sys2Proof.Machine
end

