-- ==== Sys2Proof/Machine/Monitor.lean ====
section
/-! DEFINITION. The Grotto monitor: trap notices (R359 to R365), freezes and snapshots (R370), self-tests (R371), corrected
errors (R369) and late transitions (R373). -/
namespace Sys2Proof.Machine

/-! ## What a trap leads to (R363) -/

/-- The codes that may be delivered to the launch's handler (R363). -/
def deliverable (code : Nat) : Bool := decide (code ≤ 0x0C) || (decide (0x11 ≤ code) && decide (code ≤ 0x13))

/-- The gang's warps are to stop, whatever this trap is (R73, R365). -/
def gangEnding (la : Launch) (g : Gang) (rep : Nat) : Bool :=
  la.cancelled || g.kill.isSome || g.echoFail.isSome || (kget g.stop rep).isSome || !g.members.contains rep

/-- A trap is delivered (R363, R358): a handler, not in handler mode, a frame label of at most eight owners, and a lane
left to resume. -/
def delivers (la : Launch) (w : Warp) (t : Trap) : Bool :=
  deliverable t.code && la.record.trapv && w.handler.isNone && decide (t.tfl.length ≤ Config.maxOwners) && w.live != 0

/-- A warp whose trap ends its run stays stopped, with its trap on record. -/
def restWarp (s : State) (k : Nat) : State := s.modWarp k fun w => { w with status := .stopped }

/-- The cores of a core's cluster (R9). -/
def clusterOf (c : Nat) : List Nat := (List.range 4).map (c / 4 * 4 + ·)

/-- A warp told to stop for a freeze (R370): at once between clauses, else at its next clause boundary; one that was told to stop
for good does (R365). -/
def freezeWarp (w : Warp) : Warp :=
  if w.status != .running || w.live == 0 then w
  else if w.run.isNone then { w with status := if w.request = .stopped then .stopped else .frozen }
  else if w.request = .running || w.request = .preempted then { w with request := .frozen } else w

/-- The freeze of a cluster (R370). -/
def freezeCluster (s : State) (c : Nat) : State :=
  let cs := clusterOf c
  let s := cs.foldl (fun s k => s.modCore k fun q => { q with frozen := true }) s
  { s with warps := s.warps.map fun p => if cs.contains (p.1 / 32) then (p.1, freezeWarp p.2) else p }

/-- A replica that has lost a vote leaves a supervisor notice when its trap is served (R415). -/
def noticeLoss (s : State) (x : Ctx) (t : Trap) : State :=
  if x.gang.live.contains x.blk.rep then s else lossNotice s x.wk ((t.event.map (·.1)).getD 0)

/-- A notice served (R359, R363): the frame is written; DATA-DAMAGE freezes the cluster; an Echo trap has been decided by Echo;
any other trap is delivered, or its warp stays stopped and its gang stops. -/
def serveTrap (s : State) (x : Ctx) (t : Trap) : State :=
  let s := writeFrame s x.wk x.asid t
  let code := stopCode x.la x.blk.b x.w.index t.code
  if t.code = 0x0D then freezeCluster s x.core
  else if 0x0E ≤ t.code ∧ t.code ≤ 0x10 then restWarp (noticeLoss s x t) x.wk
  else if gangEnding x.la x.gang x.blk.rep then
    let s := restWarp s x.wk
    if (kget x.gang.stop x.blk.rep).isSome && deliverable t.code then
      stopReplica s x.blk.launch x.gi x.blk.rep code else s
  else if delivers x.la x.w t then deliverTrap ((bindLabel s x.asid t.tfl).getD s) x.wk t x.lr.trapent
  else stopReplica (restWarp s x.wk) x.blk.launch x.gi x.blk.rep code

/-- The cores of a cluster whose arbiters hold a notice, from the one after the core served last (R359). -/
def nextNotice (s : State) (c : Nat) : Option Nat :=
  let cs := (clusterOf c).filter fun k => !(s.core k).notices.isEmpty
  let last := aget 3 s.hub.lastCore (c / 4)
  ((List.range 4).map fun i => c / 4 * 4 + (last + 1 + i) % 4).find? (cs.contains ·)

/-- TRAP_NOTICE (R359): the cluster's monitor serves the first notice of core `c`, the next in its round. -/
def execTrapNotice (c : Nat) (s : State) : Host.Outcome State Fault Refusal :=
  match (s.core c).notices with
  | [] => .next s
  | k :: t =>
    if nextNotice s c ≠ some c then .next s
    else
      let s := s.modCore c fun q => { q with notices := t }
      let s := s.modHub fun h => { h with lastCore := aset 3 h.lastCore (c / 4) (c % 4) }
      match ctxOf s k ⟨0, 0, 0, 15, 15, []⟩ 0 with
      | none => .next s
      | some x => match x.w.trap with
        | some t => .next (serveTrap s x t)
        | none => .next s

/-! ## DAMAGE_SNAPSHOT (R370) -/

/-- The warps resident on a cluster. -/
def clusterWarps (s : State) (cs : List Nat) : List (Nat × Warp) := s.warps.filter fun p => cs.contains (p.1 / 32)

/-- A warp that stands still, its operations ended but for those that only wait. -/
def stoodStill (s : State) (p : Nat × Warp) : Bool :=
  standsStill s p && tilesAtRest s p.1 && drained s p

/-- A warp whose DATA-DAMAGE notice the monitor has served: a consuming warp. -/
def consuming (s : State) (p : Nat × Warp) : Bool :=
  p.2.status == .trapped && !(s.core (p.1 / 32)).notices.contains p.1 && (match p.2.trap with
    | some t => t.code == 0x0D
    | none => false)

/-- A label in the snapshot: how many owners it has, and the owners. -/
def labelWords (l : Label) : List Word := wd l.length :: l.map wd

/-- A rejoin register in the snapshot (R145, R370). -/
def rejoinWords (r : JReg) : List Word :=
  [zx r.expect, zx r.arrived, r.target, r.next,
    wd (b2n r.armed + 2 * b2n r.lost + 4 * b2n r.xit + 8 * b2n r.fresh + 256 * r.depth)] ++ labelWords r.region ++ labelWords r.outer

/-- A loop counter in the snapshot (R150, R370). -/
def loopWords (l : LoopCtr) : List Word := [wd l.count, wd (b2n l.active), l.first, l.last, wd l.order]

/-- The control state of a frozen warp, as the snapshot holds it (R370): PCs, flags, those of windowed tile instructions among
them, rejoin registers, loop counters. -/
def controlWords (p : Nat × Warp) : List Word :=
  wd p.1 :: ((List.range 32).map p.2.pcOf ++
    [wd (((p.2.pend ++ p.2.window).filterMap (·.flag)).foldl (fun a f => a ||| 2 ^ f) 0)] ++
    (List.range 8).flatMap (fun k => rejoinWords (p.2.rejoin k)) ++ (List.range 3).flatMap fun k => loopWords (p.2.loop k))

/-- The damaged register that a frame of kind 0 names by its number (R361). -/
def damagedReg (x : Ctx) (r : Nat) : Option Store :=
  x.w.regs.dmg.findSome? fun k =>
    if k < 4096 then (if k / 32 = r then some (.v x.slot r (k % 32)) else none)
    else if k % 4096 ≠ r then none
    else if k < 8192 then some (.g x.slot r)
    else if k < 12288 then some (.p x.slot r) else some (.m x.slot r)

/-- The storage that supplied damaged data at a Gallery address (R369): a phase buffer or the snapshot of the reading core, else
the granule at home. -/
def damagedByte (s : State) (x : Ctx) (ga : Nat) : Option (Nat × Store) :=
  (galPa x s ga 1 false).map fun pa =>
    let g := pa / 64
    if pa / 2 ^ 20 = x.core then (x.core, .granule (g % 16384))
    else match (s.warps.find? fun p => p.1 / 32 == x.core && p.2.phase.any fun e => e.gran == g && e.dmg),
        kget (s.core x.core).snapshot g with
      | some p, _ => (x.core, .phase (p.1 % 32) g)
      | none, some d => if d.dmg then (x.core, .snap g) else (pa / 2 ^ 20, .granule (g % 16384))
      | none, none => (pa / 2 ^ 20, .granule (g % 16384))

/-- The damaged accumulator word of a warp. -/
def damagedTile (s : State) (x : Ctx) : Option Store :=
  (s.core x.core).tiles.findSome? fun p => match p.2.owner with
    | some o => if o.1 = x.wk && p.2.dmgCount != 0 then
        some (.tile p.1 (p.2.dmgFirst / 2 ^ 33 % 128 * 128 + p.2.dmgFirst / 2 ^ 20 % 128)) else none
    | none => none

/-- The Gallery address at which an entry that halted with DAMAGE met it (R307): its own granule, its index list or its source;
none when the data came from main memory. -/
def entryDamage (s : State) (x : Ctx) (ga : Nat) : Option Nat :=
  (galPa x s ga 64 false).bind fun pa =>
    let ds := (List.range 8).map fun i => wd (readNum s.mem.gal (pa + 8 * i) 8)
    let fva := bits (nth 0 ds 6) 0 52
    if bits (nth 0 ds 7) 56 8 ≠ 0x15 then none
    else if granDamaged s pa then some ga
    else if (galPa x s fva 1 false).any (granDamaged s) || entKind ds == 3 || (entKind ds == 1 && bits (nth 0 ds 0) 54 2 == 0)
      then some fva else none

/-- Where the damaged word of a DATA-DAMAGE frame is (R361, R370): its core and its place there. -/
def damagedAt (s : State) (x : Ctx) (t : Trap) : Option (Nat × Store) :=
  match t.aux.toNat % 4 with
  | 0 => (damagedReg x (bits t.aux 8 6)).map fun l => (x.core, l)
  | 1 => damagedByte s x t.addr.toNat
  | 2 => if t.addr = 0 then (damagedTile s x).map fun l => (x.core, l) else damagedByte s x t.addr.toNat
  | _ => (entryDamage s x (bits t.aux 6 26 * 64)).bind (damagedByte s x)

/-- A place as the snapshot names it (R175, R370): core, then 0 with bank and row, or the file with its entry. -/
def placeWords (p : Nat × Store) : List Nat :=
  match p.2 with
  | .granule n => [p.1, 0, 4 * (n % 32), n / 32]
  | .v slot r l => [p.1, 1, slot, r, l]
  | .g slot r => [p.1, 2, slot, r]
  | .p slot r => [p.1, 3, slot, r]
  | .m slot r => [p.1, 4, slot, r]
  | .tile k e => [p.1, 5, k, e]
  | .phase slot g => [p.1, 6, slot, g]
  | .snap g => [p.1, 7, g]

/-- The snapshot of one consuming warp sent as a notice (R370), with a syndrome that the ECC gives (log entry 1), and the count
of earlier corrections at the place. -/
def sendSnapshot (s : State) (x : Ctx) (t : Trap) (cs : List Nat) : State :=
  let at_ := damagedAt s x t
  let count : Nat := (at_.map fun p => ((s.core p.1).corrected.lookup p.2).getD 0).getD 0
  let others := (clusterWarps s cs).flatMap controlWords
  (s.notify 1 ([x.core, x.slot, x.blk.launch, x.asid, x.blk.b, count] ++ (at_.map placeWords).getD [])
    (frameOf x.w ++ [Config.freeWord s.free] ++ others)).drew

/-- A consuming warp judged (R368): one of three replicas has lost a vote, else its gang is killed; a kill of a relaunch is
lasting, and the core that held the failing storage is tested (R371).  A replica that is no longer live has been judged. -/
def judgeDamage (cs : List Nat) (s : State) (k : Nat) : State :=
  match ctxOf s k ⟨0, 0, 0, 15, 15, []⟩ 0 with
  | none => s
  | some x =>
    match x.w.trap with
    | none => s
    | some t =>
      let s := restWarp (sendSnapshot s x t cs) k
      if !x.gang.live.contains x.blk.rep then s
      else if 3 ≤ x.gang.live.length then
        loseReplica (lossNotice s k x.w.events) x.blk.launch x.gi x.blk.rep x.core
      else
        let lasting := x.gang.relaunched
        let s := killGang s x.blk.launch x.gi 0x0D
        match damagedAt s x t with
        | some p => if lasting then s.modHub fun h => { h with tests := h.tests ++ [⟨[p.1], [], false, 0⟩] } else s
        | none => s

/-- What a warp is asked for besides a freeze: a stop for a pre-emption of its partition, or to be copied (R351, R376). -/
def requestOf (s : State) (k : Nat) : Status :=
  match ctxOf s k ⟨0, 0, 0, 15, 15, []⟩ 0 with
  | none => .running
  | some x =>
    if (s.partOf (x.part s)).state = 2 then .preempted
    else if x.replicated && decide (x.gang.live.length < x.lr.repl) && x.commits &&
        (List.range x.lr.repl).any (lostReplica s x.la x.gang) then .preempted
    else .running

/-- The warps of some cores that only the freeze holds go on, unchanged (R370); what a warp is asked for besides stays asked. -/
def thaw (s : State) (cs : List Nat) : State :=
  let s := cs.foldl (fun s c => s.modCore c fun k => { k with frozen := false }) s
  { s with warps := s.warps.map fun p =>
      if cs.contains (p.1 / 32) && (p.2.status == .frozen || p.2.request == .frozen) then
        (p.1, { p.2 with
          status := if p.2.status = .frozen then .running else p.2.status
          request := if p.2.request = .stopped || p.2.request = .trapped then p.2.request else requestOf s p.1 })
      else p }

/-- A core that a late transition stopped waits for its self-test (R373). -/
def awaitsTest (s : State) (c : Nat) : Bool := s.hub.tests.any fun t => t.why == 2 && t.cores.contains c

/-- DAMAGE_SNAPSHOT (R370): once cluster `k` stands still, the damage of its consuming warps is snapshot, their gangs are
killed, and every other warp goes on, but for those of a core that waits for its self-test (R373). -/
def execDamageSnapshot (k : Nat) (s : State) : Host.Outcome State Fault Refusal :=
  let cs := clusterOf (4 * k)
  let ws := clusterWarps s cs
  let eaters := (ws.filter (consuming s)).map (·.1)
  if eaters.isEmpty || !cs.any (fun c => (s.core c).frozen) || !ws.all (stoodStill s) then .next s
  else
    let s := eaters.foldl (judgeDamage cs) s
    .next (thaw s (cs.filter fun c => !awaitsTest s c))

/-! ## CORE_SELF_TEST (R348, R371) -/

/-- The trap code that a fence's kills record (R66, log entry 15): of the damage, of the mismatch, or a free one where no trap
led to it. -/
def fenceCode (s : State) (why : Nat) : Nat :=
  if why = 0 then 0x0D else if why = 1 then 0x0E else (Config.freeWord s.free).toNat % 256

/-- A core's result entered in the first of some tests that waits for it: the test as it then is, and the others. -/
def enterResult (c : Nat) (failed : Bool) : List CoreTest → Option (CoreTest × List CoreTest)
  | [] => none
  | t :: r =>
    if t.cores.contains c then
      let u := { t with
        cores := t.cores.filter (· != c), passed := if failed then t.passed else t.passed ++ [c], failed := t.failed || failed }
      some (u, if u.cores.isEmpty then r else u :: r)
    else (enterResult c failed r).map fun q => (q.1, t :: q.2)

/-- CORE_SELF_TEST (R371): a core that fails is fenced; when no core of an Echo mismatch fails, all of them are (R348); a
core that a late transition stopped and that passes goes on (log entry 15), unless its cluster is frozen for damage. -/
def execCoreSelfTest (c : Nat) (failed : Bool) (s : State) : Host.Outcome State Fault Refusal :=
  match enterResult c failed s.hub.tests with
  | none => .next s
  | some (t, r) =>
    let code := fenceCode s t.why
    let s := (s.modHub fun h => { h with tests := r }).drew
    let s := if failed then fenceCore s code c else s
    let s := if t.why = 2 && !failed && !(clusterWarps s (clusterOf c)).any (consuming s) then thaw s [c] else s
    if t.cores.isEmpty && t.why == 1 && !t.failed then .next (t.passed.foldl (fun s k => fenceCore s code k) s) else .next s

/-! ## ECC_CORRECT and LATE_TRANSITION_REPLAY -/

/-- A register word of a warp slot damaged (R369). -/
def damageReg (s : State) (c slot key : Nat) : State :=
  s.modWarp (c * 32 + slot) fun w => { w with regs := { w.regs with dmg := insNat key w.regs.dmg } }

/-- A word of a core damaged, wherever it is stored (R369). -/
def damageAt (s : State) (c : Nat) : Store → State
  | .v slot r l => damageReg s c slot (dmgKeyV r l)
  | .g slot r => damageReg s c slot (dmgKeyG r)
  | .p slot r => damageReg s c slot (dmgKeyP r)
  | .m slot r => damageReg s c slot (dmgKeyM r)
  | .tile k e => s.modCore c fun q => { q with tiles := q.tiles.map fun (p : Nat × Tile) =>
      if p.1 = k then (p.1, { p.2 with dmg := insNat e p.2.dmg }) else p }
  | .granule n => damageGranule s (c * 2 ^ 20 + n * 64)
  | .phase slot g => s.modWarp (c * 32 + slot) fun w =>
      { w with phase := w.phase.map fun e => if e.gran = g then { e with dmg := true } else e }
  | .snap g => s.modCore c fun q => { q with snapshot := q.snapshot.map fun (p : Nat × Snap) =>
      if p.1 = g then (p.1, { p.2 with dmg := true }) else p }

/-- A place that a core has. -/
def placeOk : Store → Bool
  | .v slot r l => decide (slot < 32) && decide (r < 64) && decide (l < 32)
  | .g slot r => decide (slot < 32) && decide (r < 64)
  | .p slot r => decide (slot < 32) && decide (r < 7)
  | .m slot r => decide (slot < 32) && decide (r < 8)
  | .tile k e => decide (k < 8) && decide (e < 16384)
  | .granule n => decide (n < 16384)
  | .phase slot _ => decide (slot < 32)
  | .snap _ => true

/-- ECC_CORRECT (R369): a correctable error is corrected, counted at its place and logged, with no other effect; an uncorrectable
word is damaged. -/
def execEccCorrect (c : Nat) (hit : EccHit) (s : State) : Host.Outcome State Fault Refusal :=
  if Config.cores ≤ c || !placeOk hit.loc then .next s
  else .next (if hit.bad then damageAt s c hit.loc else s.logCorrected c hit.loc)

/-- A core stops where it stands (R373). -/
def stopCore (s : State) (c : Nat) : State :=
  let s := s.modCore c fun k => { k with frozen := true }
  { s with warps := s.warps.map fun p =>
      if p.1 / 32 = c && p.2.status == .running && p.2.live != 0 then (p.1, { p.2 with status := .frozen }) else p }

/-- LATE_TRANSITION_REPLAY (R373): the cycle is replayed and counted in LATEC; a second flag on the replay is lasting: the
core stops and is to be tested (R371). -/
def execLateTransitionReplay (c : Nat) (again : Bool) (s : State) : Host.Outcome State Fault Refusal :=
  if Config.cores ≤ c then .next s
  else
    let s := s.modCore c fun k => { k with latec := k.latec + 1 }
    if again then .next ((stopCore s c).modHub fun h => { h with tests := h.tests ++ [⟨[c], [], false, 2⟩] }) else .next s

end Sys2Proof.Machine
end

