-- ==== Sys2Proof/Machine/Preempt.lean ====
section
/-! DEFINITION. Pre-emption and resumption of partitions (R241, R265, R308, R324, R345, R375 to R382, R396, R397, R410). -/
namespace Sys2Proof.Machine

/-! ## The cores of a partition -/

/-- The gangs of a partition that are placed and have not ended: launch and gang number. -/
def partGangs (s : State) (p : Nat) : List (Nat × Nat × Gang) :=
  s.launches.flatMap fun l =>
    if (s.asidOf l.2.asid).part = p then (l.2.gangs.filter fun g => !g.2.ended).map fun g => (l.1, g.1, g.2) else []

/-- The cores whose live planes hold a block of a partition. -/
def partCores (s : State) (p : Nat) : List Nat :=
  ((partGangs s p).flatMap fun g => g.2.2.allCores).filter fun c => match (s.core c).block with
    | some b => (partGangs s p).any fun g => g.1 == b.launch && g.2.2.allCores.contains c
    | none => false

/-- A context of a partition waits in some shadow planes. -/
def partMoving (s : State) (p : Nat) : Bool := s.cores.any fun c => match c.2.shadow with
  | some x => x.part == p
  | none => false

/-! ## Stopping a warp for a pre-emption (R376) -/

/-- A warp of a pre-empted partition (R376): stopped at once where it is quiescent, its rendezvous withdrawn; else it is asked to
stop at its next safe point, or, while a trap of it is being decided, when the monitor has decided. -/
def stopQuiescent (s : State) (p : Nat × Warp) : Nat × Warp :=
  if quiescent s p.1 p.2 && p.2.status == .running && p.2.live != 0 then
    (p.1, { withdrawEcho p.2 with status := .preempted, request := .running })
  else if (p.2.status == .running || p.2.status == .trapped) && p.2.request == .running then
    (p.1, { p.2 with request := .preempted })
  else p

/-- The warps of a partition's cores asked to stop (R376). -/
def stopPartition (s : State) (p : Nat) : State :=
  let cs := partCores s p
  { s with warps := s.warps.map fun q => if cs.contains (q.1 / 32) then stopQuiescent s q else q }

/-! ## Collectives of a partition (R323, R324) -/

/-- STATE of a part's completion object (R323): 0 queued, 1 running, 2 paused. -/
def Part.stateCode (q : Part) : Nat := if q.paused then 2 else if q.chunks = 0 then 0 else 1

/-- Where a part's completion object lies (R323): beyond the gang's windows in one place, else in each replica's copy, until
the gang has ended and has no window any more (log entry 16). -/
def cobjPas (s : State) (q : Part) : List Nat :=
  match q.far, commitCtx s q.launch q.b with
  | some pa, _ => [pa]
  | none, none => []
  | none, some x => if x.gang.ended then [] else ((galPa x s (collCobj q.dw) 16 true).map (copiesOf x)).getD []

/-- A completion object's bytes written in one place: its word, if it ends, then STATE and CHUNKS (R323). -/
def writeCobjAt (word : Option Nat) (state chunks : Nat) (s : State) (pa : Nat) : State :=
  let s := match word with
    | some v => homeWrite s pa (toBytes 8 v)
    | none => s
  homeWrite s (pa + 8) (toBytes 8 (state * 2 ^ 32 + chunks % 2 ^ 32))

/-- A part's completion object written (R323): its word when it ends, then STATE and CHUNKS. -/
def writeCobj (s : State) (q : Part) (word : Option Nat) (state : Nat) : State :=
  (cobjPas s q).foldl (writeCobjAt word state q.chunks) s

/-- The parts of a partition's launches paused or continued, with their STATE (R324). -/
def pauseParts (s : State) (p : Nat) (on : Bool) : State :=
  let mine (q : Part) : Bool := match s.launchOf q.launch with
    | some la => (s.asidOf la.asid).part == p && q.paused != on && q.code == 0
    | none => false
  let ps := s.hub.parcels.map fun q => if mine q then { q with paused := on } else q
  let s' := s.modHub fun h => { h with parcels := ps }
  (s.hub.parcels.filter mine).foldl (fun t q => writeCobj t { q with paused := on } none ({ q with paused := on } : Part).stateCode) s'

/-! ## PREEMPT_REQUEST and RESUME_REQUEST (R375, R397) -/

/-- A partition whose every context has left its cores is saved (R397). -/
def settleSaved (s : State) (p : Nat) : State :=
  if (s.partOf p).state = 2 && (partCores s p).isEmpty && !partMoving s p then
    s.modPart p fun q => { q with state := 3, req := 0 }
  else s

/-- A pre-emption begun (R308, R324, R376). -/
def beginStop (s : State) (p : Nat) : State :=
  let s := s.modPart p fun q => { q with state := 2, req := 1 }
  settleSaved (pauseParts (stopPartition s p) p true) p

/-- PREEMPT_REQUEST (R375, R397): a write of REQ = 1. -/
def execPreemptRequest (p : Nat) (s : State) : Host.Outcome State Fault Refusal :=
  if 64 ≤ p then .next s
  else
    let q := s.partOf p
    let s := s.modPart p fun q => { q with rej := false }
    if q.state = 4 then .next ((s.notify 5 [p] []).modPart p fun q => { q with pend := true })
    else if q.req ≠ 0 then .next (s.modPart p fun q => { q with rej := true })
    else if q.state = 3 then .next (s.notify 5 [p] [])
    else .next (beginStop (s.notify 5 [p] []) p)

/-! ## CORE_SWAP (R378 to R380) -/

/-- A warp stands where its context can be saved (R376, R379). -/
def swappable (s : State) (p : Nat × Warp) : Bool :=
  (p.2.live == 0 || p.2.status == .preempted || p.2.status == .stopped || p.2.status == .halted || quiescent s p.1 p.2) &&
  p.2.status != .trapped && p.2.status != .frozen && p.2.trap.isNone || p.2.status == .stopped

/-- The registers that a live descriptor names (R24, R378). -/
def keepLive (q : WRegs) (d : BitVec 32) : WRegs :=
  let nv := (field d 25 7).toNat
  let ng := (field d 18 7).toNat
  { q with
    v := q.v.filter fun p => decide (p.1 / 32 < nv)
    vl := q.vl.filter fun p => decide (p.1 / 32 < nv)
    g := q.g.filter fun p => decide (p.1 < ng)
    gl := q.gl.filter fun p => decide (p.1 < ng)
    p := q.p.filter fun p => d.getLsbD (10 + p.1)
    pl := q.pl.filter fun p => d.getLsbD (10 + p.1 / 32)
    m := [], ml := []
    dmg := q.dmg.filter fun k => if k < 4096 then decide (k / 32 < nv) else if k < 8192 then decide (k - 4096 < ng)
      else if k < 12288 then d.getLsbD (10 + (k - 8192)) else false }

/-- The live descriptor of a warp's next clause, when it is a safe point. -/
def nextDesc (s : State) (p : Nat × Warp) : Option (BitVec 32) :=
  match p.2.group, ctxOf s p.1 ⟨0, 0, 0, 15, 15, []⟩ 0 with
  | some g, some x => match decodeClause s x.asid g.1 with
    | .ok c => if c.safe then some c.desc else none
    | .error _ => none
  | _, _ => none

/-- A warp as it is saved (R378): one that stopped converged at a safe point, only what the live descriptor names and its
control state; else everything. -/
def savedWarp (s : State) (p : Nat × Warp) : Nat × Warp :=
  let w := withdrawEcho p.2
  let w := if w.status = .running && w.live != 0 then { w with status := .preempted, request := .running } else w
  match if w.status = .preempted && w.atSafe then nextDesc s p else none with
  | some d => (p.1, { w with regs := keepLive w.regs d })
  | none => (p.1, w)

/-- A physical address lies in a core's slice. -/
def inSlice (c pa : Nat) : Bool := pa / 2 ^ 20 == c

/-- The context of a core's live planes (R380). -/
def liveContext (s : State) (p c : Nat) : Context :=
  let k := s.core c
  { part := p, block := k.block
    warps := (s.warps.filter fun q => q.1 / 32 == c).map (savedWarp s)
    gal := s.mem.gal.filter fun q => inSlice c q.1
    glab := s.mem.glab.filter fun q => inSlice c (q.1 * 64)
    tiles := k.tiles, dmg := k.dmg, engine := k.engine
    rings := (s.rings.filter fun q => inSlice c q.1).map fun q => (q.1, { q.2 with waiting := [] })
    chains := s.chains.filter fun q => inSlice c q.1
    haltAt := s.haltAt.filter fun q => inSlice c q.1
    sealedBy := none }

/-- What the live planes of a core hold beside its own fields left to the exchange (R380). -/
def clearPlanes (s : State) (c : Nat) : State :=
  { s with
    mem := { s.mem with
      gal := s.mem.gal.filter fun q => !inSlice c q.1
      glab := s.mem.glab.filter fun q => !inSlice c (q.1 * 64) }
    warps := s.warps.filter fun q => q.1 / 32 != c
    rings := s.rings.filter fun q => !inSlice c q.1
    chains := s.chains.filter fun q => !inSlice c q.1
    haltAt := s.haltAt.filter fun q => !inSlice c q.1 }

/-- The live planes of a core emptied: its context has gone to the shadow planes, and its snapshot is discarded (R380). -/
def emptyCore (s : State) (c : Nat) : State :=
  (clearPlanes (withdrawWaits s [c]) c).modCore c fun k => { k with block := none, tiles := [], dmg := [], engine := [], allocs := [], snapshot := [] }

/-- The partition of the block on a core's live planes. -/
def partOn (s : State) (c : Nat) : Option Nat :=
  (s.core c).block.bind fun b => (s.launchOf b.launch).map fun la => (s.asidOf la.asid).part

/-- The chains of a partition stand at chunk boundaries (R308): no delivery has begun. -/
def chainsPaused (s : State) (p : Nat) : Bool :=
  s.chains.all fun c => !c.2.entries.any (·.filling) || (s.launchOf c.2.launch).any fun la => (s.asidOf la.asid).part != p

/-- A core of partition `p` may swap out (R379): its warps stand still, its matrix engine has executed everything but withdrawn
work, its windows are empty, the partition's chains have paused, and its last outgoing context has been moved. -/
def maySwap (s : State) (p c : Nat) : Bool :=
  let ws := s.warps.filter fun p => p.1 / 32 == c
  let k := s.core c
  ws.all (fun p => swappable s p && drained s p && p.2.window.isEmpty) && k.notices.isEmpty &&
  k.engine.all (fun u => k.allocs.contains u.warp) && k.shadow.isNone && !k.frozen && chainsPaused s p

/-- CORE_SWAP (R379, R380): a core of a stopping partition exchanges its planes; windows that still hold tile instructions
are flushed first. -/
def execCoreSwap (c : Nat) (s : State) : Host.Outcome State Fault Refusal :=
  match partOn s c with
  | none => .next s
  | some p =>
    if (s.partOf p).state ≠ 2 then .next s
    else
      let full := (s.warps.filter fun q => q.1 / 32 == c && !q.2.window.isEmpty && swappable s q).map (·.1)
      if !full.isEmpty then .next (full.foldl flushWindow s)
      else if !maySwap s p c then .next s
      else
        let x := liveContext s p c
        .next ((emptyCore s c).modCore c fun k => { k with shadow := some x, moving := true })

/-! ## CONTEXT_SAVE_MOVE (R380, R410) -/

/-- The ASID of a context's block. -/
def contextAsid (s : State) (x : Context) : Nat :=
  ((x.block.bind fun b => s.launchOf b.launch).map (·.asid)).getD 0

/-- CONTEXT_SAVE_MOVE (R380): the outgoing context reaches the save area, sealed when its ASID holds a context key; the
partition is saved with its last context. -/
def execContextSaveMove (c : Nat) (s : State) : Host.Outcome State Fault Refusal :=
  let k := s.core c
  match k.shadow with
  | none => .next s
  | some x =>
    if !k.moving then .next s
    else
      let a := contextAsid s x
      let key := (s.asidOf a).key.isSome
      let x := { x with sealedBy := if key then some (s.asidOf a).saves else none }
      let s := if key then s.modAsid a fun q => { q with saves := (q.saves + 1) % 2 ^ 64 } else s
      let s := s.modCore c fun q => { q with shadow := none, moving := false }
      .next (settleSaved (s.modPart x.part fun q => { q with saved := kset q.saved c x }) x.part)

/-! ## Resumption (R381, R382) -/

/-- A withdrawn ring operation of warp `x` issued again (R241, R381): it takes its place at the ring, or is marked where its
checks of the ring fail now (R239, R240, R249). -/
def retakeRing (x : Ctx) (s : State) (p : Pend) (l : LaneOp) (push : Bool) : State :=
  match rejoinRing x s p l push p.id with
  | .ok s => s
  | .error m => s.modWarp x.wk fun w => w.markPend p m

/-- A withdrawn operation taken up again (R241, R377, R381): a push or a pop at its ring, a LAUNCH at its queue. -/
def retake (x : Ctx) (s : State) (p : Pend) : State :=
  if p.stage ≠ 0 then s
  else match p.work with
    | .push _ l => retakeRing x s p l true
    | .pop _ _ l => retakeRing x s p l false
    | .launch _ q _ _ => s.setQueue q { s.queue q with waiting := (s.queue q).waiting ++ [(x.wk, p.id)] }
    | _ => s

/-- A warp that a resume finds (R381): its parked groups wake, and one that was stopped for the pre-emption goes on. -/
def Warp.resumed (w : Warp) : Warp :=
  let w := w.wakeAll
  if w.status = .preempted then { w with status := .running, request := .running, atSafe := false } else w

/-- A warp of a resumed partition (R381): it goes on, and its withdrawn operations are issued again, those too of a warp that is
halted or has exited.  Nothing of a gang that is to end does. -/
def resumeWarp (s : State) (p : Nat × Warp) : State :=
  match ctxOf s p.1 ⟨0, 0, 0, 15, 15, []⟩ 0 with
  | none => s
  | some x =>
    if (p.2.status = .stopped && x.gang.live.contains x.blk.rep) || gangEnding x.la x.gang x.blk.rep then
      s.setWarp p.1 p.2.resumed
    else p.2.pend.foldl (retake x) (s.setWarp p.1 p.2.resumed)

/-- A partition whose every core has been loaded runs again (R381, R397); a pre-emption that waited follows (R375). -/
def settleResumed (s : State) (p : Nat) : State :=
  let q := s.partOf p
  if q.state = 4 && q.saved.isEmpty then
    let cs := partCores s p
    let s := s.modPart p fun q => { q with state := if cs.isEmpty then 0 else 1, req := 0, pend := false }
    let s := (s.warps.filter fun w => cs.contains (w.1 / 32)).foldl resumeWarp s
    let s := pauseParts s p false
    if q.pend then beginStop s p else s
  else s

/-- RESUME_REQUEST (R381, R397): a write of REQ = 2, accepted only from STATE 3. -/
def execResumeRequest (p : Nat) (s : State) : Host.Outcome State Fault Refusal :=
  if 64 ≤ p then .next s
  else
    let q := s.partOf p
    let s := s.modPart p fun q => { q with rej := false }
    if q.req ≠ 0 || q.state ≠ 3 then .next (s.modPart p fun q => { q with rej := true })
    else .next (settleResumed ((s.notify 6 [p] []).modPart p fun q => { q with state := 4, req := 2 }) p)

/-- Two collections of distinct keys as one. -/
def mergeTab {β : Type} (t u : Tab β) : Tab β := u.foldl (fun t p => kset t p.1 p.2) t

/-- A context loaded into a core's shadow planes and swapped in (R380, R381): nothing stays of what stood in the live ones. -/
def loadContext (s : State) (c : Nat) (x : Context) : State :=
  let s := clearPlanes s c
  let s := { s with
    mem := { s.mem with gal := mergeTab s.mem.gal x.gal, glab := mergeTab s.mem.glab x.glab }
    warps := mergeTab s.warps x.warps
    rings := mergeTab s.rings x.rings
    chains := mergeTab s.chains x.chains
    haltAt := mergeTab s.haltAt x.haltAt }
  s.modCore c fun k => { k with
    block := x.block, tiles := x.tiles, dmg := x.dmg, engine := x.engine, allocs := [], snapshot := [] }

/-- A context whose tag differs (R410): the gang of its block is killed, not to be relaunched, and a notice goes to the
supervisor. -/
def dropContext (s : State) (c : Nat) (x : Context) : State :=
  let s := s.notify 9 [x.part, c] []
  match x.block with
  | none => s
  | some b => match s.launchOf b.launch with
    | none => s
    | some la =>
      let gi := la.record.gangOf b.b
      (killGang s b.launch gi 0x0D).modGang b.launch gi fun g => { g with relaunched := true }

/-- A partition that is being pre-empted has taken its context from a core, and has not been saved yet (R382). -/
def stillSaving (s : State) (c : Nat) : Bool := s.hub.parts.any fun q => q.2.state == 2 && (kget q.2.saved c).isSome

/-- CONTEXT_RESUME_LOAD (R381, R382, R410): the context of core `c` of a resuming partition, once the core is free and the
partition of the block that was on it has been saved; `tagOk` says what the check of a sealed context finds. -/
def execContextResumeLoad (p c : Nat) (tagOk : Bool) (s : State) : Host.Outcome State Fault Refusal :=
  match kget (s.partOf p).saved c with
  | none => .next s
  | some x =>
    let k := s.core c
    if (s.partOf p).state ≠ 4 || k.block.isSome || k.shadow.isSome || k.fenced || stillSaving s c then .next s
    else
      let t := s.modPart p fun q => { q with saved := kdel q.saved c }
      if x.sealedBy.isSome && !tagOk then .next (settleResumed (dropContext t c x) p)
      else .next (settleResumed (loadContext t c x) p)

end Sys2Proof.Machine
end

