-- ==== Sys2Proof/Machine/Collective.lean ====
section
/-! DEFINITION. The collective engines (R318 to R324): which collective takes its next chunk, the reduction of a chunk, its
delivery, and the ends of a part. -/
namespace Sys2Proof.Machine

/-! ## Parts -/

/-- Element size of a data type (R319). -/
def dtSize (dt : Nat) : Nat := if dt ≤ 2 then 4 else if dt ≤ 4 then 8 else 1

/-- Bytes of a rank's SRC (R319). -/
def srcBytes (ds : List Word) : Nat := collCount ds * dtSize (collDt ds)

/-- Bytes of one chunk (R322). -/
def collChunk : Nat := 65536

/-- The chunks of a collective (R322). -/
def collChunks (ds : List Word) : Nat := (srcBytes ds + collChunk - 1) / collChunk

/-- Two parts agree in the fields that must not differ (R320). -/
def partsAgree (a b : List Word) : Bool :=
  collOp a == collOp b && collDt a == collDt b && collRop a == collRop b && collRoot a == collRoot b &&
  collCount a == collCount b && collCseq a == collCseq b

/-- A rank's part replaced in the engine's list. -/
def setPart (s : State) (q : Part) : State :=
  s.modHub fun h => { h with parcels := h.parcels.map fun r =>
    if r.comm = q.comm && r.rank = q.rank && r.index = q.index then q else r }

/-- A chunk's input that a part has yet to receive (R322). -/
def inputNeeded (qs : List Part) (i : ChunkInput) : Bool :=
  qs.any fun q => q.comm == i.comm && q.index == i.index && q.code == 0 && decide (q.chunks ≤ i.chunk)

/-- A collective all of whose parts have ended leaves the engines, and so does an input that no part needs any more. -/
def sweepParts (s : State) (n k : Nat) : State :=
  let mine (q : Part) : Bool := q.comm == n && q.index == k
  let qs := s.hub.parcels.filter mine
  s.modHub fun h =>
    let ps := if (s.comm n).nrank ≤ qs.length && qs.all (·.code != 0) then h.parcels.filter fun q => !mine q else h.parcels
    { h with parcels := ps, inputs := h.inputs.filter (inputNeeded ps) }

/-- A part ended with a code (R323, R324): 1 completes with SEQ = CSEQ; any other is its HALT, with the command recorded for
WAITSEQ (R361). -/
def endPart (s : State) (q : Part) (code : Nat) (bad : Option (Label × Label)) : State :=
  let q := { q with code := code }
  let s := setPart s q
  if code = 1 then writeCobj s q (some (cwordOf 0 (collCseq q.dw))) 3
  else
    let s := { s with haltAt := (cobjPas s q).foldl (fun t pa => kset t pa (q.cmd, bad)) s.haltAt }
    writeCobj s q (some (cwordOf code 0)) 3

/-! ## Which collective is next (R320, R322) -/

/-- A part's launch has been cancelled. -/
def partCancelled (s : State) (q : Part) : Bool :=
  match s.launchOf q.launch with
  | some la => la.cancelled
  | none => false

/-- The numbers of a communicator's collectives that a cancellation has reached (R324). -/
def deadIndexes (s : State) (n : Nat) : List Nat :=
  (s.hub.parcels.filter fun q => q.comm == n && ((q.code == 0 && partCancelled s q) || q.code == 0x19)).map (·.index)

/-- The parts that a cancellation ends now, at a chunk boundary; a paused one ends when it goes on. -/
def cancelParts (s : State) (n : Nat) : List Part :=
  let dead := deadIndexes s n
  s.hub.parcels.filter fun q => q.comm == n && q.code == 0 && !q.paused && dead.contains q.index

/-- The parts of the lowest-numbered collective that a communicator has not ended (R320). -/
def currentParts (s : State) (n : Nat) : List Part :=
  let ps := s.hub.parcels.filter (·.comm == n)
  match ps.map (·.index) with
  | [] => []
  | i :: t =>
    let k := t.foldl min i
    ps.filter (·.index == k)

/-- The kept input of the chunk that a part receives next, per contributing rank. -/
def inputOf (s : State) (q : Part) : Option (List (List (List Byte × Label))) :=
  (s.hub.inputs.find? fun i => i.comm == q.comm && i.index == q.index && i.chunk == q.chunks).map (·.lines)

/-- The collective engine of die `d` has a ready chunk of communicator `n` (R322): every rank's part has come, and none of the
engine's own is paused or cancelled; the input is there, or can come since no rank is paused (R324).  RESV of at least two
units holds a chunk's buffers. -/
def collReady (s : State) (d n : Nat) : Bool :=
  let qs := currentParts s n
  let mine := qs.filter fun q => q.code == 0 && q.die == d
  (s.comm n).valid && decide ((s.comm n).nrank ≤ qs.length) && !mine.isEmpty && mine.all (!·.paused) &&
  (qs.all (fun q => !q.paused || q.code != 0) || mine.all fun q => (inputOf s q).isSome) &&
  !(qs.any fun q => (deadIndexes s n).contains q.index)

/-- The communicator that the engine of die `d` serves next (R322): of the ready ones the highest PRIO, round-robin in
increasing number. -/
def nextComm (s : State) (d : Nat) : Option Nat :=
  let ready := (List.range 64).filter (collReady s d)
  let top := (ready.map fun n => (s.comm n).prio).foldl max 0
  let best := ready.filter fun n => (s.comm n).prio == top
  let last := aget 63 s.hub.lastComm d
  ((best.filter (last < ·)) ++ best.filter (· ≤ last)).head?

/-- The dies whose collective engines serve communicator `n` next. -/
def serving (s : State) (n : Nat) : List Nat := (List.range 4).filter fun d => nextComm s d == some n

/-! ## The values of a chunk (R321) -/

/-- One rank's line of SRC: its bytes and label. -/
abbrev SrcLine := List Byte × Label

/-- A line of a rank's SRC (R221, R321): a denied line is zero and public, and leaves a sump record, whose GSEQ is not stated: a
free value, the same on every run (R2, log entry 1); a line that is not mapped or is damaged gives a code. -/
def readSrc (s : State) (q : Part) (la : Launch) (va n : Nat) : State × Except Nat SrcLine :=
  let prin := nth 0 la.record.prins (collPidx q.dw) % 2 ^ 24
  match translate s la.asid va with
  | none => (s, .error 0x10)
  | some p =>
    if !aclAllows s la.asid prin p.2.tag then
      (sumpRecord s la.asid 1 va prin p.2.tag.toNat q.b (Config.fixedWord (wd va :: q.dw)).toNat, .ok (List.replicate n 0, []))
    else if contained s p.1 then (s, .error 0x15)
    else (s, .ok (readBytes s.mem.dram p.1 n, tagLabel s la.asid p.2.tag))

/-- The addresses and lengths of the lines of chunk `i` of SRC. -/
def chunkLines (ds : List Word) (i : Nat) : List (Nat × Nat) :=
  let n := min collChunk (srcBytes ds - collChunk * i)
  (List.range ((n + 63) / 64)).map fun j => (collChunk * i + 64 * j, min 64 (n - 64 * j))

/-- Lines of a rank's SRC read in order; the first that fails gives its code. -/
def readLines (q : Part) (la : Launch) : State → List (Nat × Nat) → State × Except Nat (List SrcLine)
  | s, [] => (s, .ok [])
  | s, p :: t =>
    let r := readSrc s q la ((nth 0 q.dw 1).toNat + p.1) p.2
    match r.2 with
    | .error c => (r.1, .error c)
    | .ok l =>
      let u := readLines q la r.1 t
      (u.1, u.2.map (l :: ·))

/-- One element reduced over the ranks (R117, R118, R124, R321), R120). -/
def reduceElem (dt rop : Nat) (xs : List Nat) : Nat :=
  let n := 8 * dtSize dt
  match dt, rop, xs with
  | _, _, [] => 0
  | 0, 0, xs => wfxRead (xs.foldl wfxAdd 0)
  | 0, _, x :: t => canonF fp32 (t.foldl (minmaxF fp32 (rop == 2)) x)
  | _, 0, xs => xs.foldl (· + ·) 0 % 2 ^ n
  | _, 1, x :: t => t.foldl (fun a b => if (if dt = 1 || dt = 3 then decide (sval n b < sval n a) else decide (b < a))
      then b else a) x
  | _, _, x :: t => t.foldl (fun a b => if (if dt = 1 || dt = 3 then decide (sval n a < sval n b) else decide (a < b))
      then b else a) x

/-- A line reduced element by element over the ranks' lines. -/
def reduceLine (dt rop : Nat) (ls : List (List Byte)) (n : Nat) : List Byte :=
  let k := dtSize dt
  (List.range (n / k)).flatMap fun j => toBytes k (reduceElem dt rop (ls.map fun l => numAt l (k * j) k))

/-- What a rank receives (R321): the offset in its DST, the bytes and the label of every line. -/
def delivered (op : Nat) (ds : List Word) (i : Nat) (srcs : List (List SrcLine)) : List (Nat × List Byte × Label) :=
  let lines := chunkLines ds i
  let at_ (l : List SrcLine) (j : Nat) : SrcLine := nth ([], []) l j
  if op = 4 then
    srcs.zipIdx.flatMap fun r => lines.zipIdx.map fun p =>
      (r.2 * srcBytes ds + p.1.1, (at_ r.1 p.2).1, (at_ r.1 p.2).2)
  else if op = 3 then lines.zipIdx.map fun p => (p.1.1, (at_ (nth [] srcs 0) p.2).1, (at_ (nth [] srcs 0) p.2).2)
  else lines.zipIdx.map fun p =>
    (p.1.1, reduceLine (collDt ds) (collRop ds) (srcs.map fun l => (at_ l p.2).1) p.1.2,
      joinAll (srcs.map fun l => (at_ l p.2).2))

/-! ## Delivery (R321) -/

/-- Every piece of a delivery translated and checked (R305, R321): the physical pieces and the bytes. -/
def checkDelivery (x : Ctx) (s : State) (q : Part) (vs : List (Nat × List Byte × Label)) :
    Except Halt (List (List (Nat × Nat) × List Byte)) :=
  vs.mapM fun v => do
    let need := joinL v.2.2 q.lab
    let ps ← dramPieces x s ((nth 0 q.dw 2).toNat + v.1) v.2.1.length true
    ps.forM fun p => checkFlow q.cmd ((nth 0 q.dw 2).toNat + v.1) (tagLabel s x.asid p.2.2.tag) need
    .ok (ps.map fun p => (p.1, p.2.1), v.2.1)

/-- A chunk delivered to one rank: its writes, its progress, and its end after the last chunk; a failed check ends the part
alone (R321, log entry 18). -/
def deliverTo (q : Part) (c : Except Halt (List (List (Nat × Nat) × List Byte))) (s : State) : State :=
  match c with
  | .error h => endPart s q h.code h.bad
  | .ok ws =>
    let s := ws.foldl (fun s w => writePieces writeDramPa s w.1 w.2) s
    let q := { q with chunks := q.chunks + 1 }
    if q.chunks < collChunks q.dw then writeCobj (setPart s q) q none 1 else endPart s q 1 none

/-- A rank receives results: every rank but in a REDUCE, where the root alone does. -/
def receives (q : Part) : Bool := collOp q.dw != 2 || q.rank == collRoot q.dw

/-- A rank contributes: every rank but in a BCAST, where the root alone does. -/
def contributes (q : Part) : Bool := collOp q.dw != 3 || q.rank == collRoot q.dw

/-- The lines of every contributing rank, in rank order. -/
def gather (s : State) (i : Nat) : List Part → State × Except Nat (List (List SrcLine))
  | [] => (s, .ok [])
  | q :: t =>
    if !contributes q then gather s i t
    else match s.launchOf q.launch with
      | none => (s, .error 0x10)
      | some la =>
        let r := readLines q la s (chunkLines q.dw i)
        match r.2 with
        | .error c => (r.1, .error c)
        | .ok l =>
          let u := gather r.1 i t
          (u.1, u.2.map (l :: ·))

/-- The parts of a collective in rank order. -/
def byRank (qs : List Part) : List Part := (List.range 64).flatMap fun r => qs.filter (·.rank == r)

/-- The input of a chunk: kept since the first engine took the chunk, or gathered now and kept. -/
def takeInput (s : State) (q : Part) (qs : List Part) : State × Except Nat (List (List SrcLine)) :=
  match inputOf s q with
  | some l => (s, .ok l)
  | none =>
    let r := gather s q.chunks (byRank qs)
    match r.2 with
    | .ok l => (r.1.modHub fun h => { h with inputs := h.inputs ++ [⟨q.comm, q.index, q.chunks, l⟩] }, .ok l)
    | .error c => (r.1, .error c)

/-- What a part receives of a chunk, checked (R305, R321). -/
def planOf (s : State) (vs : List (Nat × List Byte × Label)) (q : Part) :
    Except Halt (List (List (Nat × Nat) × List Byte)) :=
  if !receives q then .ok [] else
    match commitCtx s q.launch q.b with
    | some x => checkDelivery x s q vs
    | none => .ok []

/-- Some parts end with one code. -/
def endAll (s : State) (code : Nat) (qs : List Part) : State := qs.foldl (fun s q => endPart s q code none) s

/-- A join over eight owners (R321). -/
def exhausted {α : Type} : Except Halt α → Bool
  | .error h => h.code == 0x17
  | .ok _ => false

/-- Chunk `i` of a communicator's collective on the engines of some dies (R321): every read before any write, and every check
before the first write. -/
def chunkOn (n : Nat) (ds : List Nat) (s : State) (i : Nat) : State :=
  let qs := currentParts s n
  let live := qs.filter (·.code == 0)
  let mine := live.filter fun q => q.chunks == i && ds.contains q.die
  match mine with
  | [] => s
  | q0 :: _ =>
    let r := takeInput s q0 qs
    match r.2 with
    | .error c => endAll r.1 c live
    | .ok srcs =>
      let vs := delivered (collOp q0.dw) q0.dw i srcs
      if live.any fun q => exhausted (planOf r.1 vs q) then endAll r.1 0x17 live
      else (mine.map fun q => (q, planOf r.1 vs q)).foldl (fun s p => deliverTo p.1 p.2 s) r.1

/-- COLLECTIVE_CHUNK (R322): communicator `comm` ends what a cancellation has reached, or, on the engines that serve it next,
its collective takes a chunk or ends with MISMATCH (R320). -/
def execCollectiveChunk (comm : Nat) (s : State) : Host.Outcome State Fault Refusal :=
  let cs := cancelParts s comm
  if !cs.isEmpty then
    .next ((cs.map (·.index)).foldl (fun s k => sweepParts s comm k) (cs.foldl (fun s q => endPart s q 0x19 none) s))
  else
    let ds := serving s comm
    if ds.isEmpty then .next s
    else
      let qs := currentParts s comm
      let q0 := qs.headD Part.zero
      let s := s.modHub fun h => { h with lastComm := ds.foldl (fun t d => aset 63 t d comm) h.lastComm }
      let s := if !qs.all (fun q => partsAgree q0.dw q.dw) then endAll s 0x18 qs
        else (((qs.filter fun q => q.code == 0 && ds.contains q.die).map (·.chunks)).foldl (fun t i => insNat i t) []).foldl
          (chunkOn comm ds) s
      .next (sweepParts s comm q0.index)

end Sys2Proof.Machine
end

