-- ==== Sys2Proof/Machine/Control.lean ====
section
/-! DEFINITION. The control class (R158 to R171): branches, calls, rejoin registers, hardware loops, PARK, YIELD, EXIT
and NOP. -/
namespace Sys2Proof.Machine

/-! ## Shared operations -/

/-- The join of the guard labels of every lane of the group, whether or not its guard is true (R144). -/
def guardLabel (x : Ctx) (p : Nat) : Label := joinAll ((lanesOf x.grp).map (x.w.regs.labP p))

/-- The active lanes of a guarded control instruction: P[p] xor N (R15). -/
def guarded (x : Ctx) (n : BitVec 1) (p : BitVec 3) : Mask :=
  x.grp &&& (if n = 1#1 then ~~~(x.w.regs.getP p.toNat) else x.w.regs.getP p.toNat)

/-- The active lanes of a guarded control instruction in the state it issues in. -/
def guardedLanes (s : State) (n : BitVec 1) (p : BitVec 3) : Mask :=
  match issuerOf s with
  | none => 0
  | some x => guarded x n p

/-- The check of R144 against a label: LABEL-BRANCH for the group when it does not dominate the join. -/
def checkBranch (x : Ctx) (s : State) (must src : Label) (addr : Word) : Except Stop Unit :=
  if dominates must src then .ok () else x.trapL s 0x04 x.grp addr src must

/-- Lanes moved to new PCs. -/
def moveLanes (s : State) (k : Nat) (ms : List (Mask × Word)) : State :=
  s.modWarp k fun w => { w with pc := ms.foldl (fun q m => setPcs q m.1 m.2) w.pc }

/-- A transfer: the targets of the lanes that take it are checked before any lane moves (R143); the others go to the
next clause. -/
def transfer (x : Ctx) (s : State) (computed : Bool) (taken : List (Mask × Word)) : Except Stop State := do
  checkTargets x s computed taken
  let m := taken.foldl (fun a p => a ||| p.1) 0
  .ok (moveLanes s x.wk (taken ++ [(x.grp &&& ~~~m, x.pc + 4)]))

/-- The target of an encoded offset, in words (R22). -/
def offTarget {n : Nat} (x : Ctx) (o : BitVec n) : Word := x.pc + sx o * 4

/-- The check that the warp is converged (R152). -/
def checkConverged (x : Ctx) (s : State) : Except Stop Unit :=
  if x.w.live &&& ~~~x.grp = 0 then .ok () else x.trapG s 0x02

/-! ## Branches -/

/-- BRA with a guard (R158): the lanes whose guard holds go to the target. -/
def execBra (n : BitVec 1) (p j : BitVec 3) (o : BitVec 16) (s : State) : Host.Outcome State Fault Refusal :=
  issueMove (.bra n p j o) { rp := [p.toNat] } (guardedLanes s n p) (fun x s => do
    let r := x.w.rejoin j.toNat
    if !r.armed || x.grp &&& ~~~r.expect ≠ 0 then x.trapG s 0x02
    else
      checkBranch x s r.region (guardLabel x p.toNat) 0
      transfer x s false [(guarded x n p, offTarget x o)]) s

/-- BRA without a guard (R158): every lane of the group goes to the target. -/
def execBraUncond (o : BitVec 16) (s : State) : Host.Outcome State Fault Refusal :=
  issueMove (.braUncond o) {} 0 (fun x s => transfer x s false [(x.grp, offTarget x o)]) s

/-- The uniform branch of BRU and BRUZ (R159). -/
def uniformBranch (i : Instr) (a : BitVec 6) (o : BitVec 16) (sense : Bool) (s : State) :
    Host.Outcome State Fault Refusal :=
  issueMove i { rg := [a.toNat] } 0 (fun x s => do
    checkBranch x s x.wcl (x.w.regs.labG a.toNat) 0
    let taken := (x.w.regs.getG a.toNat != 0) == sense
    transfer x s false (if taken then [(x.grp, offTarget x o)] else [])) s

/-- BRU (R159): to the target when Ga is not zero. -/
def execBru (a : BitVec 6) (o : BitVec 16) (s : State) : Host.Outcome State Fault Refusal :=
  uniformBranch (.bru a o) a o true s

/-- BRUZ (R159): to the target when Ga is zero. -/
def execBruz (a : BitVec 6) (o : BitVec 16) (s : State) : Host.Outcome State Fault Refusal :=
  uniformBranch (.bruz a o) a o false s

/-- BRX (R160): every lane to the address in Ga. -/
def execBrx (a : BitVec 6) (s : State) : Host.Outcome State Fault Refusal :=
  issueMove (.brx a) { rg := [a.toNat] } 0 (fun x s => do
    checkBranch x s x.wcl (x.w.regs.labG a.toNat) (x.w.regs.getG a.toNat)
    transfer x s true [(x.grp, x.w.regs.getG a.toNat)]) s

/-! ## Calls -/

/-- The effect of a call (R161): the active lanes' link registers receive the next clause's address with label WCL, and
they go to the target. -/
def callTo (x : Ctx) (s : State) (computed : Bool) (act : Mask) (v : BitVec 6) (t : Word) : Except Stop State := do
  let s ← transfer x s computed [(act, t)]
  .ok (s.modWarp x.wk fun w => { w with
    regs := (lanesOf act).foldl (fun q l => q.setV v.toNat l (x.pc + 4) x.wcl) w.regs })

/-- CALL (R161). -/
def execCall (n : BitVec 1) (p : BitVec 3) (v : BitVec 6) (o : BitVec 13) (s : State) :
    Host.Outcome State Fault Refusal :=
  issueMove (.call n p v o) { rp := [p.toNat], wv := [v.toNat] } (guardedLanes s n p) (fun x s => do
    checkBranch x s x.wcl (guardLabel x p.toNat) 0
    callTo x s false (guarded x n p) v (offTarget x o)) s

/-- CALLX (R161): the target is in Ga. -/
def execCallx (n : BitVec 1) (p : BitVec 3) (v a : BitVec 6) (s : State) : Host.Outcome State Fault Refusal :=
  issueMove (.callx n p v a) { rg := [a.toNat], rp := [p.toNat], wv := [v.toNat] } (guardedLanes s n p) (fun x s => do
    checkBranch x s x.wcl (joinL (guardLabel x p.toNat) (x.w.regs.labG a.toNat)) (x.w.regs.getG a.toNat)
    callTo x s true (guarded x n p) v (x.w.regs.getG a.toNat)) s

/-- RET (R162): each active lane to the address in its Va. -/
def execRet (n : BitVec 1) (p : BitVec 3) (v : BitVec 6) (s : State) : Host.Outcome State Fault Refusal :=
  issueMove (.ret n p v) { rv := [v.toNat], rp := [p.toNat] } (guardedLanes s n p) (fun x s => do
    let act := guarded x n p
    checkBranch x s x.wcl (joinAll (guardLabel x p.toNat :: (lanesOf act).map (x.w.regs.labV v.toNat))) 0
    transfer x s true ((lanesOf act).map fun l => (laneBit l, x.w.regs.getV v.toNat l))) s

/-! ## Rejoin registers -/

/-- How many rejoin registers are armed (R146). -/
def armedCount (w : Warp) : Nat := ((List.range 8).filter fun k => (w.rejoin k).armed).length

/-- JSET (R163): arms Jn for the group and raises WCL by the region label. -/
def execJset (z : Bool) (j : BitVec 3) (a : BitVec 6) (o : BitVec 14) (s : State) : Host.Outcome State Fault Refusal :=
  issue (.jset z j a o) { rg := [a.toNat] } 0 (fun x s =>
    let v := x.w.regs.getG a.toNat
    if (x.w.rejoin j.toNat).armed || decide (o.toInt ≤ 0) || bits v 12 52 != 0 then x.trapG s 0x02
    else match setOf (x.labels s) (bits v 0 12) with
      | none => x.trapG s 0x02
      | some l =>
        let r := joinL l (x.w.regs.labG a.toNat)
        let wcl := joinL x.wcl r
        match bindLabels s x.asid [r, wcl] with
        | none => x.trapG s 0x07
        | some s => .ok (s.modWarp x.wk fun w =>
          { w.setRejoin j.toNat ⟨x.grp, 0, true, false, false, 1 + armedCount w, r, x.wcl, offTarget x o, 0,
              w.handler.isSome⟩ with wcl := wcl })) s

/-- JOIN (R164): the group arrives at Jn; the evaluation of R147 follows at the end of its clause. -/
def execJoin (j : BitVec 3) (s : State) : Host.Outcome State Fault Refusal :=
  issueMove (.join j) {} 0 (fun x s =>
    let r := x.w.rejoin j.toNat
    let deeper := (List.range 8).any fun k => (x.w.rejoin k).armed && decide (r.depth < (x.w.rejoin k).depth)
    if !r.armed || r.target != x.run.hdr || deeper || x.grp &&& ~~~r.expect ≠ 0 then x.trapG s 0x02
    else .ok (s.modWarp x.wk fun w =>
      w.setRejoin j.toNat { r with arrived := r.arrived ||| x.grp, next := x.pc + 4 })) s

/-- The word that JSTAT returns (R145). -/
def jstatWord (s : State) (asid : Nat) (r : JReg) : Word :=
  wd (r.expect.toNat * 2 ^ 32 + b2n r.armed * 2 ^ 31 + b2n r.lost * 2 ^ 30 + b2n r.xit * 2 ^ 29 + r.depth * 2 ^ 25 +
    handleOf s asid r.region * 2 ^ 12 + handleOf s asid r.outer)

/-- JSTAT (R165): the state of Jn, with the join of WCL and the region label. -/
def execJstat (z : Bool) (d : BitVec 6) (j : BitVec 3) (s : State) : Host.Outcome State Fault Refusal :=
  issue (.jstat z d j) { wg := [d.toNat] } 0 (fun x s =>
    writeG x s d.toNat (jstatWord s x.asid (x.w.rejoin j.toNat)) (joinL x.wcl (x.w.rejoin j.toNat).region)) s

/-! ## EXIT -/

/-- The effect of an EXIT on its active lanes, once any exit release has completed (R166). -/
def exitLanes (x : Ctx) (s : State) (act : Mask) : State :=
  let s := s.modWarp x.wk fun w => { w with
    exited := w.exited ||| act
    exitAt := some (x.run, x.word)
    handler := w.handler.map fun h => { h with exited := h.exited || act &&& h.grp != 0 } }
  let s := moveLanes s x.wk [(x.grp &&& ~~~act, x.pc + 4)]
  if x.w.exited ||| act = 0xFFFFFFFF#32 then tileExit (ringExit (barExit s x) x.wk) x.wk else s

/-- A stop of an exit release is a trap at POINT 3 (R196, R357). -/
def atExit : Except Stop State → Except Stop State
  | .error (.trap t s) => .error (.trap { t with point := 3 } s)
  | r => r

/-- EXIT (R166): the active lanes exit; the warp's last exit performs its exit release (R185, R196) first.  An
unconsumed mark is taken before any lane exits (R358). -/
def execExit (n : BitVec 1) (p : BitVec 3) (s : State) : Host.Outcome State Fault Refusal :=
  issueMove (.exit n p) { rp := [p.toNat] } (guardedLanes s n p) (fun x s => do
    checkBranch x s x.wcl (guardLabel x p.toNat) 0
    let act := guarded x n p
    match x.w.marks with
    | m :: _ => .error (.trap (exitTrap x m) (consumeMark s x.wk m))
    | [] =>
      let s ← if x.w.exited ||| act = 0xFFFFFFFF#32 then atExit (releaseAt x s x.lr.top 2 []) else .ok s
      .ok (exitLanes x s act)) s

/-! ## Hardware loops -/

/-- The body from `first` to `last` lies within the body of every active loop that contains the word at `pc` (R151). -/
def loopNests (w : Warp) (pc first last : Word) : Bool :=
  (List.range 3).all fun k =>
    let c := w.loop k
    !(c.active && decide (c.first.toNat ≤ pc.toNat) && decide (pc.toNat ≤ c.last.toNat)) ||
      (decide (c.first.toNat ≤ first.toNat) && decide (last.toNat ≤ c.last.toNat))

/-- The rules of R151 and R152 at a LOOP or LOOPG. -/
def checkLoop (x : Ctx) (s : State) (k : Nat) (last : Word) : Except Stop Unit :=
  if (x.w.loop k).active || !loopNests x.w x.pc (x.pc + 4) last then x.trapG s 0x02 else checkConverged x s

/-- The start of a loop (R167): a count of 0 skips the body. -/
def startLoop (x : Ctx) (s : State) (k count : Nat) (last : Word) : Except Stop State :=
  if count = 0 then transfer x s false [(x.grp, last + 4)]
  else do
    let s ← transfer x s false []
    .ok (s.modWarp x.wk fun w =>
      { w.setLoop k ⟨count, true, x.pc + 4, last, w.loops + 1⟩ with loops := w.loops + 1 })

/-- END of a loop (R150): the LOOP word's address + 4 * (len + 1).  A len above 255, for which R22 names no fate, gives a body
of as many words as it says (log entry 10). -/
def loopEnd (x : Ctx) (l : BitVec 9) : Word := x.pc + wd (4 * (l.toNat + 1))

/-- LOOP (R167): the count is in the word. -/
def execLoop (k : BitVec 2) (c : BitVec 12) (l : BitVec 9) (s : State) : Host.Outcome State Fault Refusal :=
  issueMove (.loop k c l) {} 0 (fun x s => do
    checkLoop x s k.toNat (loopEnd x l)
    startLoop x s k.toNat c.toNat (loopEnd x l)) s

/-- LOOPG (R167): the count is Ga, at most 32 bits. -/
def execLoopg (k : BitVec 2) (a : BitVec 6) (l : BitVec 9) (s : State) : Host.Outcome State Fault Refusal :=
  issueMove (.loopg k a l) { rg := [a.toNat] } 0 (fun x s => do
    checkLoop x s k.toNat (loopEnd x l)
    checkBranch x s x.wcl (x.w.regs.labG a.toNat) 0
    let v := x.w.regs.getG a.toNat
    if bits v 32 32 ≠ 0 then x.trapG s 0x02 else startLoop x s k.toNat v.toNat (loopEnd x l)) s

/-- A loop made inactive (R168). -/
def Warp.endLoop (w : Warp) (k : Nat) : Warp := w.setLoop k { w.loop k with count := 0, active := false }

/-- Loop `k` and the active loops that started after it end (R168). -/
def breakLoop (w : Warp) (k : Nat) : Warp :=
  ((List.range 3).filter fun j => (w.loop j).active && decide ((w.loop k).order ≤ (w.loop j).order)).foldl Warp.endLoop w

/-- LBRK (R168): leaves loop k when Ga is not zero. -/
def execLbrk (k : BitVec 2) (a : BitVec 6) (s : State) : Host.Outcome State Fault Refusal :=
  issueMove (.lbrk k a) { rg := [a.toNat] } 0 (fun x s => do
    checkConverged x s
    checkBranch x s x.wcl (x.w.regs.labG a.toNat) 0
    let c := x.w.loop k.toNat
    if !c.active || x.pc.toNat < c.first.toNat || c.last.toNat < x.pc.toNat then x.trapG s 0x02
    else if x.w.regs.getG a.toNat ≠ 0 then
      let s ← transfer x s false [(x.grp, c.last + 4)]
      .ok (s.modWarp x.wk fun w => breakLoop w k.toNat)
    else transfer x s false []) s

/-! ## PARK, YIELD, NOP -/

/-- The compare and watch of PARK at the home bank (R153, R169). -/
def parkOn (x : Ctx) (s : State) (pa : Nat) (v expect : Word) (late : Bool) : State :=
  let s := moveLanes s x.wk [(x.grp, x.pc + 4)]
  if v = expect then s.modWarp x.wk fun w =>
    let ps := if w.parked.any (·.lanes == 0) then w.parked.map fun p => if p.lanes = 0 then { p with lanes := x.grp } else p
      else w.parked ++ [⟨x.grp, pa / 64, late⟩]
    { w with parked := ps }
  else s

/-- A watch armed with the compare of a once-performed PARK, in every replica that it is delivered to now (R153, R336). -/
def armWatch (x : Ctx) (s : State) (gran : Nat) : State :=
  ((x.gang.members.filter (!x.lags ·)).filterMap (replicaWarp x)).foldl (fun s k =>
    s.modWarp k fun w => { w with parked := w.parked ++ [⟨0, gran, false⟩] }) s

/-- PARK (R169).  The read of an external word is once-performed in a replicated launch (R336).  R369 does not list PARK among
the consumptions of damage: the word of a damaged granule is compared as it stands (log entry 20). -/
def execPark (a b : BitVec 6) (s : State) : Host.Outcome State Fault Refusal :=
  issueMove (.park a b) { rg := [a.toNat, b.toNat] } 0 (fun x s => do
    let q := x.w.regs
    let ga := q.getG a.toNat
    let pa ← checkAddr x s ga 8 false
    checkBranch x s x.wcl (joinAll [q.labG a.toNat, q.labG b.toNat, granLabel s.mem pa]) ga
    let s ← orderAccess x s [pa]
    let once := x.replicated && externalEntry x (pa / 64)
    let read (s : State) : Except Stop (State × List Word × List Label) :=
      let v := wd (readNum s.mem.gal pa 8)
      .ok (if once && v == q.getG b.toNat then armWatch x s (pa / 64) else s, [v], [])
    let r ← if once then
        onceOp x s [opRecord x (joinL (q.labG a.toNat) (q.labG b.toNat)) ga.toNat [ga, q.getG b.toNat]] read
      else read s
    .ok (parkOn x (dropSnapshot r.1 x.core pa) pa (nth 0 r.2.1 0) (q.getG b.toNat) once)) s

/-- YIELD (R170): every lane of the group goes to the next clause with its yield mark set, which holds for the warp's
next clause run (R45). -/
def execYield (s : State) : Host.Outcome State Fault Refusal :=
  issueMove .yield {} 0 (fun x s =>
    .ok ((moveLanes s x.wk [(x.grp, x.pc + 4)]).modWarp x.wk fun w => { w with yieldNew := w.yieldNew ||| x.grp })) s

/-- NOP (R171): no effect. -/
def execNop (z : Bool) (s : State) : Host.Outcome State Fault Refusal :=
  issue (.nop z) {} 0 (fun _ s => .ok s) s

end Sys2Proof.Machine
end

