-- ==== Sys2Proof/Machine/Random.lean ====
section
/-! DEFINITION. Draws of the module's random-number source (R388, R409). -/
namespace Sys2Proof.Machine

/-- A draw (R409): a free value, or none when the source is disabled.  Whether a health test fails is free; a first failure is
logged (R5, R372), and a second disables the source until module reset, with a supervisor notice. -/
def drawRandom (s : State) : State × Option Word :=
  if s.hub.rngOff then (s, none)
  else if !Config.freeBool s.free then (s.drew, some (Config.freeWord s.free))
  else if !Config.freeBool (s.free + 1) then ((s.drew.drew).notify 10 [] [], some (Config.freeWord (s.free + 1)))
  else ((s.drew.drew.modHub fun h => { h with rngOff := true }).notify 8 [] [], none)

end Sys2Proof.Machine
end

