-- ==== Sys2Proof/Machine/TileOps.lean ====
section
/-! DEFINITION. The matrix engine's operations (R254 to R274, R288): operand descriptors, chunks, elements, extents, and
what each tile operation computes from its captured operands. -/
namespace Sys2Proof.Machine

/-! ## Descriptors and chunks (R261 to R263) -/

/-- An operand descriptor (R261), or the output layout of a drain (R271). -/
structure Desc where
  sbase : Nat
  base : Nat
  rot : Nat
  banden : Bool
  blk : Bool
  ks : Nat
  tp : Nat
  rp : Nat
  deriving DecidableEq, Repr

/-- The fields of a descriptor pair (R261). -/
def descOf (q : Word × Word) : Desc :=
  ⟨bits q.1 32 32, bits q.1 0 32, bits q.2 60 4, bit q.2 59, bit q.2 58, bits q.2 51 7 + 1, bits q.2 32 19, bits q.2 0 19⟩

/-- The field rules of R261 and R263; `bands` says that SBASE takes part. -/
def pairOk (q : Word × Word) (fmt : Nat) (bands : Bool) : Bool :=
  let d := descOf q
  bits q.2 19 13 == 0 && (!d.blk || decide (fmt ≤ 1)) && (d.rot == 0 || d.rp % 32 == 0) &&
  (!bands || d.banden || d.sbase == 0)

/-- Bytes of a chunk (R262): F4, F6, F8E4, F8E5, BF16, S8. -/
def chunkBytes (fmt : Nat) : Nat := nth 64 [40, 56, 64, 64, 128, 64] fmt

/-- A Gallery address rotated for row `r` (R263). -/
def rotGa (d : Desc) (r ga : Nat) : Nat :=
  if d.rot = 0 then ga else ga / 2048 * 2048 + (ga / 64 % 32 + d.rot * r) % 32 * 64 + ga % 64

/-- The pieces of a chunk of `nb` bytes, one for each granule: Gallery address and length (R262, R263). -/
def pieces (d : Desc) (nb t r : Nat) : List (Nat × Nat) :=
  (List.range ((nb + 63) / 64)).map fun i =>
    (rotGa d r (d.base + 64 * d.tp * t + 64 * d.rp * r + 64 * i), min 64 (nb - 64 * i))

/-- Every piece of an operand. -/
def allPieces (d : Desc) (nb : Nat) : List (Nat × Nat) :=
  (List.range d.ks).flatMap fun t => (List.range 128).flatMap fun r => pieces d nb t r

/-- Two byte ranges overlap. -/
def overlaps (a b : Nat × Nat) : Bool := decide (a.1 < b.1 + b.2) && decide (b.1 < a.1 + a.2)

/-- No two of some ranges overlap. -/
def disjointAll : List (Nat × Nat) → Bool
  | [] => true
  | p :: t => t.all (fun q => !overlaps p q) && disjointAll t

/-! ## Extents (R260, step 6) -/

/-- The TILE-BOUNDS trap (R361): descriptor register, K-step and row. -/
def boundsTrap {α : Type} (x : Ctx) (s : State) (reg t r : Nat) : Except Stop α :=
  x.trap s 0x09 x.grp 0 (wd (reg + 256 * t + 65536 * r))

/-- The physical address of a piece that has passed its check. -/
def piecePa (x : Ctx) (s : State) (wr : Bool) (p : Nat × Nat) : Nat := (galPa x s p.1 p.2 wr).getD 0

/-- The first K-step and row of an operand with a byte that the block may not access. -/
def extentFails (x : Ctx) (s : State) (d : Desc) (nb : Nat) (wr : Bool) : Option (Nat × Nat) :=
  (List.range d.ks).findSome? fun t => (List.range 128).findSome? fun r =>
    if (pieces d nb t r).any fun p => (galPa x s p.1 p.2 wr).isNone then some (t, r) else none

/-- The extent check of one operand. -/
def checkExtent (x : Ctx) (s : State) (d : Desc) (nb : Nat) (wr : Bool) (reg : Nat) : Except Stop Unit :=
  match extentFails x s d nb wr with
  | some p => boundsTrap x s reg p.1 p.2
  | none => .ok ()

/-- The extent check of the band scales of an operand, which reports K-step 0 and row 0 (R260; log entry 21). -/
def checkBands (x : Ctx) (s : State) (d : Desc) (reg : Nat) : Except Stop Unit :=
  if d.banden && (galPa x s d.sbase 4 false).isNone then boundsTrap x s reg 0 0 else .ok ()

/-! ## Reading the Gallery (R259, R264) -/

/-- A tile's read within one granule at its home bank, with what the core's phase buffers hold of it: bytes, and which are
damaged, there or at home; a damaged byte reads as zero (R259, R264, R369). -/
def homeRead (s : State) (core pa n : Nat) : List Byte × List Bool :=
  let es := if pa / 2 ^ 20 = core then [] else coreEntries s core (pa / 64)
  let bad := (List.range n).map fun i => match lastEntry es (pa % 64 + i) with
    | some e => e.dmg
    | none => granDamaged s pa
  (((overlay es (pa % 64) (readBytes s.mem.gal pa n)).1.zip bad).map fun p => if p.2 then 0 else p.1, bad)

/-- What a tile instruction reads within one granule: what Echo has delivered for an external piece (R336), else the home bank's
bytes. -/
def tileRead (x : Ctx) (s : State) (pa n : Nat) : List Byte × List Bool :=
  match x.ext.find? fun e => e.pa == pa && e.bytes.length == n with
  | some e => (e.bytes, e.bad)
  | none => homeRead s x.core pa n

/-- The label of a piece that a tile instruction reads: as delivered for an external one, else as its home bank holds it (R260,
R336). -/
def pieceLabel (x : Ctx) (s : State) (pa : Nat) : Label :=
  match x.ext.find? (·.pa / 64 == pa / 64) with
  | some e => e.lab
  | none => granLabel s.mem pa

/-! ### External pieces in a replicated launch (R336, R343) -/

/-- The external ones of some pieces that a replica reads. -/
def extOf (x : Ctx) (ps : List (Nat × Nat)) : List (Nat × Nat) :=
  if x.replicated then (ps.filter fun p => externalEntry x (p.1 / 64)).dedup else []

/-- An external piece as the committing replica's core reads it. -/
def readExt (x : Ctx) (s : State) (p : Nat × Nat) : ExtPiece :=
  let r := homeRead s x.core p.1 p.2
  ⟨p.1, r.1, r.2, granLabel s.mem p.1⟩

/-- An external piece as nine words: which of its bytes are damaged, and the bytes. -/
def ExtPiece.toWords (e : ExtPiece) : List Word :=
  wd (e.bad.foldr (fun b n => b2n b + 2 * n) 0) :: (List.range 8).map fun i => wd (ofBytes ((e.bytes.drop (8 * i)).take 8))

/-- The piece that nine words and a label give. -/
def extFrom (p : Nat × Nat) (ws : List Word) (lab : Label) : ExtPiece :=
  ⟨p.1, (ws.drop 1).flatMap (fun w => toBytes 8 w.toNat) |>.take p.2, (List.range p.2).map fun i => (nth 0 ws 0).getLsbD i, lab⟩

/-- External pieces read once for every replica, as the next Echo event of the instruction (R336, R343): the context that
holds them. -/
def share (x : Ctx) (s : State) (own : Record) (ps : List (Nat × Nat)) : Except Stop (State × Ctx) :=
  let ps := extOf x ps
  if ps.isEmpty then .ok (s, x)
  else do
    let r ← onceKept x s (if x.ext.isEmpty then 0 else 1) [own] fun s =>
      let es := ps.map (readExt x s)
      .ok (dropSnapshots s x.core (ps.map (·.1)), es.flatMap (·.toWords), es.map (·.lab))
    let es := ps.zipIdx.map fun p => extFrom p.1 ((r.2.1.drop (9 * p.2)).take 9) (nth [] r.2.2 p.2)
    .ok (r.1, { x with ext := x.ext ++ es })

/-- A chunk's bytes, and which are damaged. -/
def chunkRead (x : Ctx) (s : State) (d : Desc) (nb t r : Nat) : List Byte × List Bool :=
  let ps := (pieces d nb t r).map fun p => tileRead x s (piecePa x s false p) p.2
  (ps.flatMap (·.1), ps.flatMap (·.2))

/-- Numbers of `k` bytes read one after another, each with whether a byte of it is damaged: then it is zero (R264). -/
def wholeNums (k n : Nat) (r : List Byte × List Bool) : List (Nat × Bool) :=
  (List.range n).map fun j =>
    let bad := ((r.2.drop (k * j)).take k).any id
    (if bad then 0 else numAt r.1 (k * j) k, bad)

/-- The band scales of an operand, and which of the two are damaged, as bits 0 and 1: 1.0 without bands, +0 when damaged (R262,
R264). -/
def bandsOf (x : Ctx) (s : State) (d : Desc) : List (BitVec 16) × Nat :=
  if d.banden then
    let ns := wholeNums 2 2 (tileRead x s ((galPa x s d.sbase 4 false).getD 0) 4)
    (ns.map fun q => BitVec.ofNat 16 q.1, b2n (nth (0, false) ns 0).2 + 2 * b2n (nth (0, false) ns 1).2)
  else ([0x3F80#16, 0x3F80#16], 0)

/-! ## Elements (R262) -/

/-- The byte where an element's code starts, and the bytes it spans. -/
def elemSpan (fmt j : Nat) : Nat × Nat :=
  match fmt with
  | 0 => (j / 2, 1)
  | 1 => (6 * (j / 8) + 3 * (j % 8 / 4), 3)
  | 4 => (2 * j, 2)
  | _ => (j, 1)

/-- The bit of its span where an element's code starts, and its width. -/
def elemBits (fmt j : Nat) : Nat × Nat :=
  match fmt with
  | 0 => (4 * (j % 2), 4)
  | 1 => (6 * (j % 4), 6)
  | 4 => (0, 16)
  | _ => (0, 8)

/-- The code of element `j` of a chunk. -/
def elemCode (fmt : Nat) (bs : List Byte) (j : Nat) : Nat :=
  let p := elemSpan fmt j
  let b := elemBits fmt j
  numAt bs p.1 p.2 / 2 ^ b.1 % 2 ^ b.2

/-- A chunk of `nb` bytes from the codes of its 64 elements and its scale bytes. -/
def buildChunk (fmt : Nat) (codes scales : List Nat) : List Byte :=
  let n := match fmt with
    | 0 => 32
    | 1 => 48
    | 4 => 128
    | _ => 64
  toBytes n (packElems (elemBits fmt 0).2 codes) ++ (if fmt ≤ 1 then scales.map (BitVec.ofNat 8) else [])

/-- Where the scale bytes of a chunk start. -/
def scaleOff (fmt : Nat) : Nat := if fmt = 0 then 32 else 48

/-- The row and byte of the scale byte that serves element `j` of a K-step of row `r`. -/
def scaleAt (blk : Bool) (fmt r j : Nat) : Nat × Nat :=
  if blk then (r / 8 * 8 + j / 8, scaleOff fmt + j % 8) else (r, scaleOff fmt + j / 8)

/-- The exact value of an element's code, before its scale. -/
def codeValue (fmt code : Nat) : FVal :=
  match fmt with
  | 0 => decodeF e2m1 code
  | 1 => decodeF e3m2 code
  | 2 => decodeF e4m3 code
  | 3 => decodeF e5m2 code
  | 4 => decodeF bf16 code
  | _ => .fin (decide (sval 8 code < 0)) (sval 8 code).natAbs 0

/-- The exact values of row `r` of a K-step, from the chunks of its 128 rows. -/
def rowValues (fmt : Nat) (blk : Bool) (rows : List (List Byte)) (r : Nat) : List FVal :=
  let bs := nth [] rows r
  (List.range 64).map fun j =>
    let v := codeValue fmt (elemCode fmt bs j)
    if fmt ≤ 1 then
      let p := scaleAt blk fmt r j
      mulV v (scaleV (numAt (nth [] rows p.1) p.2 1))
    else v

/-- The bytes that hold the bits of an element's code: the first and how many. -/
def elemBytes (fmt j : Nat) : Nat × Nat :=
  if fmt = 1 then
    let b := 6 * (j % 4)
    ((elemSpan 1 j).1 + b / 8, (b + 5) / 8 - b / 8 + 1)
  else elemSpan fmt j

/-- The elements of a chunk with a damaged byte. -/
def badElems (fmt : Nat) (bad : List Bool) : List Nat :=
  if bad.any id then (List.range 64).filter fun j => ((bad.drop (elemBytes fmt j).1).take (elemBytes fmt j).2).any id
  else []

/-- The scale bytes of a chunk that are damaged. -/
def badScales (fmt : Nat) (bad : List Bool) : List Nat :=
  if fmt ≤ 1 then (List.range 8).filter fun i => nth false bad (scaleOff fmt + i) else []

/-- A chunk as the engine uses it: its bytes, and its damaged elements and scale bytes, which are zero in it (R264). -/
abbrev CleanChunk := List Byte × List Nat × List Nat

/-- A chunk with zero in place of what is damaged (R264). -/
def cleanChunk (fmt : Nat) (c : List Byte × List Bool) : CleanChunk :=
  if c.2.any id then
    let els := badElems fmt c.2
    (buildChunk fmt ((List.range 64).map fun j => if els.contains j then 0 else elemCode fmt c.1 j)
      ((List.range 8).map fun i => numAt c.1 (scaleOff fmt + i) 1), els, badScales fmt c.2)
  else (c.1, [], [])

/-- Something of a chunk is damaged. -/
def CleanChunk.bad (c : CleanChunk) : Bool := !c.2.1.isEmpty || !c.2.2.isEmpty

/-! ## Tiles -/

/-- The physical tile bound to a name of a warp (R254). -/
def tileIx (c : Core) (wk name : Nat) : Option Nat := (c.tiles.find? fun p => p.2.owner == some (wk, name)).map (·.1)

/-- The lowest free physical tile (R254, R255). -/
def freeTile (c : Core) : Option Nat := findNat (fun i => (kget c.tiles i).isNone) 0 8

/-- Damage recorded in a tile's log (R264, R274): `n` elements, the first from source `src` at row and index. -/
def Tile.logDmg (t : Tile) (src row k n : Nat) : Tile :=
  if n = 0 then t
  else { t with
    dmgCount := min (t.dmgCount + n) 0xFFFF
    dmgFirst := if t.dmgFirst = 0 then 2 ^ 42 + src * 2 ^ 40 + row * 2 ^ 33 + k * 2 ^ 20 else t.dmgFirst }

/-- `n` elements from number `i` on, as a list. -/
def denseElems : Nat → Nat → Tab (BitVec 32) → List (BitVec 32)
  | 0, _, _ => []
  | n + 1, i, [] => 0 :: denseElems n (i + 1) []
  | n + 1, i, (k, v) :: t => if k = i then v :: denseElems n (i + 1) t else 0 :: denseElems n (i + 1) ((k, v) :: t)

/-- Elements as the sparse list that a tile keeps. -/
def sparseElems (vs : List (BitVec 32)) : Tab (BitVec 32) :=
  vs.zipIdx.filterMap fun p => if p.1 = 0 then none else some (p.2, p.1)

/-- A tile's 128 × 128 elements by row; a damaged element reads as zero (R264). -/
def Tile.dense (t : Tile) : List (BitVec 32) :=
  let vs := denseElems 16384 0 t.elems
  if t.dmg.isEmpty then vs else vs.zipIdx.map fun p => if t.dmg.contains p.2 then 0 else p.1

/-- The damaged elements of a tile logged as read (R264, R274). -/
def Tile.logOwn (t : Tile) : Tile := t.dmg.foldl (fun t i => t.logDmg 3 (i / 128) (i % 128) 1) t

/-- A tile whose elements have been written whole: no damaged one is left. -/
def Tile.rewritten (t : Tile) (vs : List (BitVec 32)) : Tile := { t with elems := sparseElems vs, dmg := [] }

/-! ## What a tile operation does -/

/-- The outcome of a tile operation: the tile, its Gallery writes, whether it consumed damage, and the first damaged
Gallery address (0 for damage in a tile). -/
structure TileDone where
  tile : Tile
  writes : List (Nat × List Byte)
  dmg : Bool
  ga : Nat

/-- TMMA.  One K-step's sum of products (R266): the exact sum, -0 only when every product is -0. -/
def kstepSum (a b : List FVal) : FVal := (a.zipWith mulV b).foldl addV (.fin true 0 0)

/-- An exact integer that a value without a fraction stands for. -/
def intOf : FVal → Int
  | .fin s m e => scaled s m e 0
  | _ => 0

/-- add_once (R266). -/
def addOnce (isInt : Bool) (v : BitVec 32) (sum : FVal) : BitVec 32 :=
  if isInt then BitVec.ofInt 32 (v.toInt + intOf sum)
  else BitVec.ofNat 32 (encodeF fp32 .rn (addV (decodeF fp32 v.toNat) sum))

/-- The 128 chunks of a K-step of an operand. -/
def stepChunks (x : Ctx) (s : State) (d : Desc) (fmt t : Nat) : List CleanChunk :=
  (List.range 128).map fun r => cleanChunk fmt (chunkRead x s d (chunkBytes fmt) t r)

/-- The row and index of what is damaged first in row `r`'s chunk: an element, else the first one that a damaged scale byte
serves (R262, log entry 21). -/
def firstBad (blk : Bool) (r : Nat) (c : CleanChunk) : Nat × Nat :=
  match c.2.1, c.2.2 with
  | j :: _, _ => (r, j)
  | [], i :: _ => if blk then (r / 8 * 8, 8 * (r % 8) + i) else (r, 8 * i)
  | [], [] => (r, 0)

/-- Damage of a K-step logged, by row (R264). -/
def logStep (src k : Nat) (blk : Bool) (cs : List CleanChunk) (t : Tile) : Tile :=
  cs.zipIdx.foldl (fun t p =>
    let q := firstBad blk p.2 p.1
    t.logDmg src q.1 (64 * k + q.2) (p.1.2.1.length + p.1.2.2.length)) t

/-- One K-step of a TMMA: its elements updated (R266). -/
def tmmaStep (x : Ctx) (s : State) (o : TileOp) (r : TileDone) (k : Nat) : TileDone :=
  let da := descOf o.a
  let db := descOf o.b
  let ca := stepChunks x s da o.fmt k
  let cb := stepChunks x s db o.fmt k
  let va := (List.range 128).map (rowValues o.fmt da.blk (ca.map (·.1)))
  let vb := (List.range 128).map (rowValues o.fmt db.blk (cb.map (·.1)))
  let sums := va.flatMap fun a => vb.map (kstepSum a)
  let bad := ca.any (·.bad) || cb.any (·.bad)
  let t := logStep 1 k db.blk cb (logStep 0 k da.blk ca r.tile)
  { r with
    tile := { t with elems := sparseElems ((denseElems 16384 0 t.elems).zipWith (addOnce (o.fmt == 5)) sums) }
    dmg := r.dmg || bad
    ga := if r.ga = 0 && bad then (if ca.any (·.bad) then da.base else db.base) else r.ga }

/-- The damaged band scales of a pair logged (R264): the first serves row 0 first, the second row 64 (R262). -/
def logBands (src m : Nat) (t : Tile) : Tile :=
  t.logDmg src (if m % 2 = 1 then 0 else 64) 0 (m % 2 + m / 2 % 2)

/-- TMMA (R264, R266): damaged bands and accumulator elements first, then the K-steps in order. -/
def runTmma (x : Ctx) (s : State) (o : TileOp) (t : Tile) : TileDone :=
  let t := logBands 1 (o.bandDmg / 4) (logBands 0 (o.bandDmg % 4) t)
  let own := !t.dmg.isEmpty
  let t := t.logOwn.rewritten t.dense
  let t := { t with int := o.fmt == 5, tset := true, bset := true, bands := o.bands }
  (List.range (descOf o.a).ks).foldl (tmmaStep x s o) ⟨t, [], own || o.bandDmg != 0, 0⟩

/-- TSCL (R269): each element scaled and rounded once. -/
def runTscl (o : TileOp) (t : Tile) : TileDone :=
  let c := decodeF bf16 o.imm.toNat
  ⟨t.rewritten (t.dense.map fun v => BitVec.ofNat 32 (encodeF fp32 .rn (mulV (decodeF fp32 v.toNat) c))), [],
    !t.dmg.isEmpty, 0⟩

/-- DSCALE (R288). -/
def runDscale (o : TileOp) (t : Tile) : TileDone :=
  ⟨{ t with dsc := BitVec.ofNat 32 (encodeF fp32 .rn (mulV (decodeF fp32 t.dsc.toNat) (decodeF bf16 o.imm.toNat))) },
    [], false, 0⟩

/-- A tile as TZERO leaves it (R256, R267). -/
def zeroedTile (owner : Nat × Nat) : Tile := { Tile.free with owner := some owner }

/-- TLDA (R256, R270). -/
def runTlda (x : Ctx) (s : State) (o : TileOp) (owner : Nat × Nat) : TileDone :=
  let base := bits o.addr 0 32
  let gs := (List.range 1024).map fun i =>
    wholeNums 4 16 (tileRead x s (piecePa x s false (base + 64 * i, 64)) 64)
  let t : Tile := { zeroedTile owner with
    elems := sparseElems (gs.flatMap fun g => g.map fun q => BitVec.ofNat 32 q.1)
    int := bit o.addr 32, tset := true, bset := true, bands := [0x3F80#16, 0x3F80#16, 0x3F80#16, 0x3F80#16] }
  let bad := gs.zipIdx.filter fun p => p.1.any (·.2)
  ⟨bad.foldl (fun t p => t.logDmg 3 (p.2 / 8) (16 * (p.2 % 8) + p.1.findIdx (·.2)) (p.1.filter (·.2)).length) t, [],
    !bad.isEmpty,
    match bad with
      | p :: _ => base + 64 * p.2
      | [] => 0⟩

/-- The writes of one chunk: physical address and bytes of each piece. -/
def chunkWrites (x : Ctx) (s : State) (d : Desc) (t r : Nat) (bs : List Byte) : List (Nat × List Byte) :=
  (pieces d bs.length t r).zipIdx.map fun p => (piecePa x s true p.1, (bs.drop (64 * p.2)).take p.1.2)

/-- TTRN (R268): element (k, r) of D is element code (r, k) of S, and so is its scale byte. -/
def runTtrn (x : Ctx) (s : State) (o : TileOp) (t : Tile) : TileDone :=
  let dd := descOf o.a
  let ds := descOf o.b
  let src := (List.range 2).map fun k => stepChunks x s ds o.fmt k
  let chunk (k r : Nat) : List Byte := (nth ([], [], []) (nth [] src k) r).1
  let code (r k : Nat) : Nat := elemCode o.fmt (chunk (k / 64) r) (k % 64)
  let scale (r k : Nat) : Nat :=
    let p := scaleAt ds.blk o.fmt r (k % 64)
    numAt (chunk (k / 64) p.1) p.2 1
  let out (t r : Nat) : List Byte := buildChunk o.fmt ((List.range 64).map fun j => code (64 * t + j) r)
    ((List.range 8).map fun i => if dd.blk then scale (64 * t + 8 * (r % 8) + i) (r / 8 * 8)
      else scale (64 * t + 8 * i) r)
  let bad := src.any fun rows => rows.any (·.bad)
  ⟨t, (List.range 2).flatMap fun k => (List.range 128).flatMap fun r => chunkWrites x s dd k r (out k r), bad,
    if bad then ds.base else 0⟩

/-! ## Drains (R271 to R273) -/

/-- The output layout of a parameter block (R271). -/
def outDesc (blk : List Byte) : Desc :=
  ⟨0, numAt blk 0 4, numAt blk 0x14 1 / 16, false, false, 2, numAt blk 8 4 / 64, numAt blk 4 4 / 64⟩

/-- Bytes of an output chunk by OFMT (R271). -/
def outBytes (ofmt : Nat) : Nat := nth 256 [256, 128, 128, 64, 64, 56, 40, 256] ofmt

/-- The rules of R271 and R273 that are ILLEGAL-STATE. -/
def blockOk (add : Bool) (b : List Byte) : Bool :=
  let ofmt := numAt b 0x14 1 % 16
  let act := numAt b 0x15 1
  let fl := numAt b 0x16 1
  numAt b 0x17 41 == 0 && decide (fl / 8 = 0) && fl % 2 == 0 && decide (act < 3) && decide (ofmt < 8) &&
  numAt b 4 4 % 64 == 0 && numAt b 8 4 % 64 == 0 && !(ofmt == 7 && act == 2) &&
  (fl / 2 % 2 == 1 || numAt b 12 4 == 0) && (!add || ofmt == 0 || ofmt == 7) &&
  (numAt b 0x14 1 / 16 == 0 || numAt b 4 4 / 64 % 32 == 0)

/-- The bias values and which are damaged (R272). -/
def biasOf (x : Ctx) (s : State) (o : TileOp) : List (FVal × Bool) :=
  (List.range 8).flatMap fun i =>
    (wholeNums 4 16 (tileRead x s (piecePa x s false (numAt o.blk 12 4 + 64 * i, 64)) 64)).map fun q =>
      (decodeF fp32 q.1, q.2)

/-- One output value before its conversion (R272): FP32 bits, or the 32-bit integer for OFMT 7. -/
def drainValue (ofmt act : Nat) (e : FVal) : Nat :=
  if ofmt = 7 then
    let z := match e with
      | .nan => 0
      | .inf s => if s then -(2 ^ 31 : Int) else 2 ^ 31 - 1
      | .fin s m k => clampI (-(2 ^ 31)) (2 ^ 31 - 1) (roundInt .rn s m k)
    wrap 32 (if act = 1 then max z 0 else z)
  else
    let y := encodeF fp32 .rn e
    match act with
    | 1 => if isNaN fp32 y then y else minmaxF fp32 true y 0
    | 2 => encodeF fp32 .rn (siluV (decodeF fp32 y))
    | _ => y

/-- Row `m` of a drain (R272): the 128 output values, with the columns' biases. -/
def drainRow (o : TileOp) (t : Tile) (row : List (BitVec 32)) (bias : List (FVal × Bool)) (m : Nat) : List Nat :=
  let ofmt := blkOfmt o
  let band (i : Nat) : FVal := decodeF bf16 (nth 0 t.bands i).toNat
  let tail := mulV (decodeF fp32 t.dsc.toNat) (decodeF fp32 (numAt o.blk 0x10 4))
  row.zipIdx.map fun p =>
    let v := if t.int then .fin (decide (p.1.toInt < 0)) p.1.toInt.natAbs 0 else decodeF fp32 p.1.toNat
    let q := mulV (mulV (mulV v (band (m / 64))) (band (2 + p.2 / 64))) tail
    drainValue ofmt (blkAct o) (if blkBiasen o then addV q (nth (.nan, false) bias p.2).1 else q)

/-- A chunk of 64 output values in an output format (R271, R272). -/
def outChunk (ofmt : Nat) (ys : List Nat) : List Byte :=
  let conv (f : Fmt) (r : Rnd) : List Nat := ys.map fun y => encodeF f r (decodeF fp32 y)
  let blocks (f : Fmt) (k : Nat) : List (Nat × List Nat) := (List.range 8).map fun b =>
    quantBlock f k (((ys.drop (8 * b)).take 8).map (decodeF fp32))
  match ofmt with
  | 1 => toBytes 128 (packElems 16 (conv bf16 .rn))
  | 2 => toBytes 128 (packElems 16 (conv fp16 .rn))
  | 3 => toBytes 64 (packElems 8 (conv e4m3 .sat))
  | 4 => toBytes 64 (packElems 8 (conv e5m2 .sat))
  | 5 => buildChunk 1 ((blocks e3m2 28).flatMap (·.2)) ((blocks e3m2 28).map (·.1))
  | 6 => buildChunk 0 ((blocks e2m1 6).flatMap (·.2)) ((blocks e2m1 6).map (·.1))
  | _ => toBytes 256 (packElems 32 ys)

/-- TDRAIN.ADD of one chunk: the destination's 64 elements with the output added (R273), and which were damaged. -/
def addChunk (x : Ctx) (s : State) (d : Desc) (ofmt k m : Nat) (ys : List Nat) : List Byte × List Nat :=
  let ps := (pieces d 256 k m).map fun p => tileRead x s (piecePa x s true p) p.2
  let old := wholeNums 4 64 (ps.flatMap (·.1), ps.flatMap (·.2))
  (toBytes 256 (packElems 32 (ys.zipIdx.map fun p =>
    let v := (nth (0, false) old p.2).1
    if ofmt = 0 then addF fp32 v p.1 else wrap 32 (clampI (-(2 ^ 31)) (2 ^ 31 - 1) (sval 32 v + sval 32 p.1)))),
    (List.range 64).filter fun j => (nth (0, false) old j).2)

/-- TDRAIN and TDRAIN.ADD (R264, R272, R273).  The first damage is the bias's, else the accumulator's, else the destination's (log
entry 21). -/
def runDrain (x : Ctx) (s : State) (o : TileOp) (t : Tile) : TileDone :=
  if o.blkDmg then ⟨t.logDmg 2 0 0 1, [], true, bits o.addr 0 32⟩
  else
    let d := outDesc o.blk
    let ofmt := blkOfmt o
    let bias := if blkBiasen o then biasOf x s o else []
    let badBias := bias.zipIdx.filter fun p => p.1.2
    let own := !t.dmg.isEmpty
    let vs := t.dense
    let t1 := badBias.foldl (fun t p => t.logDmg 2 0 p.2 1) t
    let t1 := t1.logOwn
    let chunks := (List.range 128).flatMap fun m =>
      let ys := drainRow o t ((vs.drop (128 * m)).take 128) bias m
      (List.range 2).map fun k =>
        let half := (ys.drop (64 * k)).take 64
        (m, k, if o.op = 6 then addChunk x s d ofmt k m half else (outChunk ofmt half, []))
    let t2 := chunks.foldl (fun t c => match c.2.2.2 with
      | [] => t
      | j :: js => t.logDmg 2 c.1 (64 * c.2.1 + j) (js.length + 1)) t1
    let badDest := chunks.any fun c => !c.2.2.2.isEmpty
    ⟨t2, chunks.flatMap fun c => chunkWrites x s d c.2.1 c.1 c.2.2.1, own || !badBias.isEmpty || badDest,
      if !badBias.isEmpty then numAt o.blk 12 4 else if badDest then d.base else 0⟩

/-- One tile operation from its captured operands (R281's codes). -/
def runTileOp (x : Ctx) (s : State) (o : TileOp) (t : Tile) : TileDone :=
  match o.op with
  | 0 => runTmma x s o t
  | 1 => ⟨zeroedTile (x.wk, o.acc), [], false, 0⟩
  | 2 => runTtrn x s o t
  | 3 => runTscl o t
  | 4 => runTlda x s o (x.wk, o.acc)
  | 5 => runDrain x s o t
  | 6 => runDrain x s o t
  | _ => runDscale o t

/-- The Gallery bytes that a tile operation reads when it executes: Gallery address and length, with the direction in which
their access was checked. -/
def readPieces (o : TileOp) : List (Bool × Nat × Nat) :=
  match o.op with
  | 0 => (allPieces (descOf o.a) (chunkBytes o.fmt) ++ allPieces (descOf o.b) (chunkBytes o.fmt)).map (false, ·)
  | 2 => (allPieces (descOf o.b) (chunkBytes o.fmt)).map (false, ·)
  | 4 => (List.range 1024).map fun i => (false, bits o.addr 0 32 + 64 * i, 64)
  | 5 => if blkBiasen o then (List.range 8).map fun i => (false, numAt o.blk 12 4 + 64 * i, 64) else []
  | 6 => (if blkBiasen o then (List.range 8).map fun i => (false, numAt o.blk 12 4 + 64 * i, 64) else []) ++
      (allPieces (outDesc o.blk) 256).map (true, ·)
  | _ => []

/-- The granules that a tile operation reads when it executes, by physical address. -/
def readPas (x : Ctx) (s : State) (o : TileOp) : List Nat :=
  if o.blkDmg then [] else (readPieces o).map fun p => piecePa x s p.1 p.2

/-- The pieces that a tile operation reads when it executes, as they lie in the slices. -/
def extPieces (x : Ctx) (s : State) (o : TileOp) : List (Nat × Nat) :=
  if o.blkDmg then [] else (readPieces o).map fun p => (piecePa x s p.1 p.2, p.2.2)

/-- The physical addresses of the pieces that a tile operation writes. -/
def writePas (x : Ctx) (s : State) (o : TileOp) : List Nat :=
  (match o.op with
    | 2 => allPieces (descOf o.a) (chunkBytes o.fmt)
    | _ => if o.writes then allPieces (outDesc o.blk) (outBytes (blkOfmt o)) else []).map (piecePa x s true)

/-- The drain frees its tile when it has completed (R255, R264). -/
def freesTile (o : TileOp) : Bool := (o.op == 5 || o.op == 6) && !o.blkDmg && blkFree o

end Sys2Proof.Machine
end

