-- ==== Sys2Proof/Machine/Tile.lean ====
section
/-! DEFINITION. The tile class (R254 to R274): issue of tile instructions into Flowstone's window, TSTAT, and the matrix
engine's execution of single instructions and of rewritten groups (R258, R289, R290). -/
namespace Sys2Proof.Machine

/-! ## Issue (R260, R275, R276, R291) -/

/-- The name state of an accumulator name (R276). -/
def Warp.nameOf (w : Warp) (n : Nat) : NameSt := aget NameSt.free w.names n

/-- The label of an accumulator row as it stands at issue. -/
def NameSt.row (n : NameSt) (r : Nat) : Label := aget [] n.rows r

/-- Row labels as a table. -/
def rowTable (ls : List Label) : Tab Label := ls.zipIdx.filterMap fun p => if p.1 = [] then none else some (p.2, p.1)

/-- The first of some addresses that is not a multiple of 64 traps ALIGNMENT (R260, step 3). -/
def checkAligned (x : Ctx) (s : State) (as_ : List Nat) : Except Stop Unit :=
  match as_.find? (· % 64 != 0) with
  | some a => x.trap s 0x0B x.grp (wd a) 0
  | none => .ok ()

/-- A tile instruction enters the window (R275, R276, R291) once every check has passed: its labels bind, SLAB and
WINDOWED move, the name state becomes the one given, and the eighth entry flushes (R277).  A drain with a damaged parameter
block makes no label check (R264): SLAB then keeps a set that may be bound only when it is read (R291, log entry 21). -/
def enterWindow (x : Ctx) (s : State) (f : BitVec 1) (addr : Word) (o : TileOp) (srcs : List Nat)
    (upd : Option NameSt) : Except Stop State := do
  let slab := joinAll (x.w.slab :: o.cap :: srcs.map x.w.regs.labG)
  let rows := match upd with
    | some n => n.rows.map (·.2)
    | none => []
  if !o.blkDmg && rows.any (fun l => decide (Config.maxOwners < l.length)) then x.trap s 0x07 x.grp addr 0
  else
    let s ← if o.blkDmg then .ok s else bindOr x s addr (rows ++ [slab])
    let p := x.newPend (x.flag f) (.tile o) [] 0 x.w.issued
    let s := s.modWarp x.wk fun w =>
      { w with
        window := w.window ++ [{ p with cap := joinL p.cap o.cap }]
        issued := w.issued + 1
        slab := slab
        got := if x.replicated then [] else w.got
        counters := addCounter w.counters 0x100 1
        names := match upd with
          | some n => aset NameSt.free w.names o.acc n
          | none => w.names }
    .ok (if x.w.window.length = 7 then flushWindow s x.wk else s)

/-- The descriptor pair in Gn and Gn+1. -/
def gPair (x : Ctx) (n : Nat) : Word × Word := (x.w.regs.getG n, x.w.regs.getG (n + 1))

/-- The label of some bytes at issue: the join of their granules' home labels (R260). -/
def piecesLabel (x : Ctx) (s : State) (wr : Bool) (ps : List (Nat × Nat)) : Label :=
  joinAll (ps.map fun p => pieceLabel x s (piecePa x s wr p))

/-- The labels that A adds to each row (R215, R262): its own chunks, and the chunks of its group of eight rows when
column blocks put their scale bytes there. -/
def rowLabels (x : Ctx) (s : State) (d : Desc) (nb : Nat) : List Label :=
  let own := (List.range 128).map fun r => piecesLabel x s false ((List.range d.ks).flatMap fun t => pieces d nb t r)
  if d.blk then (List.range 128).map fun r => joinAll ((own.drop (r / 8 * 8)).take 8) else own

/-- The label of an operand's band scales. -/
def bandLabel (x : Ctx) (s : State) (d : Desc) : Label :=
  if d.banden then pieceLabel x s ((galPa x s d.sbase 4 false).getD 0) else []

/-- The physical addresses of an operand's pieces. -/
def operandPas (x : Ctx) (s : State) (d : Desc) (nb : Nat) (wr : Bool) : List Nat := (allPieces d nb).map (piecePa x s wr)

/-- The physical address of an operand's band scales, if it has them. -/
def bandPas (x : Ctx) (s : State) (d : Desc) : List Nat := if d.banden then [piecePa x s false (d.sbase, 4)] else []

/-- The publication of R259 in a replicated launch, and what it discarded: it needs an event that commits (R342), so it is at
issue, a release at the widest scope (log entry 12). -/
def publishTile (x : Ctx) (s : State) (pas : List Nat) : Except Stop (State × Option (Nat × Label × Label)) :=
  if !x.replicated then .ok (s, none)
  else match s.warp x.wk with
    | none => .error (.fault .noIssuer)
    | some w =>
      if w.begun 5 || w.phase.any (fun e => pas.any fun pa => e.gran == pa / 64) then releaseTry x s x.lr.top 5 []
      else .ok (s, none)

/-- The pieces of an operand as they lie in the slices. -/
def piecesAt (x : Ctx) (s : State) (ps : List (Nat × Nat)) : List (Nat × Nat) := ps.map fun p => (piecePa x s false p, p.2)

/-- The band scales of an operand as they lie in the slices, where they can be read. -/
def bandsAt (x : Ctx) (s : State) (d : Desc) : List (Nat × Nat) :=
  if d.banden then (galPa x s d.sbase 4 false).toList.map (·, 4) else []

/-- The operand record of a tile instruction's once-performed reads (R337). -/
def tileRecord (x : Ctx) (rs : List Nat) : Record :=
  opRecord x (groupLabel x rs) (x.w.regs.getG (rs.headD 0)).toNat (rs.map x.w.regs.getG)

/-- The forms of a TMMA's two pairs (R261, R263, R266). -/
def tmmaForm (qa qb : Word × Word) (fmt : Nat) : Bool :=
  (descOf qa).ks == (descOf qb).ks && pairOk qa fmt true && pairOk qb fmt true

/-- The forms of a TTRN's destination and source pair (R261, R263, R268). -/
def ttrnForm (qd qs : Word × Word) (fmt : Nat) : Bool :=
  let dd := descOf qd
  let ds := descOf qs
  dd.ks == 2 && ds.ks == 2 && pairOk qs fmt false && pairOk qd fmt false && !(decide (fmt ≤ 1) && dd.blk == ds.blk) &&
  disjointAll (allPieces dd (chunkBytes fmt)) &&
  !(allPieces dd (chunkBytes fmt)).any (fun p => (allPieces ds (chunkBytes fmt)).any (overlaps p))

/-- TMMA of a format, with accumulator and descriptor registers (R266).  Its band scales are read at issue, without a wait for an
earlier instruction that is to write them (R257, R260; log entry 21). -/
def tmmaBody (x : Ctx) (s : State) (f : BitVec 1) (fmt acc a b : Nat) : Except Stop State := do
  let n := x.w.nameOf acc
  let qa := gPair x a
  let qb := gPair x b
  let da := descOf qa
  let db := descOf qb
  let nb := chunkBytes fmt
  let isInt := fmt == 5
  if !n.held || (n.tset && n.int != isInt) || !tmmaForm qa qb fmt then x.trapG s 0x02
  else
    checkAligned x s [da.base, if da.banden then da.sbase else 0, db.base, if db.banden then db.sbase else 0]
    checkExtent x s da nb false a
    checkBands x s da a
    checkExtent x s db nb false b
    checkBands x s db b
    let s ← orderAccess x s (operandPas x s da nb false ++ operandPas x s db nb false ++ bandPas x s da ++ bandPas x s db)
    let s := dropSnapshots s x.core (bandPas x s da ++ bandPas x s db)
    let (s, x) ← share x s (tileRecord x [a, a + 1, b, b + 1])
      (bandsAt x s da ++ bandsAt x s db ++ piecesAt x s (allPieces da nb ++ allPieces db nb))
    let ba := bandsOf x s da
    let bb := bandsOf x s db
    if n.bset && n.bands != ba.1 ++ bb.1 then x.trapG s 0x02
    else
      let q := joinAll ([piecesLabel x s false (allPieces db nb), bandLabel x s da, bandLabel x s db] ++
        [a, a + 1, b, b + 1].map x.w.regs.labG ++ [x.wcl])
      let rows := (rowLabels x s da nb).zipIdx.map fun p => joinAll [n.row p.2, p.1, q]
      enterWindow x s f 0
        { noTile with op := 0, fmt := fmt, acc := acc, a := qa, b := qb, bands := ba.1 ++ bb.1,
                      bandDmg := ba.2 + 4 * bb.2, ra := a, rb := b, ext := x.ext }
        [a, a + 1, b, b + 1] (some ⟨true, true, isInt, true, ba.1 ++ bb.1, rowTable rows⟩)

/-- TMMA (R266). -/
def execTmma (z : Bool) (d : BitVec 3) (a b : BitVec 5) (m : BitVec 4) (f : BitVec 1) (s : State) :
    Host.Outcome State Fault Refusal :=
  issue (.tmma z d a b m f)
    { rg := [2 * a.toNat, 2 * a.toNat + 1, 2 * b.toNat, 2 * b.toNat + 1] } 0
    (fun x s => tmmaBody x s f m.toNat d.toNat (2 * a.toNat) (2 * b.toNat)) s

/-- TZERO (R267). -/
def execTzero (z : Bool) (d : BitVec 3) (f : BitVec 1) (s : State) : Host.Outcome State Fault Refusal :=
  issue (.tzero z d f) {} 0 (fun x s =>
    enterWindow x s f 0 { noTile with op := 1, acc := d.toNat } []
      (some ⟨true, false, false, false, [], rowTable (List.replicate 128 x.wcl)⟩)) s

/-- TTRN (R268). -/
def ttrnBody (x : Ctx) (s : State) (f : BitVec 1) (fmt d a : Nat) : Except Stop State := do
  let qd := gPair x d
  let qs := gPair x a
  let dd := descOf qd
  let ds := descOf qs
  let nb := chunkBytes fmt
  if !ttrnForm qd qs fmt then x.trapG s 0x02
  else
    checkAligned x s [ds.base, dd.base]
    checkExtent x s ds nb false a
    checkExtent x s dd nb true d
    let pas := (allPieces dd nb).map fun p => (p.1, piecePa x s true p)
    if x.replicated && pas.any (fun p => externalEntry x (p.2 / 64)) then x.trapG s 0x02
    else
      let s ← orderAccess x s (pas.map (·.2) ++ operandPas x s ds nb false)
      let (s, x) ← share x s (tileRecord x [d, d + 1, a, a + 1])
        (piecesAt x s (allPieces ds nb) ++ bandsAt x s ds ++ bandsAt x s dd)
      let lab := joinAll (piecesLabel x s false (allPieces ds nb) ::
        [a, a + 1, d, d + 1].map x.w.regs.labG ++ [x.wcl])
      match pas.find? fun p => !dominates (granLabel s.mem p.2) lab with
      | some p => x.trapL s 0x03 x.grp (wd (p.1 / 64 * 64)) lab (granLabel s.mem p.2)
      | none =>
        let r ← publishTile x s (pas.map (·.2))
        let o : TileOp := { noTile with op := 2, fmt := fmt, a := qd, b := qs, ra := d, rb := a, ext := x.ext, lost := r.2 }
        enterWindow x r.1 f 0 o [d, d + 1, a, a + 1] none

/-- TTRN (R268). -/
def execTtrn (z : Bool) (d a : BitVec 5) (m : BitVec 4) (f : BitVec 1) (s : State) :
    Host.Outcome State Fault Refusal :=
  issue (.ttrn z d a m f)
    { rg := [2 * d.toNat, 2 * d.toNat + 1, 2 * a.toNat, 2 * a.toNat + 1] } 0
    (fun x s => ttrnBody x s f m.toNat (2 * d.toNat) (2 * a.toNat)) s

/-- TSCL (R269). -/
def execTscl (z : Bool) (d : BitVec 3) (i : BitVec 16) (f : BitVec 1) (s : State) :
    Host.Outcome State Fault Refusal :=
  issue (.tscl z d i f) {} 0 (fun x s =>
    let n := x.w.nameOf d.toNat
    if !n.held || (n.tset && n.int) then x.trapG s 0x02
    else enterWindow x s f 0 { noTile with op := 3, acc := d.toNat, imm := i } []
      (some { n with rows := rowTable ((List.range 128).map fun r => joinL (n.row r) x.wcl) })) s

/-- TLDA (R270). -/
def execTlda (z : Bool) (d : BitVec 3) (a : BitVec 6) (f : BitVec 1) (s : State) :
    Host.Outcome State Fault Refusal :=
  issue (.tlda z d a f) { rg := [a.toNat] } 0 (fun x s => do
    let v := x.w.regs.getG a.toNat
    let base := bits v 0 32
    if bits v 33 31 ≠ 0 then x.trapG s 0x02
    else
      checkAligned x s [base]
      match (List.range 1024).find? fun i => (galPa x s (base + 64 * i) 64 false).isNone with
      | some i => boundsTrap x s a.toNat 0 (i / 8)
      | none =>
        let s ← orderAccess x s ((List.range 1024).map fun i => piecePa x s false (base + 64 * i, 64))
        let (s, x) ← share x s (tileRecord x [a.toNat])
          (piecesAt x s ((List.range 1024).map fun i => (base + 64 * i, 64)))
        let rows := (List.range 128).map fun r => joinAll [
          piecesLabel x s false ((List.range 8).map fun i => (base + 512 * r + 64 * i, 64)),
          x.w.regs.labG a.toNat, x.wcl]
        enterWindow x s f v { noTile with op := 4, acc := d.toNat, addr := v, ra := a.toNat, ext := x.ext } [a.toNat]
          (some ⟨true, true, bit v 32, true, [0x3F80#16, 0x3F80#16, 0x3F80#16, 0x3F80#16], rowTable rows⟩)) s

/-- The bias values' pieces (R272). -/
def biasPieces (o : TileOp) : List (Nat × Nat) :=
  if blkBiasen o then (List.range 8).map fun i => (numAt o.blk 12 4 + 64 * i, 64) else []

/-- The checks of a drain on an undamaged parameter block that its labels do not take part in: steps 5 and 6 of R260 (R271,
R273).  A bias extent has K-step 0 and row 0 (log entry 21). -/
def drainExtents (x : Ctx) (s : State) (o : TileOp) : Except Stop Unit := do
  let d := outDesc o.blk
  let nb := outBytes (blkOfmt o)
  let bias := numAt o.blk 12 4
  if !blockOk (o.op == 6) o.blk then x.trapG s 0x02
  else
    checkAligned x s [d.base, bias]
    if (biasPieces o).any (fun p => (galPa x s p.1 p.2 false).isNone) then boundsTrap x s 0xFF 0 0
    else
      checkExtent x s d nb true 0xFF
      let pas := (allPieces d nb).map fun p => piecePa x s true p
      if !disjointAll (allPieces d nb) ||
          (o.op == 6 && pas.any fun pa => pa / 2 ^ 20 != pas.headD 0 / 2 ^ 20) ||
          (x.replicated && pas.any fun pa => externalEntry x (pa / 64)) then x.trapG s 0x02
      else .ok ()

/-- The label check of a drain: step 7 of R260, row by row (R273). -/
def drainLabels (x : Ctx) (s : State) (o : TileOp) (q0 : Label) (n : NameSt) : Except Stop Unit :=
  let q := joinL q0 (piecesLabel x s false (biasPieces o))
  let row (m : Nat) : List (Nat × Nat) := (List.range 2).flatMap fun t => pieces (outDesc o.blk) (outBytes (blkOfmt o)) t m
  let bad (m : Nat) : Option (Nat × Nat) := (row m).find? fun p =>
    !dominates (granLabel s.mem (piecePa x s true p)) (joinL (n.row m) q)
  match (List.range 128).findSome? fun m => (bad m).map fun p => (m, p) with
  | some (m, p) => .error (.trap { x.mkTrap 0x03 with
      addr := wd (p.1 / 64 * 64), aux := wd m, srcl := some (joinL (n.row m) q)
      dstl := some (granLabel s.mem (piecePa x s true p)) } s)
  | none => .ok ()

/-- TDRAIN and TDRAIN.ADD (R264, R271, R273).  The parameter block is read at issue, without a wait for an earlier instruction that
is to write it (R257, R275; log entry 21). -/
def drainBody (x : Ctx) (s : State) (f : BitVec 1) (op acc a : Nat) : Except Stop State := do
  let v := x.w.regs.getG a
  let n := x.w.nameOf acc
  if !n.held || !n.tset || bits v 32 32 ≠ 0 then x.trapG s 0x02
  else
    checkAligned x s [v.toNat]
    match galPa x s v.toNat 64 false with
    | none => x.trap s 0x08 x.grp v 0
    | some pa =>
      let s ← orderAccess x s [pa]
      let s := dropSnapshots s x.core [pa]
      let (s, x) ← share x s (tileRecord x [a]) [(pa, 64)]
      let r := tileRead x s pa 64
      let cap := pieceLabel x s pa
      let o := { noTile with op := op, acc := acc, addr := v, blk := r.1, blkDmg := r.2.any id, cap := cap, ra := a }
      if !o.blkDmg then drainExtents x s o
      let out := if o.blkDmg then [] else operandPas x s (outDesc o.blk) (outBytes (blkOfmt o)) true
      let s ← orderAccess x s (out ++ readPas x s o)
      let (s, x) ← if o.blkDmg then .ok (s, x) else share x s (tileRecord x [a]) (piecesAt x s (biasPieces o))
      if !o.blkDmg then drainLabels x s o (joinAll [cap, x.w.regs.labG a, x.wcl]) n
      let r ← publishTile x s out
      enterWindow x r.1 f v { o with ext := x.ext, lost := r.2 } [a] (if freesTile o then some NameSt.free else some n)

/-- TDRAIN (R273). -/
def execTdrain (z : Bool) (d : BitVec 3) (a : BitVec 6) (f : BitVec 1) (s : State) :
    Host.Outcome State Fault Refusal :=
  issue (.tdrain z d a f) { rg := [a.toNat] } 0 (fun x s => drainBody x s f 5 d.toNat a.toNat) s

/-- TDRAIN.ADD (R273). -/
def execTdrainAdd (z : Bool) (d : BitVec 3) (a : BitVec 6) (f : BitVec 1) (s : State) :
    Host.Outcome State Fault Refusal :=
  issue (.tdrainAdd z d a f) { rg := [a.toNat] } 0 (fun x s => drainBody x s f 6 d.toNat a.toNat) s

/-- A pending tile instruction works on an accumulator name (R257). -/
def worksOn (p : Pend) (acc : Nat) : Bool :=
  match p.work with
  | .tile o => o.op != 2 && o.acc == acc
  | _ => false

/-- The word of TSTAT (R274). -/
def tstatWord (t : Tile) : Word :=
  wd (2 ^ 63 + b2n t.tset * 2 ^ 62 + b2n t.int * 2 ^ 61 + b2n t.bset * 2 ^ 60 + b2n (t.dsc != 0x3F800000#32) * 2 ^ 59 +
    t.dmgCount * 2 ^ 43 + t.dmgFirst)

/-- TSTAT (R257, R274): its clause stalls until the earlier tile instructions on its tile have completed. -/
def execTstat (z : Bool) (d : BitVec 6) (a : BitVec 3) (s : State) : Host.Outcome State Fault Refusal :=
  issue (.tstat z d a) { wg := [d.toNat] } 0 (fun x s =>
    if x.w.pend.any (worksOn · a.toNat) then .error (.stall s)
    else
      let c := s.core x.core
      let v := match tileIx c x.wk a.toNat with
        | some i => tstatWord (aget Tile.free c.tiles i)
        | none => 0
      writeG x s d.toNat v x.wcl) s

/-! ## The matrix engine (R255, R258, R264, R289, R290) -/

/-- The operations a unit of work executes, in order. -/
def unitOps (u : TileUnit) : List TileOp :=
  if u.repl.isEmpty then u.orig.filterMap tileOf else u.repl.map (·.2)

/-- The names that a unit must bind before it can execute (R255): those of its TZEROs and TLDAs that are not held. -/
def unbound (c : Core) (u : TileUnit) : List Nat :=
  ((unitOps u).filter fun o => (o.op == 1 || o.op == 4) && (tileIx c u.warp o.acc).isNone).map (·.acc)

/-- The first unit of quadrant `q` whose warp does not wait for a tile. -/
def quadUnit (c : Core) (q : Nat) : Option TileUnit :=
  c.engine.find? fun u => u.warp % 32 / 8 == q && !c.allocs.contains u.warp

/-- The unit that the engine serves next: its quadrants round-robin, after the last one served (R258). -/
def nextUnit (c : Core) : Option (Nat × TileUnit) :=
  let last := aget 7 c.last 4
  ((List.range 4).map fun i => (last + 1 + i) % 4).findSome? fun q => (quadUnit c q).map fun u => (q, u)

/-- A free tile bound to a name (R255). -/
def bindTile (c : Core) (wk name : Nat) : Core :=
  match freeTile c with
  | some i => { c with tiles := kset c.tiles i (zeroedTile (wk, name)) }
  | none => c

/-- The tiles that a unit's allocations can bind at once; none when one must wait. -/
def bindUnit (c : Core) (u : TileUnit) : Option Core :=
  let names := unbound c u
  if names.isEmpty then some c
  else if c.allocs.isEmpty && decide (names.dedup.length + c.tiles.length ≤ 8) then
    some (names.dedup.foldl (fun c n => bindTile c u.warp n) c)
  else none

/-- One operation of a unit executed on its core: the state with its tile changed, and what it did.  What it reads at home
leaves the core's snapshot (R181). -/
def engineOp (x : Ctx) (s : State) (o : TileOp) : State × TileDone :=
  let s := dropSnapshots s x.core (readPas x s o)
  let c := s.core x.core
  match tileIx c x.wk o.acc with
  | some i =>
    let r := runTileOp x s o (aget Tile.free c.tiles i)
    (if o.op = 2 then s else s.setCore x.core { c with tiles := kset c.tiles i r.tile }, r)
  | none => (s, runTileOp x s o Tile.free)

/-- Gallery writes performed at their home banks (R259), each granule leaving the core's snapshot. -/
def performWrites (x : Ctx) (s : State) (ws : List (Nat × List Byte)) : State :=
  ws.foldl (fun s p => dropSnapshot (homeWrite s p.1 p.2) x.core p.1) s

/-- The tile that a drain frees (R255). -/
def freeBound (s : State) (core wk name : Nat) : State :=
  s.modCore core fun c => { c with tiles := c.tiles.filter fun p => p.2.owner != some (wk, name) }

/-- The publication of R259 for some writes: what it discarded, if anything.  A replica's was at issue (publishTile). -/
def publishFor (x : Ctx) (s : State) (ws : List (Nat × List Byte)) : State × Option (Nat × Label × Label) :=
  if x.replicated then (s, none)
  else match publishGranules x s (ws.map (·.1 / 64)) with
  | .ok s => (s, none)
  | .error (.trap t s) => (s, some (t.addr.toNat, t.srcl.getD [], t.dstl.getD []))
  | .error _ => (s, none)

/-- The mark of a tile write whose publication failed (R259, R358). -/
def lostMark (p : Pend) (f : Nat × Label × Label) : FlagMark :=
  { markFor p 0x03 (wd f.1) 0 0 with srcl := some f.2.1, dstl := some f.2.2 }

/-- A completed tile instruction: its flag clears, with a mark if there is one. -/
def finishTile (s : State) (wk : Nat) (p : Pend) (m : Option FlagMark) : State :=
  let s := s.modWarp wk fun w => match m with
    | some m => w.markPend p m
    | none => w.dropPend p.id
  tileExit s wk

/-- The mark of damage met by a tile instruction (R264, R361). -/
def tileDamage (p : Pend) (r : TileDone) : Option FlagMark :=
  if r.dmg then some (markFor p 0x0D (wd r.ga) 2 0) else none

/-- Damage that a stopped group met and that its replayed original reads no more: it was transient, and is logged (R5, R290). -/
def logTransient (x : Ctx) (s : State) (u : TileUnit) (o : TileOp) : State :=
  if u.met.isEmpty then s
  else
    let gs := (readPas x s o).map (· / 64)
    (u.met.filter fun g => gs.contains g && !granDamaged s (g * 64)).foldl (fun s g => s.notify 10 [4, x.core, g] []) s

/-- One instruction executed by the engine: its writes follow their publication, then a drain frees its tile (R259,
R264). -/
def runSingle (x : Ctx) (s : State) (u : TileUnit) (p : Pend) (o : TileOp) : State :=
  let p := { p with rule := u.rule }
  let x := { x with ext := o.ext }
  let s := logTransient x s u o
  match u.failed.or o.lost with
  | some f => finishTile s x.wk p (some (lostMark p f))
  | none =>
    let r := engineOp x s o
    if r.2.writes.isEmpty then finishTile r.1 x.wk p (tileDamage p r.2)
    else
      let q := publishFor x r.1 r.2.writes
      match q.2 with
      | some f => finishTile q.1 x.wk p (some (lostMark p f))
      | none =>
        let s := performWrites x q.1 r.2.writes
        let s := if freesTile o then freeBound s x.core x.wk o.acc else s
        finishTile s x.wk p (tileDamage p r.2)

/-- A unit taken off the engine, and its quadrant served. -/
def takeUnit (s : State) (core q : Nat) (u : TileUnit) : State :=
  s.modCore core fun c => { c with engine := c.engine.erase u, last := aset 7 c.last 4 q }

/-- The context in which the engine executes a warp's tile instructions. -/
def engineCtx (s : State) (wk : Nat) : Option Ctx := ctxOf s wk ⟨0, 0, 0, 15, 15, []⟩ 0

/-- TILE_ALLOCATE (R255): the first warp that waits for a tile binds a free one. -/
def execTileAllocate (c : Nat) (s : State) : Host.Outcome State Fault Refusal :=
  let k := s.core c
  match k.allocs with
  | [] => .next s
  | wk :: rest =>
    match k.engine.find? (·.warp == wk) with
    | none => .next (s.setCore c { k with allocs := rest })
    | some u =>
      match unbound k u with
      | [] => .next (s.setCore c { k with allocs := rest })
      | n :: ns =>
        if (freeTile k).isNone then .next s
        else .next (s.setCore c { bindTile k wk n with allocs := if ns.isEmpty then rest else k.allocs })

/-- A unit whose allocation must wait joins the waiters (R255). -/
def waitTile (s : State) (c : Nat) (u : TileUnit) : State :=
  s.modCore c fun k => { k with allocs := k.allocs ++ [u.warp] }

/-- TILE_EXECUTE (R258): the engine executes the next instruction, unless it belongs to a group or waits for a tile. -/
def execTileExecute (c : Nat) (s : State) : Host.Outcome State Fault Refusal :=
  match nextUnit (s.core c) with
  | none => .next s
  | some (q, u) =>
    match u.repl, u.orig with
    | [], [p] =>
      match engineCtx s u.warp, tileOf p with
      | some x, some o =>
        match bindUnit (s.core c) u with
        | none => .next (waitTile s c u)
        | some k => .next (runSingle x (takeUnit (s.setCore c k) c q u) u p o)
      | _, _ => .next (takeUnit s c q u)
    | _, _ => .next s

/-! ## Groups (R283, R287 to R290) -/

/-- The bands that a replacement reads only when the group executes (R283): none when they are out of bounds or
damaged. -/
def lateBands (x : Ctx) (s : State) (o : TileOp) : Option TileOp :=
  let side (k : Nat) (q : Word × Word) : Option (List (BitVec 16)) :=
    if o.late / 2 ^ k % 2 = 0 then some ((o.bands.drop (2 * k)).take 2)
    else
      let d := descOf q
      if (galPa x s d.sbase 4 false).isNone || d.sbase % 64 != 0 then none
      else
        let r := bandsOf x s d
        if r.2 != 0 then none else some r.1
  match side 0 o.a, side 1 o.b with
  | some a, some b => some { o with bands := a ++ b }
  | _, _ => none

/-- The granules of the band scales that a replacement reads only when the group executes and that are damaged (R283). -/
def lateDamage (x : Ctx) (s : State) (o : TileOp) : List Nat :=
  ([(0, o.a), (1, o.b)].filter fun p => o.late / 2 ^ p.1 % 2 == 1).filterMap fun p =>
    match galPa x s (descOf p.2).sbase 4 false with
    | some pa => if (bandsOf x s (descOf p.2)).2 != 0 then some (pa / 64) else none
    | none => none

/-- A drain's checks fail on its captured parameter block (R260, R289). -/
def drainFails (x : Ctx) (s : State) (o : TileOp) : Bool := !o.blkDmg && match drainExtents x s o with
  | .ok _ => false
  | .error _ => true

/-- A replacement's step would trap (R260, R266, R269, R273, R289): its name is not held at that step, its tile is not of its type
or bands or has no TSET, or its operands have not the form that its operation needs or cannot be accessed.  The labels are the
originals' (R287). -/
def stepTraps (x : Ctx) (s : State) (held : List Nat) (o : TileOp) : Bool :=
  let da := descOf o.a
  let db := descOf o.b
  let nb := chunkBytes o.fmt
  let t := ((tileIx (s.core x.core) x.wk o.acc).map (aget Tile.free (s.core x.core).tiles)).getD Tile.free
  match o.op with
  | 0 => !held.contains o.acc || !tmmaForm o.a o.b o.fmt || da.base % 64 != 0 || db.base % 64 != 0 || (t.tset && t.int != (o.fmt == 5)) ||
      (extentFails x s da nb false).isSome || (extentFails x s db nb false).isSome || (t.bset && t.bands != o.bands)
  | 2 => !ttrnForm o.a o.b o.fmt || da.base % 64 != 0 || db.base % 64 != 0 || (extentFails x s db nb false).isSome ||
      (extentFails x s da nb true).isSome ||
      (x.replicated && (operandPas x s da nb true).any fun pa => externalEntry x (pa / 64))
  | 3 => !held.contains o.acc || (t.tset && t.int)
  | 5 => !held.contains o.acc || !t.tset || drainFails x s o
  | 6 => !held.contains o.acc || !t.tset || drainFails x s o
  | 7 => !held.contains o.acc
  | _ => false

/-- The names that a warp holds (R255). -/
def heldNames (c : Core) (wk : Nat) : List Nat := (List.range 8).filter fun n => (tileIx c wk n).isSome

/-- The names held after a step (R255): TZERO and TLDA bind, a drain that frees unbinds. -/
def heldAfter (held : List Nat) (o : TileOp) : List Nat :=
  if o.op = 1 || o.op = 4 then o.acc :: held else if freesTile o then held.filter (· != o.acc) else held

/-- The steps of a group (R289), from the names held before it: the operation at which damage, a trap or a band stops it, or the
state after them with the writes. -/
def groupSteps (x : Ctx) : List Nat → State → List TileOp → Except TileOp (State × List (Nat × List Byte))
  | _, s, [] => .ok (s, [])
  | held, s, o :: t =>
    match lateBands x s o with
    | none => .error o
    | some p =>
      let r := engineOp x s p
      if stepTraps x s held p || r.2.dmg then .error o
      else (groupSteps x (heldAfter held p) r.1 t).map fun q => (q.1, r.2.writes ++ q.2)

/-- The original that the failed publication of a group's writing step belongs to (R290): the drain of its operation, or the
TTRN that writes the same pair. -/
def isWriter (u : TileUnit) (o : TileOp) : Bool :=
  (unitOps u).any fun w => (w.op == 2 || w.op == 5 || w.op == 6) && o.op == w.op && (w.op != 2 || o.a == w.a)

/-- The originals of a stopped group, to be executed one at a time (R290). -/
def replayUnits (u : TileUnit) (failed : Option (Nat × Label × Label)) (met : List Nat) : List TileUnit :=
  u.orig.map fun p => ⟨u.warp, u.rule, [p], [], if (tileOf p).any (isWriter u) then failed else none, met⟩

/-- A stopped group replays (R290): its originals stand at the head of the engine's work, and REPLAYS counts it. -/
def replayGroup (s : State) (c : Nat) (u : TileUnit) (failed : Option (Nat × Label × Label)) (met : List Nat) : State :=
  let s := s.modWarp u.warp fun w => { w with counters := addCounter w.counters 0x103 1 }
  s.modCore c fun k => { k with engine := replayUnits u failed met ++ k.engine }

/-- The damaged granules that a group's steps read. -/
def damageMet (x : Ctx) (s : State) (u : TileUnit) : List Nat :=
  (((unitOps u).flatMap (readPas x s)).filter (granDamaged s)).map (· / 64) |>.dedup

/-- A group that a step stops (R289): everything is as before it, but for a damaged band that only the group reads, which is
logged as corrected (R283). -/
def stopGroup (x : Ctx) (s : State) (c : Nat) (u : TileUnit) (o : TileOp) : State :=
  replayGroup ((lateDamage x s o).foldl (fun s g => s.logCorrected (g / 16384) (.granule (g % 16384))) s) c u none
    (damageMet x s u)

/-- A group executed as one unit (R289): its steps with the tiles `k` that it binds, then its publication and its writes; the
flags of its originals clear.  Where it stops, nothing of it stays, no binding either. -/
def runGroup (x : Ctx) (s : State) (c : Nat) (u : TileUnit) (k : Core) : State :=
  let x := { x with ext := (u.orig.filterMap tileOf).flatMap (·.ext) }
  match groupSteps x (heldNames (s.core c) u.warp) (s.modCore c fun q => { q with tiles := k.tiles }) (unitOps u) with
  | .error o => stopGroup x s c u o
  | .ok (t, ws) =>
    if (u.orig.filterMap tileOf).any (·.lost.isSome) then replayGroup s c u none []
    else
    let q := if ws.isEmpty then (t, none) else publishFor x t ws
    match q.2 with
    | some f => replayGroup ((publishFor x s ws).1) c u (some f) []
    | none =>
      let s := performWrites x q.1 ws
      let s := (unitOps u).foldl (fun s o => if freesTile o then freeBound s x.core x.wk o.acc else s) s
      u.orig.foldl (fun s p => finishTile s x.wk p none) s

/-- FLOWSTONE_GROUP_EXECUTE (R289): the engine executes the next rewritten group. -/
def execFlowstoneGroupExecute (c : Nat) (s : State) : Host.Outcome State Fault Refusal :=
  match nextUnit (s.core c) with
  | none => .next s
  | some (q, u) =>
    if u.repl.isEmpty then .next s
    else match engineCtx s u.warp with
      | none => .next (takeUnit s c q u)
      | some x =>
        match bindUnit (s.core c) u with
        | none => .next (waitTile s c u)
        | some k => .next (runGroup x (takeUnit s c q u) c u k)

end Sys2Proof.Machine
end

