-- ==== Sys2Proof/Machine/System.lean ====
section
/-! DEFINITION. The system class (R384 to R389): TRAP, TRET and what it issues again (R357), SREAD, SWRITE, CLKR, RAND
and HALT. -/
namespace Sys2Proof.Machine

/-! ## TRAP (R384) -/

/-- TRAP (R384): SOFTWARE; its handler resumes at the clause after this one. -/
def execTrap (i : BitVec 16) (s : State) : Host.Outcome State Fault Refusal :=
  issueMove (.trap i) {} 0 (fun x s =>
    .error (.trap { x.mkTrap 0x12 with aux := zx i, run := none, resume := x.pc + 4 } s)) s

/-! ## Issuing an instruction again (R357) -/

/-- RAND's draw, once for all replicas (R343, R388): nothing when the source is disabled. -/
def randTake (x : Ctx) (s : State) : Except Stop (State × List LaneRes) := do
  let r ← onceOp x s [opRecord x x.wcl 0 []] fun s =>
    match drawRandom s with
    | (s, some v) => .ok (s, [v], [])
    | (s, none) => .ok (s, [], [])
  .ok (r.1, r.2.1.map fun v => ⟨0, v, x.wcl, false⟩)

/-- A ring instruction issued again (R357): it takes its place at the ring, or is marked again (R239, R240, R249). -/
def reissueRing (x : Ctx) (s : State) (p : Pend) (l : LaneOp) (push : Bool) : State :=
  match rejoinRing x s p l push (nextId s x.wk) with
  | .error m => addMark s x.wk m
  | .ok s => addPend s x.wk p p.work [] 0

/-- A recorded instruction issued again from its captured operands (R357), with the ORD before it (R200). -/
def reissue (x : Ctx) (s : State) (p : Pend) : Except Stop State :=
  match p.work with
  | .load _ size sx ls => loadBody x s p size sx ls
  | .gload _ l => loadBody x s p 8 false [l]
  | .xrnd _ ls => xrndStart x s p ls
  | .atomic (some reg) op size ls => atomrStart x s p reg op size ls
  | .atomic none op size ls => atomStart x s p op size ls
  | .push _ l => .ok (reissueRing x s p l true)
  | .pop _ _ l => .ok (reissueRing x s p l false)
  | .rand _ => do
    let r ← randTake x s
    .ok (addPend r.1 x.wk p p.work r.2 1)
  | .tile o => do
    let (s, y) ← share { x with ext := [] } s (tileRecord x [o.ra]) (extPieces x s o)
    let r ← publishTile x s (writePas x s o)
    let work := .tile { o with ext := y.ext ++ o.ext, lost := r.2 }
    let s := r.1.modWarp x.wk fun w =>
      { w with window := w.window ++ [{ p with id := w.issued, work := work }], issued := w.issued + 1 }
    .ok (if 7 ≤ x.w.window.length then flushWindow s x.wk else s)
  | .etail _ => .ok ((received s (x.handover p.id)).modWarp x.wk fun w => { w with held := w.held ++ [⟨0, p, 0, []⟩] })
  | .special _ => .ok (addPend s x.wk p p.work p.res 1)
  | .launch _ _ _ _ => .ok (addPend s x.wk p p.work p.res p.stage)

/-- The context in which a recorded instruction is issued again: its word, its ORD, and the warp as it stands. -/
def againCtx (x : Ctx) (s : State) (p : Pend) : Ctx :=
  { x with word := p.word, w := { (s.warp x.wk).getD x.w with ord := p.ord } }

/-- A recorded instruction has been issued again: its Echo events are over, and its flag counts (R357). -/
def reissued (w : Warp) (p : Pend) (rest : List Pend) : Warp :=
  { w with passed := [], got := [], handler := w.handler.map fun h => { h with again := rest, flags := h.flags ++ p.flag.toList } }

/-- Recorded instructions issued again, in order. -/
def reissueAll (x : Ctx) : State → List Pend → Except Stop State
  | s, [] => .ok s
  | s, p :: t => do
    let s ← reissue (againCtx x s p) s p
    reissueAll x (s.modWarp x.wk fun w => reissued w p t) t

/-! ## TRET (R385) -/

/-- The wait of a warp that a trap at a reading instruction stopped (R357): for the flags of what was issued again. -/
def waitFlags (w : Warp) (h : Handler) : Warp :=
  if h.rword = 0 then w else ({ w with wait := .flags h.flags } : Warp).settle

/-- TRET's body (R385): the recorded instructions are issued again, and the trapping group resumes. -/
def tretBody (x : Ctx) (s : State) : Except Stop State :=
  match x.w.handler with
  | none => x.trapG s 0x02
  | some h =>
    if h.grp &&& x.w.live &&& ~~~x.grp ≠ 0 then x.trapG s 0x02
    else if x.w.j.any (fun p => p.2.armed && p.2.fresh) then x.trapG s 0x02
    else do
      let s ← reissueAll x s h.again
      .ok (s.modWarp x.wk fun w =>
        let w := { w with run := none, yielded := w.yieldNew &&& ~~~w.exited, yieldNew := 0, passed := [] }
        evalRejoins (waitFlags (returnFromTrap w h) (w.handler.getD h)))

/-- TRET (R385). -/
def execTret (s : State) : Host.Outcome State Fault Refusal :=
  settle s.cur ((runBody .tret {} 0 true tretBody (preIssue .tret s)).map fun r => r.2)

/-! ## SREAD and SWRITE (R383, R386) -/

/-- A system register read into a G register: its value and label (R383). -/
def sysValue (x : Ctx) (s : State) (r : Nat) : Word × Label :=
  let w := x.wcl
  if r = 0 then (wd (handleOf s x.asid w), w)
  else if r = 2 then (wd x.w.index, w)
  else if r = 3 then (x.w.slim, w)
  else if r = 4 then (wd x.lr.ownact, w)
  else if r = 5 then ((s.core x.core).latec, w)
  else if r = 0x11 then (wd x.w.index, w)
  else if 0x12 ≤ r ∧ r ≤ 0x17 then (wd (x.lr.lvl x.blk.b (r - 0x10)), w)
  else if 0x20 ≤ r ∧ r ≤ 0x27 then (aget 0 x.w.tfw (r - 0x20), x.w.tfl)
  else if 0x30 ≤ r ∧ r ≤ 0x3F then (wd (nth 0 x.lr.prins (r - 0x30) % 2 ^ 24), w)
  else (0, w)

/-- The registers of R383 that SREAD writes to a V register: LANE and LVL0. -/
def perLane (r : Nat) : Bool := r == 1 || r == 0x10

/-- SREAD (R386). -/
def execSread (z : Bool) (d : BitVec 6) (s0 : BitVec 11) (s : State) : Host.Outcome State Fault Refusal :=
  issue (.sread z d s0) (if perLane s0.toNat then { wv := [d.toNat] } else { wg := [d.toNat] }) 0 (fun x s =>
    if perLane s0.toNat then
      writeV x s d.toNat ((lanesOf x.grp).map fun l => (l, wd l, x.wcl))
    else writeG x s d.toNat (sysValue x s s0.toNat).1 (sysValue x s s0.toNat).2) s

/-- SWRITE (R386): SLIM only, from public data. -/
def execSwrite (z : Bool) (a : BitVec 6) (s0 : BitVec 11) (s : State) : Host.Outcome State Fault Refusal :=
  issue (.swrite z a s0) { rg := [a.toNat, 0, 63] } 0 (fun x s =>
    let v := x.w.regs.getG a.toNat
    let src := groupLabel x [a.toNat]
    if s0.toNat ≠ 3 then x.trapG s 0x02
    else if src ≠ [] then x.trapL s 0x05 x.grp 0 src []
    else if bits v 0 4 ≠ 0 || decide (v.toNat < (x.w.regs.getG 0).toNat) || decide ((x.w.regs.getG 63).toNat < v.toNat) then
      x.trapG s 0x02
    else .ok (s.modWarp x.wk fun w => { w with slim := v })) s

/-! ## CLKR and RAND (R387, R388) -/

/-- The core's cycle count as it stands now: it has moved on by a free number of cycles (R387, log entry 1). -/
def tickClock (s : State) (core : Nat) : State × Word :=
  let v := (s.core core).clk + 1 + Config.freeWord s.free
  ((s.modCore core fun c => { c with clk := v }).drew, v)

/-- CLKR (R387): the committing replica's core counts (R343). -/
def execClkr (z : Bool) (d : BitVec 6) (s : State) : Host.Outcome State Fault Refusal :=
  issue (.clkr z d) { wg := [d.toNat] } 0 (fun x s => do
    let r ← onceOp x s [opRecord x x.wcl 0 []] fun s =>
      let q := tickClock s x.core
      .ok (q.1, [q.2], [])
    writeG x r.1 d.toNat (nth 0 r.2.1 0) x.wcl) s

/-- RAND (R388): the draw is taken at issue, and written when the flag clears. -/
def execRand (z : Bool) (d : BitVec 6) (f : BitVec 1) (s : State) : Host.Outcome State Fault Refusal :=
  issue (.rand z d f) { wg := [d.toNat] } 0 (fun x s => do
    let r ← randTake x s
    .ok (startPend x r.1 (x.flag f) (.rand d.toNat) r.2 1)) s

/-! ## HALT (R389, R398) -/

/-- The record of a halted warp (R398). -/
def haltRecord (x : Ctx) : Word × Word :=
  (wd (x.asid % 2 ^ 13 * 2 ^ 51 + x.w.index % 2 ^ 5 * 2 ^ 46 + x.core % 2 ^ 10 * 2 ^ 36 + x.blk.b % 2 ^ 32),
   wd (x.slot % 2 ^ 5 * 2 ^ 52 + bits x.pc 0 52))

/-- A record entered in the halt queue, or after it when its 64 entries are full (R398). -/
def postHalt (s : State) (r : Word × Word) : State :=
  s.modHub fun h =>
    let d := h.debugBlock
    { h with
      hseq := h.hseq + 1
      debugBlock := if d.halts.length < 64 then { d with halts := d.halts ++ [r] } else { d with late := d.late ++ [r] } }

/-- HALT (R389). -/
def execHalt (s : State) : Host.Outcome State Fault Refusal :=
  issueMove .halt {} 0 (fun x s =>
    if !(s.asidOf x.asid).dbg || x.replicated then x.trapG s 0x13
    else
      let s := moveLanes s x.wk [(x.grp, x.pc + 4)]
      .ok (postHalt (s.modWarp x.wk fun w => { w with status := .halted, haltPc := x.pc }) (haltRecord x))) s

end Sys2Proof.Machine
end

