-- ==== Sys2Proof/Machine/Debug.lean ====
section
/-! DEFINITION. The debug block (R398): commands on a halted warp, and the halt queue. -/
namespace Sys2Proof.Machine

/-- The key of the warp that DSEL selects. -/
def selectedWarp (s : State) : Nat := bits s.hub.debugBlock.dsel 5 10 * 32 + bits s.hub.debugBlock.dsel 0 5

/-- The selected warp, if it answers (R398): HALT stopped it, and its ASID has DBG set. -/
def debugTarget (s : State) : Option Ctx :=
  match ctxOf s (selectedWarp s) ⟨0, 0, 0, 15, 15, []⟩ 0 with
  | none => none
  | some x => if x.w.status = .halted && (s.asidOf x.asid).dbg then some x else none

/-- The system registers of R383, by the low 6 bits of their numbers. -/
def sysNamed (r : Nat) : Bool := decide (r ≤ 5) || decide (0x10 ≤ r ∧ r ≤ 0x17) || decide (0x20 ≤ r ∧ r ≤ 0x27) || decide (0x30 ≤ r)

/-- The item that DREG names: its value and label; none for an item that the table does not allow.  A PC carries no label. -/
def debugItem (x : Ctx) (s : State) : Option (Word × Label) :=
  let d := s.hub.debugBlock.dreg
  let r := bits d 6 6
  let l := bits d 0 5
  let q := x.w.regs
  match bits d 12 4 with
  | 0 => some (q.getV r l, q.labV r l)
  | 1 => some (q.getG r, q.labG r)
  | 2 => if r < 8 then some (wd (b2n ((q.getP r).getLsbD l)), q.labP r l) else none
  | 3 => if r < 8 then some (zx (q.getM r), q.labM r) else none
  | 4 => if !sysNamed r then none else if perLane r then some (wd l, x.wcl) else some (sysValue x s r)
  | 5 => some (x.w.pcOf l, [])
  | _ => none

/-- A command's result in DSTAT: 1 done, 2 refused. -/
def debugStat (s : State) (n : Nat) : State := s.modHub fun h => { h with debugBlock := { h.debugBlock with dstat := n } }

/-- DEBUG_READ (R398): the selected item into DDATA, and its label handle into DLABEL. -/
def execDebugRead (s : State) : Host.Outcome State Fault Refusal :=
  match debugTarget s with
  | none => .next (debugStat s 2)
  | some x => match debugItem x s with
    | none => .next (debugStat s 2)
    | some v => .next (debugStat (s.modHub fun h =>
        { h with debugBlock := { h.debugBlock with ddata := v.1, dlabel := wd (handleOf s x.asid v.2) } }) 1)

/-- DEBUG_WRITE (R398): DDATA into the selected V or G register, whose label stays. -/
def execDebugWrite (s : State) : Host.Outcome State Fault Refusal :=
  match debugTarget s with
  | none => .next (debugStat s 2)
  | some x =>
    let d := s.hub.debugBlock.dreg
    let r := bits d 6 6
    let l := bits d 0 5
    let q := x.w.regs
    let put (q : WRegs) : State := debugStat (s.modWarp x.wk fun w => { w with regs := q }) 1
    match bits d 12 4 with
    | 0 => .next (put (q.setV r l s.hub.debugBlock.ddata (q.labV r l)))
    | 1 => .next (put (q.setG r s.hub.debugBlock.ddata (q.labG r)))
    | _ => .next (debugStat s 2)

/-- DEBUG_RESUME (R398): the selected warp goes on at the clause after HALT's; a freeze or a pre-emption that came meanwhile
holds it first. -/
def execDebugResume (s : State) : Host.Outcome State Fault Refusal :=
  match debugTarget s with
  | none => .next (debugStat s 2)
  | some x =>
    let w : Warp := { x.w with status := .running, haltPc := 0 }
    let s := s.setWarp x.wk w
    let req := requestOf s x.wk
    .next (debugStat (s.setWarp x.wk
      (if 2 ≤ (s.partOf (x.part s)).state then { w with status := .preempted, request := .running }
       else if (s.core x.core).frozen then { w with status := .frozen, request := req } else { w with request := req })) 1)

/-- DPOP (R398): the head record leaves the halt queue, and the first record that waits for an entry takes it. -/
def execDpop (s : State) : Host.Outcome State Fault Refusal :=
  .next (s.modHub fun h =>
    let d := h.debugBlock
    if d.halts.isEmpty then h
    else { h with debugBlock := { d with halts := d.halts.drop 1 ++ d.late.take 1, late := d.late.drop 1 } })

end Sys2Proof.Machine
end

