-- ==== Sys2Proof/Machine/Tiers.lean ====
section
/-! DEFINITION. Tiers: migrations (R315, R316), hot-page trackers (R314), row-hammer throttles (R317) and command/address
parity alerts (R400). -/
namespace Sys2Proof.Machine

/-! ## Controllers -/

/-- A memory controller. -/
def State.ctrl (s : State) (m : Nat) : Controller := aget Controller.zero s.hub.ctrls m
/-- A state with one controller changed. -/
def State.modCtrl (s : State) (m : Nat) (f : Controller → Controller) : State :=
  s.modHub fun h => { h with ctrls := aset Controller.zero h.ctrls m (f (aget Controller.zero h.ctrls m)) }

/-! ## Frames and pools (R401) -/

/-- The bytes of a frame, a 512 KiB page's, as a shift. -/
def frameBytes : Nat := 2 ^ 19
/-- A tier's free pool replaced. -/
def Hub.setPool (h : Hub) (tier : Nat) (l : List Nat) : Hub := if tier = 0 then { h with pool0 := l } else { h with pool1 := l }
/-- A frame put into a tier's free pool. -/
def addFrame (s : State) (tier f : Nat) : State := s.modHub fun h => h.setPool tier (insNat f (h.pool tier))

/-- The frame of a leaf. -/
def Leaf.frame (lf : Leaf) : Nat := bits lf.dw 19 33
/-- TIER of a leaf's tag (R219). -/
def Leaf.tier (lf : Leaf) : Nat := bits lf.tag 35 2
/-- MLOCK of a leaf's tag (R219). -/
def Leaf.mlock (lf : Leaf) : Bool := bit lf.tag 34
/-- A leaf with MLOCK set or clear. -/
def Leaf.withMlock (lf : Leaf) (on : Bool) : Leaf :=
  { lf with tag := if on then lf.tag ||| 1#64 <<< 34 else lf.tag &&& ~~~(1#64 <<< 34) }
/-- A leaf of another frame and tier (R316). -/
def Leaf.moved (lf : Leaf) (f tier : Nat) : Leaf :=
  ⟨(lf.dw &&& 0xFFF000000007FFFF#64) ||| wd (f % 2 ^ 33) <<< 19, (lf.tag &&& ~~~(3#64 <<< 35)) ||| wd (tier % 4) <<< 35⟩

/-! ## Page tables (R395) -/

/-- The entries of a page table that are not zero, of its first `n`: index and entry. -/
def State.entriesOf (s : State) (table n : Nat) : List (Nat × Leaf) :=
  (s.hub.ptes.filter fun p => decide (table / 16 ≤ p.1) && decide (p.1 < table / 16 + n)).map fun (p : Nat × Leaf) => (p.1 - table / 16, p.2)

/-- The pages that the tables of an address space map: the number of the first 512 KiB of each, its leaf, and the number of its
offset bits; a 32 MiB page stands once, by its first entry. -/
def mappedPages (s : State) (asid : Nat) : List (Nat × Leaf × Nat) :=
  (s.entriesOf (s.rootOf asid) 4096).flatMap fun a =>
    if !pointerOk a.2 then []
    else (s.entriesOf (tableOf a.2) 1024).flatMap fun b =>
      let first := a.1 * 2 ^ 21 + b.1 * 2 ^ 11
      if leafOk b.2 3 30 then [(first, b.2, 30)]
      else if !pointerOk b.2 then []
      else (s.entriesOf (tableOf b.2) 2048).filterMap fun c =>
        if leafOk c.2 1 19 then some (first + c.1, c.2, 19)
        else if leafOk c.2 2 25 && c.1 % 64 == 0 then some (first + c.1, c.2, 25) else none

/-- A leaf written where the tables of an address space lead for a page of 2^`sh` bytes; a 32 MiB page has 64 entries. -/
def setLeaf (s : State) (asid va sh : Nat) (lf : Leaf) : State :=
  match table2 s asid va with
  | none => s
  | some t =>
    if sh = 30 then s.setPte t (ix2 va) lf
    else match s.below t (ix2 va) with
      | none => s
      | some u => (List.range (2 ^ (sh - 19))).foldl (fun s k => s.setPte u (ix3 va + k) lf) s

/-- The leaf of a 512 KiB page. -/
def smallLeaf (s : State) (asid page : Nat) : Option Leaf :=
  match leafAt s asid (page * frameBytes) with
  | some (lf, 19) => some lf
  | _ => none
/-- A 512 KiB page's leaf replaced. -/
def setSmall (s : State) (asid page : Nat) (lf : Leaf) : State := setLeaf s asid (page * frameBytes) 19 lf

/-! ## MIGR (R316) -/

/-- A migration replaced in the hub's list. -/
def setMigration (s : State) (i : Nat) (m : Migration) : State :=
  s.modHub fun h => { h with migrations := setNth h.migrations i m }
/-- A migration that is over. -/
def dropMigration (s : State) (i : Nat) : State := s.modHub fun h => { h with migrations := h.migrations.eraseIdx i }

/-- A chain's context has left its core. -/
def chainAway (s : State) (key : Nat) : Bool := s.contexts.any fun x => (kget x.chains key).isSome

/-- The entry that asked for a migration ends with a code (R302, R315, R316). -/
def endAsker (s : State) (key num code fva : Nat) : State :=
  match kget s.chains key with
  | none => s
  | some c => match c.entries.find? (·.num == num) with
    | none => s
    | some e =>
      if e.code ≠ 0 then s
      else if 0x10 ≤ code then failEntry s key c e ⟨code, fva, none⟩
      else endEntry s key c { e with code := code } (openDone e)

/-- Migration `i` over: its entry ends with a code, at once or when its context is back (R308), and a tracker's own counts
in MIGRATED when it completed (R314). -/
def closeMigration (s : State) (i : Nat) (m : Migration) (code : Nat) : State :=
  match m.entry with
  | none =>
    let s := dropMigration s i
    if code = 1 then s.modCtrl m.mc fun c => { c with migrated := c.migrated + 1 } else s
  | some (key, num) =>
    if code = 1 && chainAway s key then setMigration s i { m with begun := false, pieces := 2048 }
    else endAsker (dropMigration s i) key num code (m.page * frameBytes)

/-- A migration begun (R316 step 1): MLOCK set, the lowest frame of the target tier's pool taken, no piece copied. -/
def beginMigration (s : State) (i : Nat) (m : Migration) : State :=
  match mayMigrate s m.asid m.page m.tier, smallLeaf s m.asid m.page, s.hub.pool m.tier with
  | true, some lf, f :: rest =>
    let s := s.modHub fun h => h.setPool m.tier rest
    let s := setSmall s m.asid m.page (lf.withMlock true)
    setMigration s i { m with old := lf.frame, new := f, pieces := 0, begun := true }
  | _, _, _ => closeMigration s i m 2

/-- The copy of one 256-byte piece (R316 step 2). -/
def copyPiece (s : State) (o n k : Nat) : State :=
  (List.range 4).foldl (fun s j =>
    let at_ := 256 * k + 64 * j
    writeLine s (n * frameBytes + at_) (readBytes s.mem.dram (o * frameBytes + at_) 64)) s

/-- A migration that cannot go on: its new frame returns to the pool (log entry 17). -/
def abandonMigration (s : State) (i : Nat) (m : Migration) (code : Nat) : State :=
  closeMigration (addFrame s m.tier m.new) i m code

/-- The switch of the page table entry (R316 step 4): the new frame and TIER, MLOCK clear, the old frame to its pool. -/
def switchPage (s : State) (i : Nat) (m : Migration) (lf : Leaf) : State :=
  let s := setSmall s m.asid m.page ((lf.moved m.new m.tier).withMlock false)
  let s := addFrame s lf.tier m.old
  closeMigration s i m 1

/-- One step of a migration that has begun.  A contained controller of its new frame does not stop it (log entry 17). -/
def runMigration (s : State) (i : Nat) (m : Migration) : State :=
  match smallLeaf s m.asid m.page with
  | none => abandonMigration s i m 2
  | some lf =>
    if lf.frame ≠ m.old || !lf.mlock then abandonMigration s i m 2
    else if m.pieces < 2048 then
      if contained s (m.old * frameBytes) then
        abandonMigration (setSmall s m.asid m.page (lf.withMlock false)) i m 0x15
      else setMigration (copyPiece s m.old m.new m.pieces) i { m with pieces := m.pieces + 1 }
    else switchPage s i m lf

/-- MIGR (R316): migration `m` of the hub's list begins, copies its next piece, switches its page table entry, or tells its
entry. -/
def execMigr (m : Nat) (s : State) : Host.Outcome State Fault Refusal :=
  match s.hub.migrations[m]? with
  | none => .next s
  | some g =>
    if g.begun then .next (runMigration s m g)
    else if g.pieces = 2048 then .next (closeMigration s m g 1)
    else .next (beginMigration s m g)

/-! ## HPT_EPOCH_END (R314, R315) -/

/-- The mapped pages of a controller's channels: the address space, the number of the page's first 512 KiB, the leaf, and whether
the page is of 512 KiB. -/
def trackedPages (s : State) (m : Nat) : List (Nat × Nat × Leaf × Bool) :=
  (s.hub.asids.filter (·.2.valid)).flatMap fun a =>
    ((mappedPages s a.1).filter fun p => Config.controllerOf (p.2.1.frame * frameBytes) == m).map fun p =>
      (a.1, p.1, p.2.1, p.2.2 == 19)

/-- The tier that a tracker would move a page to after `n` accesses (R314). -/
def wantedTier (s : State) (c : Controller) (lf : Leaf) (n : Nat) : Option Nat :=
  if lf.tier = 1 && decide (bits c.hptc 48 16 ≤ n) then some 0
  else if lf.tier = 0 && decide (n ≤ bits c.hptc 32 16) && decide (s.hub.pool0.length < s.hub.poolwm.toNat % 2 ^ 32) then some 1
  else none

/-- One page judged at the end of an epoch: proposed, or counted in SKIPPED (R315); the hub event arbiter orders the
proposals. -/
def judgePage (m : Nat) (s : State) (p : (Nat × Nat × Leaf × Bool) × Nat) : State :=
  match wantedTier s (s.ctrl m) p.1.2.2.1 p.2 with
  | none => s
  | some t =>
    if p.1.2.2.2 && bits p.1.2.2.1.tag 32 3 == 0 then
      let s := (nextSeq s).1
      let s := s.modHub fun h => { h with migrations := h.migrations ++ [⟨p.1.1, p.1.2.1, t, 0, 0, 0, false, m, none⟩] }
      s.modCtrl m fun c => { c with proposed := c.proposed + 1 }
    else s.modCtrl m fun c => { c with skipped := c.skipped + 1 }

/-- HPT_EPOCH_END (R314): the tracker of controller `m` proposes moves.  How many accesses of an epoch reach its channels
through the memory-side caches is timing, so each count is a free value (log entry 1). -/
def execHptEpochEnd (m : Nat) (s : State) : Host.Outcome State Fault Refusal :=
  if Config.controllers ≤ m then .next s
  else
    let ps := trackedPages s m
    let counted := ps.zipIdx.map fun p => (p.1, (Config.freeWord (s.free + p.2)).toNat)
    let s := { s with free := s.free + ps.length }
    let s := s.modCtrl m fun c => { c with counts := counted.foldl (fun t p => kset t p.1.2.2.1.frame p.2) [] }
    if !bit (s.ctrl m).hptc 0 then .next s else .next (counted.foldl (judgePage m) s)

/-! ## ROW_HAMMER_THROTTLE (R317, R399) -/

/-- RHTH in force (R399): a smaller value behaves as 256. -/
def Controller.threshold (c : Controller) : Nat := max 256 (bits c.rhcfg 16 16)

/-- ROW_HAMMER_THROTTLE (R317): a row has reached the threshold in the refresh window.  The throttle changes no value and no
order; whether a new window has begun since the last throttle is timing, a free value (log entry 1). -/
def execRowHammerThrottle (m row : Nat) (s : State) : Host.Outcome State Fault Refusal :=
  if Config.controllers ≤ m then .next s
  else .next (s.drew.modCtrl m fun c =>
    { c with rows := kset (if Config.freeBool s.free then [] else c.rows) row c.threshold })

/-! ## CA_PARITY_ALERT (R400) -/

/-- A controller contained (R400, R401): its frames leave the pools, and a notice goes to the supervisor. -/
def containController (s : State) (m : Nat) : State :=
  let keep (f : Nat) : Bool := Config.controllerOf (f * frameBytes) != m
  let s := s.modCtrl m fun c => { c with contained := true }
  (s.modHub fun h => { h with pool0 := h.pool0.filter keep, pool1 := h.pool1.filter keep }).notify 7 [m] []

/-- CA_PARITY_ALERT (R400): a replay that succeeds is a transient, counted and logged; a second alert on the same command
contains the controller.  Alerts are of the HBM4E controllers, 0 to 11. -/
def execCaParityAlert (m : Nat) (again : Bool) (s : State) : Host.Outcome State Fault Refusal :=
  if 12 ≤ m || (s.ctrl m).contained then .next s
  else if again then .next (containController s m)
  else .next ((s.modCtrl m fun c => { c with careplay := c.careplay + 1 }).notify 10 [2, m] [])

end Sys2Proof.Machine
end

