-- ==== Sys2Proof/Machine/Driver.lean ====
section
/-! DEFINITION. The driver's registers (R393, R394, R396 to R399) as they are written and as the host reads them, the
communicator table (R318), module reset and the thermal stop (R411). -/
namespace Sys2Proof.Machine

/-! ## The communicator table (R318) -/

/-- The buffer units that valid communicators reserve, but for one. -/
def reserved (s : State) (n : Nat) : Nat :=
  ((s.hub.comms.filter fun p => p.1 != n && p.2.valid).map fun p => p.2.resv).sum

/-- Dword 0 of an entry keeps to R318. -/
def commDwOk (s : State) (n : Nat) (v : Word) : Bool :=
  let c : Comm := ⟨v, []⟩
  bits v 0 33 == 0 && (!c.valid || (decide (1 ≤ c.nrank) && decide (c.nrank ≤ 64) && decide (2 ≤ c.resv) &&
    decide (reserved s n + c.resv ≤ 256)))

/-- The ranks of an entry with two of them written; an entry whose ranks are all zero lists none. -/
def withRanks (rs : List Nat) (j : Nat) (v : Word) : List Nat :=
  let full := (List.range 64).map (nth 0 rs)
  let new := setNth (setNth full (2 * j) (bits v 0 32)) (2 * j + 1) (bits v 32 32)
  if new.all (· == 0) then [] else new

/-- An entry has a collective outstanding (R318). -/
def commBusy (s : State) (n : Nat) : Bool := s.hub.parcels.any (·.comm == n)

/-- An entry changed: it is a new communicator, whose collectives are numbered from 0 (R320, log entry 18). -/
def newComm (s : State) (n : Nat) (c : Comm) : State :=
  s.modHub fun h => { h with comms := aset Comm.zero h.comms n c, colls := h.colls.filter fun p => p.1 / 64 != n }

/-- COMM_TABLE_WRITE (R318, R393): a dword of the table at byte `off`; a write that would break R318 is discarded, and COMMERR
is set. -/
def execCommTableWrite (off : Nat) (v : Word) (s : State) : Host.Outcome State Fault Refusal :=
  let n := off / 512
  let o := off % 512
  if 64 ≤ n || off % 8 ≠ 0 then .next s
  else
    let c := aget Comm.zero s.hub.comms n
    let ok := !commBusy s n && (if o = 0 then commDwOk s n v
      else if o ≤ 0x100 then bits v 0 11 == 0 && bits v 32 11 == 0
      else v == 0)
    if !ok then .next (s.modHub fun h => { h with commerr := h.commerr ||| 1 })
    else if o = 0 then .next (newComm s n { c with dw := v })
    else if o ≤ 0x100 then .next (newComm s n { c with ranks := withRanks c.ranks ((o - 8) / 8) v })
    else .next s

/-! ## BAR0 registers (R393, R396 to R399) -/

/-- A launch of an address space exists (R394): from its verdict to its completion. -/
def asidBusy (s : State) (a : Nat) : Bool := s.launches.any fun p => p.2.asid == a && p.2.completed.isNone

/-- A launch of a partition is placed (R396). -/
def partBusy (s : State) (p : Nat) : Bool :=
  s.launches.any fun l => (s.asidOf l.2.asid).part == p && l.2.completed.isNone && !l.2.gangs.isEmpty

/-- Bits [hi:lo] of a value, in place. -/
def keepBits (v : Word) (lo n : Nat) : Word := wd (bits v lo n * 2 ^ lo)

/-- A register of partition block `p` (R396, R397): PCTL's REQ values 1 and 2 are the steps PREEMPT_REQUEST and
RESUME_REQUEST, and 3 is discarded. -/
def writePartition (s : State) (p o : Nat) (v : Word) : State :=
  let discard := s.modPart p fun q => { q with rej := true }
  if o = 0 then
    match bits v 0 2 with
    | 0 => s.modPart p fun q => { q with rej := false }
    | 3 => discard
    | _ => s
  else if o = 0x10 then s.modPart p fun q => { q with csa := keepBits v 22 30 }
  else if o = 0x18 then
    if partBusy s p || decide (Config.cores < bits v 0 10) then discard
    else s.modPart p fun q => { q with maplen := bits v 0 10 }
  else if 0x400 ≤ o ∧ o < 0x400 + 2 * Config.cores ∧ o % 2 = 0 then
    if partBusy s p || decide (Config.cores ≤ bits v 0 10) then discard
    else s.modPart p fun q => { q with smap := aset 0 q.smap ((o - 0x400) / 2) (bits v 0 10) }
  else s

/-- A register of memory controller block `c` (R314, R399). -/
def writeController (s : State) (c o : Nat) (v : Word) : State :=
  if o = 0 then s.modCtrl c fun q => { q with hptc := v &&& 0xFFFFFFFFFFFF0001#64 }
  else if o = 0x20 then s.modCtrl c fun q => { q with rhcfg := keepBits v 0 32 }
  else s

/-- A register of the Lantern mailbox (R405): a dword of the request, or GO.  A CMD that names no command is malformed. -/
def writeMailbox (s : State) (o : Nat) (v : Word) : State :=
  s.modHub fun h =>
    let m := h.mailbox
    if o < 0x40 ∧ o % 8 = 0 then { h with mailbox := { m with request := aset 0 m.request (o / 8) v } }
    else if o = 0x80 ∧ bit v 0 then
      let cmd := bits (aget 0 m.request 0) 0 8
      if 1 ≤ cmd ∧ cmd ≤ 0x0B then { h with mailbox := { m with go := true } }
      else { h with mailbox := { m with go := false, status := 5, response := [] } }
    else h

/-- A register of the debug block (R398); DPOP and DCMD are steps of their own. -/
def writeDebug (s : State) (o : Nat) (v : Word) : State :=
  s.modHub fun h =>
    let d := h.debugBlock
    if o = 0x20 then { h with debugBlock := { d with dsel := keepBits v 0 15 } }
    else if o = 0x28 then { h with debugBlock := { d with dreg := v &&& 0xFFDF#64 } }
    else if o = 0x30 then { h with debugBlock := { d with ddata := v } }
    else h

/-- An entry of the ASID table (R394): discarded while a launch of the ASID exists. -/
def writeAsidEntry (s : State) (a o : Nat) (v : Word) : State :=
  if asidBusy s a then s
  else s.modAsid a fun q =>
    if o = 0 then { q with dbg := bit v 62, part := bits v 0 6 }
    else if o = 8 then { q with ptroot := keepBits v 16 36 }
    else if o = 0x10 then { q with sumpd := v }
    else if o = 0x18 then { q with slogd := v }
    else q

/-- A hub register (R393); QTBASE and ASTBASE change only while EN = 0. -/
def writeHub (s : State) (o : Nat) (v : Word) : State :=
  s.modHub fun h =>
    let off := !bit h.hubctl 0
    if o = 0 then { h with hubctl := v &&& (if h.testFuse then 3 else 1) }
    else if o = 8 then (if off then { h with qtbase := keepBits v 19 33 } else h)
    else if o = 0x10 then (if off then { h with astbase := keepBits v 19 33 } else h)
    else if o = 0x18 then { h with poolwm := keepBits v 0 32 }
    else h

/-- The byte of the driver's space at which the ASID table's entries stand beside BAR0 (log entry 19). -/
def asidTableAt : Nat := 0x100000

/-- REGISTER_WRITE (R393): a register of BAR0, or a field of the ASID table, that has no step of its own. -/
def execRegisterWrite (off : Nat) (v : Word) (s : State) : Host.Outcome State Fault Refusal :=
  if off < 0x20 then .next (writeHub s off v)
  else if 0x20000 ≤ off ∧ off < 0x60000 then .next (writePartition s ((off - 0x20000) / 0x1000) (off % 0x1000) v)
  else if 0x60000 ≤ off ∧ off < 0x61000 then .next (writeController s ((off - 0x60000) / 0x100) (off % 0x100) v)
  else if off = 0x78000 then .next (s.modHub fun h => if bit v 0 then { h with commerr := 0 } else h)
  else if 0x80000 ≤ off ∧ off < 0x800C0 then .next (writeMailbox s (off - 0x80000) v)
  else if 0xA0000 ≤ off ∧ off < 0xA0100 then .next (writeDebug s (off - 0xA0000) v)
  else if asidTableAt ≤ off ∧ off < asidTableAt + 64 * Config.asids then
    .next (writeAsidEntry s ((off - asidTableAt) / 64) (off % 64) v)
  else .next s

/-! ## What the host reads (R390, R392, R393, R396 to R399, R403, R405) -/

/-- A dword of partition block `q` (R396). -/
def readPartition (q : Partition) (o : Nat) : Word :=
  if o = 0 then wd q.req
  else if o = 8 then wd (q.state + b2n q.pend * 2 ^ 3 + b2n q.rej * 2 ^ 4)
  else if o = 0x10 then q.csa
  else if o = 0x18 then wd q.maplen
  else if 0x400 ≤ o ∧ o < 0x400 + 2 * Config.cores then
    wd ((List.range 4).foldl (fun a i => a + aget 0 q.smap ((o - 0x400) / 2 + i) * 2 ^ (16 * i)) 0)
  else 0

/-- A dword of memory controller block `q` (R399). -/
def readController (q : Controller) (o : Nat) : Word :=
  match o with
  | 0x00 => q.hptc
  | 0x08 => q.proposed
  | 0x10 => q.migrated
  | 0x18 => q.skipped
  | 0x20 => q.rhcfg
  | 0x28 => q.careplay
  | 0x30 => wd (b2n q.contained)
  | _ => 0

/-- A dword of a communicator's entry (R318). -/
def readComm (c : Comm) (o : Nat) : Word :=
  if o = 0 then c.dw
  else if o ≤ 0x100 then wd (nth 0 c.ranks ((o - 8) / 4) + nth 0 c.ranks ((o - 8) / 4 + 1) * 2 ^ 32)
  else 0

/-- A dword of the Lantern mailbox (R405). -/
def readMailbox (m : Mailbox) (o : Nat) : Word :=
  if o < 0x40 then aget 0 m.request (o / 8)
  else if o < 0x80 then aget 0 m.response (o / 8 - 8)
  else if o = 0x80 then wd (m.status * 2 ^ 8 + b2n m.go)
  else 0

/-- A register of a Llynyo port (R403). -/
def readPort (p : Port) (o : Nat) : Word :=
  match o with
  | 0x00 => wd (p.peer * 2 ^ 8 + p.state)
  | 0x08 => p.retries
  | 0x10 => p.macfail
  | _ => 0

/-- A register of the debug block (R398). -/
def readDebug (d : Debug) (o : Nat) : Word :=
  match o with
  | 0x00 => wd (b2n (!d.halts.isEmpty) * 2 ^ 63 + d.halts.length)
  | 0x08 => (nth (0, 0) d.halts 0).1
  | 0x10 => (nth (0, 0) d.halts 0).2
  | 0x20 => d.dsel
  | 0x28 => d.dreg
  | 0x30 => d.ddata
  | 0x38 => d.dlabel
  | 0x40 => 0
  | 0x48 => wd d.dstat
  | _ => 0

/-- A hub register (R393, R401). -/
def readHub (h : Hub) (o : Nat) : Word :=
  match o with
  | 0x00 => h.hubctl
  | 0x08 => h.qtbase
  | 0x10 => h.astbase
  | 0x18 => h.poolwm
  | 0x20 => wd (h.pool1.length * 2 ^ 32 + h.pool0.length)
  | _ => 0

/-- THE HOST'S READ of the dword at a byte offset of BAR0 (R393): of the capability space with the current values (R390, R392).
An offset that R393 does not name reads as 0. -/
def readBar0 (s : State) (off : Nat) : Word :=
  let h := s.hub
  if 2 ^ 20 ≤ off ∨ off % 8 ≠ 0 then 0
  else if off < 0x10000 then readHub h off
  else if off < 0x20000 then capDword s (capNow s) (off - 0x10000)
  else if off < 0x60000 then readPartition (s.partOf ((off - 0x20000) / 0x1000)) (off % 0x1000)
  else if off < 0x61000 then readController (s.ctrl ((off - 0x60000) / 0x100)) (off % 0x100)
  else if 0x70000 ≤ off ∧ off < 0x78000 then readComm (aget Comm.zero h.comms ((off - 0x70000) / 512)) (off % 512)
  else if off = 0x78000 then h.commerr
  else if 0x80000 ≤ off ∧ off < 0x800C0 then readMailbox h.mailbox (off - 0x80000)
  else if 0x90000 ≤ off ∧ off < 0x90000 + 0x40 * Config.ports then readPort (aget Port.zero h.ports ((off - 0x90000) / 0x40)) (off % 0x40)
  else if 0xA0000 ≤ off ∧ off < 0xA0100 then readDebug h.debugBlock (off - 0xA0000)
  else 0

/-! ## MODULE_RESET and THERMAL_STOP (R411) -/

/-- MODULE_RESET (R411): everything but the fuses returns to its reset value; the model's own agenda and counter of free
values go on. -/
def execModuleReset (s : State) : Host.Outcome State Fault Refusal :=
  .next { State.reset with
    hub := { Hub.zero with testFuse := s.hub.testFuse, moduleNumber := s.hub.moduleNumber }
    free := s.free
    agenda := s.agenda }

/-- THERMAL_STOP (R411): the module stops and drops the host link; nothing moves until a module reset. -/
def execThermalStop (s : State) : Host.Outcome State Fault Refusal :=
  .next (s.modHub fun h => { h with thermal := true, hostSession := false, ideKeys := [] })

end Sys2Proof.Machine
end

