-- ==== Sys2Proof/Machine/EchoOps.lean ====
section
/-! DEFINITION. The Echo class (R353 to R356): ERID, ESIG, ESTAT and EINJ. -/
namespace Sys2Proof.Machine

/-- Replica `r`'s core for the issuing block (R332). -/
def replicaCore (x : Ctx) (r : Nat) : Option Nat := (nth [] x.gang.cores r)[x.blk.b % x.lr.gangBlocks]?

/-- The word of ERID (R353). -/
def eridWord (x : Ctx) : Word :=
  let core (r : Nat) : Nat := if x.replicated then (replicaCore x r).getD 0x3FF else if r = 0 then x.core else 0
  wd (core 0 * 2 ^ 54 + core 1 * 2 ^ 44 + core 2 * 2 ^ 34 + x.gang.commit % 4 * 2 ^ 32 + x.lr.repl * 2 ^ 30)

/-- ERID (R353). -/
def execErid (z : Bool) (d : BitVec 6) (s : State) : Host.Outcome State Fault Refusal :=
  issue (.erid z d) { wg := [d.toNat] } 0 (fun x s => do
    let r ← onceOp x s [opRecord x x.wcl 0 []] fun s => .ok (s, [eridWord x], [])
    writeG x r.1 d.toNat (nth 0 r.2.1 0) x.wcl) s

/-- The records that a release at the widest scope would publish now (R354). -/
def heldRecords (x : Ctx) : List Record := releaseRecords x x.w x.lr.top []

/-- The labels of those records. -/
def heldLabels (x : Ctx) : List Label := (published x x.w x.lr.top).map (·.lab) ++ x.w.items.map (·.l.lab)

/-- ESIG (R354): each replica for itself; nothing changes but the two registers. -/
def execEsig (z : Bool) (d : BitVec 5) (s : State) : Host.Outcome State Fault Refusal :=
  issue (.esig z d) { wg := [2 * d.toNat, 2 * d.toNat + 1] } 0 (fun x s => do
    let g := signature s x.asid (heldRecords x)
    let lab := joinAll (x.wcl :: heldLabels x)
    let s ← writeG x s (2 * d.toNat) (wd g.1) lab
    writeG x s (2 * d.toNat + 1) (wd (g.2.2 * 2 ^ 32 + g.2.1)) lab) s

/-- The word of ESTAT (R355). -/
def estatWord (x : Ctx) : Word :=
  wd (x.lr.repl * 2 ^ 62 + b2n (decide (x.gang.live.length < x.lr.repl)) * 2 ^ 61 + b2n x.gang.echoAgain * 2 ^ 60 +
    min x.la.vloss 0xFF * 2 ^ 52 + min x.la.recln 0xFF * 2 ^ 44 + min x.la.strag 0xFF * 2 ^ 36 + x.w.commits % 2 ^ 32)

/-- ESTAT (R355). -/
def execEstat (z : Bool) (d : BitVec 6) (s : State) : Host.Outcome State Fault Refusal :=
  issue (.estat z d) { wg := [d.toNat] } 0 (fun x s => do
    let r ← onceOp x s [opRecord x x.wcl 0 []] fun s => .ok (s, [estatWord x], [])
    writeG x r.1 d.toNat (nth 0 r.2.1 0) x.wcl) s

/-- One bit of a word flipped. -/
def flipBit (v : Word) (k : Nat) : Word := v ^^^ (1#64 <<< k)

/-- The registers with the bit that EINJ names flipped, labels unchanged (R356). -/
def injected (q : WRegs) (a b : Word) : WRegs :=
  let r := bits a 3 6
  let k := bits b 0 6
  let l := bits b 6 5
  if bit a 2 then { q with g := aset 0 q.g r (flipBit (q.getG r) k) }
  else { q with v := aset 0 q.v (32 * r + l) (flipBit (q.getV r l) k) }

/-- EINJ (R356). -/
def execEinj (z : Bool) (a b : BitVec 6) (s : State) : Host.Outcome State Fault Refusal :=
  issue (.einj z a b) { rg := [a.toNat, b.toNat] } 0 (fun x s =>
    let va := x.w.regs.getG a.toNat
    let vb := x.w.regs.getG b.toNat
    if !s.hub.testFuse || !bit s.hub.hubctl 1 then x.trapG s 0x13
    else if bits va 9 55 ≠ 0 || bits vb 11 53 ≠ 0 then x.trapG s 0x02
    else if x.lr.repl ≤ bits va 0 2 then x.trapG s 0x02
    else if bits va 0 2 = x.blk.rep then .ok (s.modWarp x.wk fun w => { w with regs := injected w.regs va vb })
    else .ok s) s

end Sys2Proof.Machine
end

