-- ==== Sys2Proof/Machine/Fabric.lean ====
section
/-! DEFINITION. Llynyo ports (R403, R407), link keys (R408) and SPDM messages (R402, R404). -/
namespace Sys2Proof.Machine

/-- A port. -/
def State.port (s : State) (k : Nat) : Port := aget Port.zero s.hub.ports k
/-- A state with one port replaced. -/
def State.setPort (s : State) (k : Nat) (p : Port) : State :=
  s.modHub fun h => { h with ports := aset Port.zero h.ports k p }

/-- A port carries traffic (R403, R408): it is up, and its key has not stalled. -/
def Port.carries (p : Port) : Bool := p.state == 3 && !p.stalled

/-- A flit that fails (R407): dropped and retried once; a second failure quarantines the port. -/
def Port.failFlit (p : Port) (mac : Bool) : Port :=
  if p.retrying then { p with state := 4, retrying := false }
  else { p with retrying := true, macfail := if mac then p.macfail + 1 else p.macfail }

/-- The owner set that a peer's label handle names, by the table exchanged at attestation (R224). -/
def Port.setOf (p : Port) (asid h : Nat) : Option Label := if h = 0 then some [] else kget p.labels (asid * 2 ^ 12 + h)

/-- A delivered flit's handles translated (R224): the label's handle here, bound when the set has none (R209), and the ACL's,
none for one that allows no principal.  Without a handle for the label, or with one that the exchanged table does not
hold, the transfer is dropped with LABEL-EXHAUSTED (log entry 27). -/
def deliverFlit (s : State) (k : Nat) (p : Port) (f : Flit) : State :=
  match (p.setOf f.asid f.label).bind fun l => (bindLabel s f.asid l).map fun t => (t, handleOf t f.asid l) with
  | some r => r.1.setPort k { p with
      delivered := p.delivered + 1
      arrived := some (f.asid, r.2, if f.acl = 0 then some 0 else kget p.acls (f.asid * 2 ^ 20 + f.acl)) }
  | none => s.setPort k { p with status := 0x07 }

/-- FLIT_RECEIVE (R407): error correction first, then the MAC on the corrected ciphertext; a delivered flit carries a label
handle and an ACL handle of an ASID (R224).  A retry that succeeds is a transient, counted and logged (R5). -/
def execFlitReceive (k : Nat) (correctable : Bool) (flit : Flit) (s : State) :
    Host.Outcome State Fault Refusal :=
  let p := s.port k
  if Config.ports ≤ k || !p.carries || 2 ^ 44 ≤ p.invocations then .next s
  else
    let p := if correctable then { p with invocations := p.invocations + 1 } else p
    if !correctable then .next (s.setPort k (p.failFlit false))
    else if !flit.macOk then .next (s.setPort k (p.failFlit true))
    else if p.retrying then
      .next ((deliverFlit s k { p with retries := p.retries + 1, retrying := false } flit).notify 10 [4, k] [])
    else .next (deliverFlit s k p flit)

/-- LINK_KEY_UPDATE_REQUEST (R408): a port's key reaches 2^40 invocations: a new key is asked for, and traffic continues. -/
def execLinkKeyUpdateRequest (k : Nat) (s : State) : Host.Outcome State Fault Refusal :=
  let p := s.port k
  if Config.ports ≤ k || !p.carries || p.requested then .next s
  else .next (s.setPort k { p with invocations := max p.invocations (2 ^ 40), requested := true })

/-- LINK_KEY_STALL (R408): a port's key reaches 2^44 invocations: traffic under it stalls. -/
def execLinkKeyStall (k : Nat) (s : State) : Host.Outcome State Fault Refusal :=
  let p := s.port k
  if Config.ports ≤ k || !p.carries || !p.requested then .next s
  else .next (s.setPort k { p with invocations := max p.invocations (2 ^ 44), stalled := true })

/-- LINK_KEY_INSTALL (R408): the key that a port asked for is installed, and stalled traffic resumes. -/
def execLinkKeyInstall (k : Nat) (s : State) : Host.Outcome State Fault Refusal :=
  let p := s.port k
  if Config.ports ≤ k || !p.requested then .next s
  else .next (s.setPort k { p with invocations := 0, requested := false, stalled := false })

/-- A collection made of pairs: the last of two with one key stands. -/
def tabOf {β : Type} (l : List (Nat × β)) : Tab β := l.foldl (fun t p => kset t p.1 p.2) []

/-- PORT_ATTEST (R403): a port that trains reaches attestation; a port that attests comes up, with a new key, once the two
Lantern pairs have attested each other and exchanged their handle translations (R224). -/
def execPortAttest (k peer : Nat) (result : Attested) (s : State) : Host.Outcome State Fault Refusal :=
  let p := s.port k
  if Config.ports ≤ k then .next s
  else if p.state ≤ 1 then .next (s.setPort k { p with state := 2, peer := peer % 256 })
  else if p.state = 2 && result.ok then
    .next (s.setPort k { p with
      state := 3, peer := peer % 256, invocations := 0, requested := false, stalled := false, retrying := false
      labels := tabOf result.labels, acls := tabOf result.acls })
  else .next s

/-- PORT_RETRAIN (R403): a quarantined port trains again. -/
def execPortRetrain (k : Nat) (s : State) : Host.Outcome State Fault Refusal :=
  let p := s.port k
  if Config.ports ≤ k || p.state ≠ 4 then .next s
  else .next (s.setPort k { p with state := 1, retrying := false })

/-- The four measurements of R404. -/
def measurements (s : State) : List Word :=
  [Config.measurement 0, Config.measurement 1, Config.measurement 2,
    Config.measurement (if s.hub.testFuse then 4 else 3)]

/-- SPDM_REQUEST (R402, R404, R405): kind 0 GET_MEASUREMENTS; kind 1 sets up a secured session, an address space's, or the
host's for 8,192 and above; kind 2 programs an IDE key of stream `arg`, 0 the link's and 1 to 8 the selective ones, inside
the host's session. -/
def execSpdmRequest (kind arg : Nat) (s : State) : Host.Outcome State Fault Refusal :=
  if kind = 0 then .next (s.modHub fun h => { h with spdm := measurements s })
  else if kind = 1 then
    if Config.asids ≤ arg then .next (s.modHub fun h => { h with hostSession := true })
    else if (s.asidOf arg).valid then .next (s.modAsid arg fun a => { a with session := true })
    else .next s
  else if kind = 2 && s.hub.hostSession && decide (arg ≤ 8) then
    .next (s.modHub fun h => { h with ideKeys := insNat arg h.ideKeys })
  else .next s

end Sys2Proof.Machine
end

