-- ==== Sys2Proof/Machine/Float.lean ====
section
/-! DEFINITION. The reductions (R108, R109) and the floating class (R128 to R140). -/
namespace Sys2Proof.Machine

/-- The type that w names on floating instructions (R16): F32X2, BF16X4 or F16X4. -/
def typeOf (w : BitVec 2) : Fmt := if w = 0 then fp32 else if w = 1 then bf16 else fp16

/-! ## Reductions (R108, R109) -/

/-- combine(x, y) of an op code (R32, R108), and the width of its elements. -/
def combineOp (o : Nat) (w : BitVec 2) : Nat × (Nat → Nat → Nat) :=
  let n := widthOf w
  match o with
  | 0 => (n, fun x y => (x + y) % 2 ^ n)
  | 1 => (n, minS n)
  | 2 => (n, maxS n)
  | 3 => (n, minZ n)
  | 4 => (n, maxZ n)
  | 5 => (n, (· &&& ·))
  | 6 => (n, (· ||| ·))
  | 7 => (n, (· ^^^ ·))
  | 8 => ((typeOf w).width, addF (typeOf w))
  | 9 => ((typeOf w).width, minmaxF (typeOf w) false)
  | _ => ((typeOf w).width, minmaxF (typeOf w) true)

/-- A combination in which an absent operand is never combined (R108). -/
def combineOpt (f : Nat → Nat → Nat) : Option Nat → Option Nat → Option Nat
  | some x, some y => some (f x y)
  | some x, none => some x
  | none, y => y

/-- One step of the reduction tree: neighbours combined. -/
def pairUp (f : Nat → Nat → Nat) : List (Option Nat) → List (Option Nat)
  | x :: y :: t => combineOpt f x y :: pairUp f t
  | r => r

/-- A result of a floating operation of VRED or VSCAN: a NaN that no other operand has met becomes the canonical one (R120). -/
def reduced (o : Nat) (w : BitVec 2) (v : Nat) : Nat := if o < 8 then v else canonF (typeOf w) v

/-- The fixed tree of VRED over 32 lanes (R108). -/
def reduceTree (f : Nat → Nat → Nat) (x : List (Option Nat)) : Nat :=
  ((pairUp f (pairUp f (pairUp f (pairUp f (pairUp f x))))).headD none).getD 0

/-- One step of the scan tree, at distance `s` (R108). -/
def scanStep (f : Nat → Nat → Nat) (s : Nat) (x : List (Option Nat)) : List (Option Nat) :=
  (List.replicate s none ++ x).zipWith (combineOpt f) x

/-- The fixed tree of VSCAN over 32 lanes (R108). -/
def scanTree (f : Nat → Nat → Nat) (x : List (Option Nat)) : List (Option Nat) :=
  scanStep f 16 (scanStep f 8 (scanStep f 4 (scanStep f 2 (scanStep f 1 x))))

/-- Element `k` of each contributing lane, by lane (R108). -/
def contributions (q : WRegs) (a n k : Nat) (act : Mask) : List (Option Nat) :=
  (List.range 32).map fun l => if act.getLsbD l then some (elemOf n k (q.getV a l)) else none

/-- g0 with WCL (R109): the join of the guard labels of every lane that has not exited. -/
def guardJoin (x : Ctx) (g : Nat) : Label := joinAll ((lanesOf x.w.live).map (x.w.regs.labP g) ++ [x.w.wcl])

/-- VRED (R108, R109): every contributor receives the reduction. -/
def execVred (z : Bool) (g : BitVec 3) (d a o : BitVec 6) (w : BitVec 2) (s : State) :
    Host.Outcome State Fault Refusal :=
  issue (.vred z g d a o w) { rv := [a.toNat], rp := [g.toNat], wv := [d.toNat] } (guardLanes s g.toNat) (fun x s =>
    let act := x.grp &&& x.w.regs.getP g.toNat
    let c := combineOp o.toNat w
    let v := wd (packElems c.1 ((List.range (64 / c.1)).map fun k =>
      reduced o.toNat w (reduceTree c.2 (contributions x.w.regs a.toNat c.1 k act))))
    let lab := joinAll (guardJoin x g.toNat :: (lanesOf act).map (x.w.regs.labV a.toNat))
    writeV x s d.toNat ((lanesOf act).map fun l => (l, v, lab))) s

/-- VSCAN (R108, R109): each contributor receives the inclusive scan up to it. -/
def execVscan (z : Bool) (g : BitVec 3) (d a o : BitVec 6) (w : BitVec 2) (s : State) :
    Host.Outcome State Fault Refusal :=
  issue (.vscan z g d a o w) { rv := [a.toNat], rp := [g.toNat], wv := [d.toNat] } (guardLanes s g.toNat) (fun x s =>
    let act := x.grp &&& x.w.regs.getP g.toNat
    let c := combineOp o.toNat w
    let cols := (List.range (64 / c.1)).map fun k => scanTree c.2 (contributions x.w.regs a.toNat c.1 k act)
    writeV x s d.toNat ((lanesOf act).map fun l =>
      (l, wd (packElems c.1 (cols.map fun col => reduced o.toNat w ((nth none col l).getD 0))),
        joinAll (guardJoin x g.toNat :: ((lanesOf act).filter (· ≤ l)).map (x.w.regs.labV a.toNat))))) s

/-! ## Arithmetic (R128 to R131) -/

/-- VFADD (R128). -/
def execVfadd (z : Bool) (g : BitVec 3) (d a b : BitVec 6) (w : BitVec 2) (s : State) :
    Host.Outcome State Fault Refusal :=
  vBinary (.vfadd z g d a b w) g d a b (zipElems (typeOf w).width (addF (typeOf w))) s

/-- VFSUB (R128). -/
def execVfsub (z : Bool) (g : BitVec 3) (d a b : BitVec 6) (w : BitVec 2) (s : State) :
    Host.Outcome State Fault Refusal :=
  vBinary (.vfsub z g d a b w) g d a b (zipElems (typeOf w).width (subF (typeOf w))) s

/-- VFMUL (R128). -/
def execVfmul (z : Bool) (g : BitVec 3) (d a b : BitVec 6) (w : BitVec 2) (s : State) :
    Host.Outcome State Fault Refusal :=
  vBinary (.vfmul z g d a b w) g d a b (zipElems (typeOf w).width (mulF (typeOf w))) s

/-- VFMA (R128): a * b + d, rounded once. -/
def execVfma (z : Bool) (g : BitVec 3) (d a b : BitVec 6) (w : BitVec 2) (s : State) :
    Host.Outcome State Fault Refusal :=
  vTernary (.vfma z g d a b w) g d a b (zip3Elems (typeOf w).width (fmaF (typeOf w))) s

/-- VFMIN (R124, R129). -/
def execVfmin (z : Bool) (g : BitVec 3) (d a b : BitVec 6) (w : BitVec 2) (s : State) :
    Host.Outcome State Fault Refusal :=
  vBinary (.vfmin z g d a b w) g d a b (zipElems (typeOf w).width (minmaxF (typeOf w) false)) s

/-- VFMAX (R124, R129). -/
def execVfmax (z : Bool) (g : BitVec 3) (d a b : BitVec 6) (w : BitVec 2) (s : State) :
    Host.Outcome State Fault Refusal :=
  vBinary (.vfmax z g d a b w) g d a b (zipElems (typeOf w).width (minmaxF (typeOf w) true)) s

/-- VFCMP (R130): element 0 of each source. -/
def execVfcmp (z : Bool) (g p c : BitVec 3) (a b : BitVec 6) (w : BitVec 2) (s : State) :
    Host.Outcome State Fault Refusal :=
  vCompare (.vfcmp z g p c a b w) g p a b (fun x y =>
    compareF (typeOf w) c.toNat (elemOf (typeOf w).width 0 x) (elemOf (typeOf w).width 0 y)) s

/-- VFABS (R131). -/
def execVfabs (z : Bool) (g : BitVec 3) (d a : BitVec 6) (w : BitVec 2) (s : State) :
    Host.Outcome State Fault Refusal :=
  vUnary (.vfabs z g d a w) g d a (mapElems (typeOf w).width (absF (typeOf w))) s

/-- VFNEG (R131). -/
def execVfneg (z : Bool) (g : BitVec 3) (d a : BitVec 6) (w : BitVec 2) (s : State) :
    Host.Outcome State Fault Refusal :=
  vUnary (.vfneg z g d a w) g d a (mapElems (typeOf w).width (negF (typeOf w))) s

/-! ## Special functions (R132, R133) -/

/-- A special function: its results are fixed at issue and written when its flag clears (R27, R29).  Its labels are
formed at issue, where a label over eight owners traps (R79). -/
def specialOp (i : Instr) (g : BitVec 3) (d a : BitVec 6) (f : BitVec 1) (h : FVal → FVal) (s : State) :
    Host.Outcome State Fault Refusal :=
  issue i { rv := [a.toNat], rp := [g.toNat], wv := [d.toNat] } (guardLanes s g.toNat) (fun x s =>
    let rs := (lanesOf (x.grp &&& x.w.regs.getP g.toNat)).map fun l =>
      (⟨l, mapElems 32 (specialF h) (x.w.regs.getV a.toNat l), laneLabel x g.toNat [a.toNat] l, false⟩ : LaneRes)
    let bad := rs.filter fun r => decide (Config.maxOwners < r.lab.length)
    if bad.isEmpty then
      match bindLabels s x.asid (rs.map (·.lab)) with
      | none => x.trapG s 0x07
      | some s => .ok (startPend x s (x.flag f) (.special d.toNat) rs 1)
    else x.trap s 0x07 (maskOf (bad.map (·.lane))) 0 0) s

/-- VRCP (R132, R133). -/
def execVrcp (z : Bool) (g : BitVec 3) (d a : BitVec 6) (f : BitVec 1) (s : State) : Host.Outcome State Fault Refusal :=
  specialOp (.vrcp z g d a f) g d a f rcpV s

/-- VRSQ (R132, R133). -/
def execVrsq (z : Bool) (g : BitVec 3) (d a : BitVec 6) (f : BitVec 1) (s : State) : Host.Outcome State Fault Refusal :=
  specialOp (.vrsq z g d a f) g d a f rsqV s

/-- VEXP2 (R132, R133). -/
def execVexp2 (z : Bool) (g : BitVec 3) (d a : BitVec 6) (f : BitVec 1) (s : State) : Host.Outcome State Fault Refusal :=
  specialOp (.vexp2 z g d a f) g d a f exp2V s

/-- VLOG2 (R132, R133). -/
def execVlog2 (z : Bool) (g : BitVec 3) (d a : BitVec 6) (f : BitVec 1) (s : State) : Host.Outcome State Fault Refusal :=
  specialOp (.vlog2 z g d a f) g d a f log2V s

/-! ## Conversions, packing and blocks -/

/-- VCVT (R134 to R136). -/
def execVcvt (z : Bool) (g : BitVec 3) (d a m : BitVec 6) (s : State) : Host.Outcome State Fault Refusal :=
  vUnary (.vcvt z g d a m) g d a (convertReg m.toNat) s

/-- The low 6 bits of eight bytes in two 24-bit groups (R137). -/
def pack6 (x : Word) : Word := wd (packElems 6 ((List.range 8).map fun k => elemOf 8 k x))

/-- Eight 6-bit elements in the low bits of eight bytes (R138). -/
def unpack6 (x : Word) : Word := wd (packElems 8 ((List.range 8).map fun k => elemOf 6 k x))

/-- VPACK6 (R137). -/
def execVpack6 (z : Bool) (g : BitVec 3) (d a : BitVec 6) (s : State) : Host.Outcome State Fault Refusal :=
  vUnary (.vpack6 z g d a) g d a pack6 s

/-- VUNPK6 (R138). -/
def execVunpk6 (z : Bool) (g : BitVec 3) (d a : BitVec 6) (s : State) : Host.Outcome State Fault Refusal :=
  vUnary (.vunpk6 z g d a) g d a unpack6 s

/-- VQB4 (R139): Va to Va+3 of a lane quantised to one FP4 block and its scale. -/
def execVqb4 (z : Bool) (g : BitVec 3) (d : BitVec 6) (a : BitVec 4) (s : State) : Host.Outcome State Fault Refusal :=
  let regs := (List.range 4).map (4 * a.toNat + ·)
  issue (.vqb4 z g d a) { rv := regs, rp := [g.toNat], wv := [d.toNat] } (guardLanes s g.toNat) (fun x s =>
    laneOp x s g.toNat d.toNat regs fun l =>
      let q := quantBlock e2m1 6 ((List.range 8).map fun i =>
        decodeF fp32 (elemOf 32 (i % 2) (x.w.regs.getV (4 * a.toNat + i / 2) l)))
      wd (q.1 * 2 ^ 32 + packElems 4 q.2)) s

/-- The registers of VDQB4 for one lane (R140). -/
def expandBlock (x : Word) (j : Nat) : Word :=
  let y (i : Nat) : Nat := blockFloat (elemOf 8 4 x) (elemOf 4 i x)
  wd (y (2 * j) + y (2 * j + 1) * 2 ^ 32)

/-- VDQB4 (R140): an FP4 block expanded to Vd to Vd+3. -/
def execVdqb4 (z : Bool) (g : BitVec 3) (d : BitVec 4) (a : BitVec 6) (s : State) : Host.Outcome State Fault Refusal :=
  let regs := (List.range 4).map (4 * d.toNat + ·)
  issue (.vdqb4 z g d a) { rv := [a.toNat], rp := [g.toNat], wv := regs } (guardLanes s g.toNat) (fun x s => do
    let act := lanesOf (x.grp &&& x.w.regs.getP g.toNat)
    let bad := act.filter fun l => decide (Config.maxOwners < (laneLabel x g.toNat [a.toNat] l).length)
    if !bad.isEmpty then x.trap s 0x07 (maskOf bad) 0 0
    else (List.range 4).foldlM (fun s j =>
      writeV x s (4 * d.toNat + j) (act.map fun l =>
        (l, expandBlock (x.w.regs.getV a.toNat l) j, laneLabel x g.toNat [a.toNat] l))) s) s

end Sys2Proof.Machine
end

