-- ==== Sys2Proof/Machine/Labels.lean ====
section
/-! DEFINITION. The label class (R225 to R230): reading, raising and joining labels, granule labels, declassification and
endorsements. -/
namespace Sys2Proof.Machine

/-! ## Shared operations -/

/-- A handle operand (R225 to R230): bits [63:12] zero and the handle bound in the ASID, else ILLEGAL-STATE. -/
def handleOperand (x : Ctx) (s : State) (v : Word) : Except Stop Label :=
  if bits v 12 52 ≠ 0 then x.trapG s 0x02
  else match setOf (x.labels s) (bits v 0 12) with
    | some l => .ok l
    | none => x.trapG s 0x02

/-- A handle as a dword. -/
def handleWord (s : State) (x : Ctx) (l : Label) : Word := wd (handleOf s x.asid l)

/-! ## LGET, LSETV, LJOIN, LDOM, LOWN -/

/-- LGET Vd, Va (R225): each lane's label handle. -/
def execLgetV (z : Bool) (d a : BitVec 6) (s : State) : Host.Outcome State Fault Refusal :=
  issue (.lgetV z d a) { rv := [a.toNat], wv := [d.toNat] } (groupLanes s) (fun x s =>
    writeV x s d.toNat ((lanesOf x.grp).map fun l =>
      (l, handleWord s x (x.w.regs.labV a.toNat l), joinL (x.w.regs.labV a.toNat l) x.wcl))) s

/-- LGET Gd, Ga (R225). -/
def execLgetG (z : Bool) (d a : BitVec 6) (s : State) : Host.Outcome State Fault Refusal :=
  issue (.lgetG z d a) { rg := [a.toNat], wg := [d.toNat] } 0 (fun x s =>
    writeG x s d.toNat (handleWord s x (x.w.regs.labG a.toNat)) (groupLabel x [a.toNat])) s

/-- LGET Gd, [Ga] (R225): the label of a granule as a read gives it; that of an external granule is read once in a
replicated launch (R336). -/
def execLgetGranule (z : Bool) (d a : BitVec 6) (s : State) : Host.Outcome State Fault Refusal :=
  issue (.lgetGranule z d a) { rg := [a.toNat], wg := [d.toNat] } 0 (fun x s => do
    let ga := x.w.regs.getG a.toNat
    let pa ← checkAddr x s ga 1 false
    let s ← orderAccess x s [pa]
    let read (s : State) : Except Stop (State × List Word × List Label) :=
      let r := readAccess s x.core pa 1 false
      .ok (r.1, [], [r.2.lab])
    let r ← if x.replicated && externalEntry x (pa / 64) then
        onceOp x s [opRecord x (x.w.regs.labG a.toNat) ga.toNat [ga]] read
      else read s
    let h := nth [] r.2.2 0
    let s ← bindOr x r.1 ga [h]
    writeGAt x s ga d.toNat (handleWord s x h) (joinL h (groupLabel x [a.toNat]))) s

/-- LGET Vd, Pa (R225). -/
def execLgetP (z : Bool) (d : BitVec 6) (a : BitVec 3) (s : State) : Host.Outcome State Fault Refusal :=
  issue (.lgetP z d a) { rp := [a.toNat], wv := [d.toNat] } 0 (fun x s =>
    writeV x s d.toNat ((lanesOf x.grp).map fun l =>
      (l, handleWord s x (x.w.regs.labP a.toNat l), joinL (x.w.regs.labP a.toNat l) x.wcl))) s

/-- LSETV (R226): the group's labels of Vd rise; the values stay. -/
def execLsetv (z : Bool) (d a : BitVec 6) (s : State) : Host.Outcome State Fault Refusal :=
  issue (.lsetv z d a) { rv := [d.toNat], rg := [a.toNat], wv := [d.toNat] } (groupLanes s) (fun x s => do
    let q := x.w.regs
    let h ← handleOperand x s (q.getG a.toNat)
    writeV x s d.toNat ((lanesOf x.grp).map fun l =>
      (l, q.getV d.toNat l, joinAll [q.labV d.toNat l, h, q.labG a.toNat, x.wcl]))) s

/-- LJOIN (R228): the handle of the union. -/
def execLjoin (z : Bool) (d a b : BitVec 6) (s : State) : Host.Outcome State Fault Refusal :=
  issue (.ljoin z d a b) { rg := [a.toNat, b.toNat], wg := [d.toNat] } 0 (fun x s => do
    let p ← handleOperand x s (x.w.regs.getG a.toNat)
    let q ← handleOperand x s (x.w.regs.getG b.toNat)
    let s ← bindOr x s 0 [groupLabel x [a.toNat, b.toNat], joinL p q]
    writeG x s d.toNat (handleWord s x (joinL p q)) (groupLabel x [a.toNat, b.toNat])) s

/-- LDOM (R228): 1 when Ga's set contains Gb's. -/
def execLdom (z : Bool) (d a b : BitVec 6) (s : State) : Host.Outcome State Fault Refusal :=
  issue (.ldom z d a b) { rg := [a.toNat, b.toNat], wg := [d.toNat] } 0 (fun x s => do
    let p ← handleOperand x s (x.w.regs.getG a.toNat)
    let q ← handleOperand x s (x.w.regs.getG b.toNat)
    writeG x s d.toNat (wd (b2n (dominates p q))) (groupLabel x [a.toNat, b.toNat])) s

/-- LOWN (R228): the (i+1)-th smallest owner, or 0. -/
def execLown (z : Bool) (d a : BitVec 6) (i : BitVec 3) (s : State) : Host.Outcome State Fault Refusal :=
  issue (.lown z d a i) { rg := [a.toNat], wg := [d.toNat] } 0 (fun x s => do
    let p ← handleOperand x s (x.w.regs.getG a.toNat)
    writeG x s d.toNat (wd (nth 0 p i.toNat)) (groupLabel x [a.toNat])) s

/-! ## LRAISE and LCLEAR (R227) -/

/-- LRAISE or LCLEAR at the home bank, once the new label `n` is known. -/
def granuleLabel (x : Ctx) (s : State) (clear : Bool) (pa : Nat) (n : Label) : State :=
  let s := { s with mem := setGranLabel s.mem pa (if clear then n else joinL (granLabel s.mem pa) n) }
  dropSnapshot (if clear then homeWrite s pa (toBytes 64 0) else s) x.core pa

/-- LRAISE or LCLEAR on the granule as it stands (R227): the label that it sets is bound (R209); 7 says that it cannot be, and
nothing changes. -/
def setGranule (x : Ctx) (s : State) (clear : Bool) (pa : Nat) (n : Label) : State × List Word × List Label :=
  match bindLabel s x.asid (if clear then n else joinL (granLabel s.mem pa) n) with
  | none => (s, [7], [])
  | some s => (granuleLabel x s clear pa n, [0], [])

/-- LRAISE and LCLEAR (R227).  On an external granule a replicated launch performs them once (R342, log entry 12). -/
def labelGranule (i : Instr) (clear : Bool) (a b : BitVec 6) (s : State) : Host.Outcome State Fault Refusal :=
  issue i { rg := [a.toNat, b.toNat] } 0 (fun x s => do
    let q := x.w.regs
    let ga := q.getG a.toNat
    let pa ← checkAddr x s ga 64 true
    let h ← handleOperand x s (q.getG b.toNat)
    let n := joinL h (groupLabel x [a.toNat, b.toNat])
    let s ← orderAccess x s [pa]
    let s ← publishFirst x s [pa / 64]
    let r ← if x.replicated && externalEntry x (pa / 64) then
        onceOp x s [opRecord x (groupLabel x [a.toNat, b.toNat]) ga.toNat [ga, q.getG b.toNat]]
          fun s => .ok (setGranule x s clear pa n)
      else .ok (setGranule x s clear pa n)
    if nth 0 r.2.1 0 = 7 then x.trap r.1 0x07 x.grp ga 0 else .ok (dropSnapshot r.1 x.core pa)) s

/-- LRAISE (R227): the granule's label rises. -/
def execLraise (z : Bool) (a b : BitVec 6) (s : State) : Host.Outcome State Fault Refusal :=
  labelGranule (.lraise z a b) false a b s

/-- LCLEAR (R227): the granule's bytes become zero and its label the new one. -/
def execLclear (z : Bool) (a b : BitVec 6) (s : State) : Host.Outcome State Fault Refusal :=
  labelGranule (.lclear z a b) true a b s

/-! ## Declassification (R216, R217, R229) -/

/-- An endorsement table has an entry that covers the removal of owner `o` to `X` (R217). -/
def coversOwner (t : Tab (Nat × Label)) (X : Label) (o : Nat) : Bool :=
  match kget t o with
  | some e => decide (1 ≤ e.1) && !X.contains o && dominates X e.2
  | none => false

/-- The owners a lane removes (R229). -/
def removed (X lab : Label) : List Nat := lab.filter fun o => !X.contains o

/-- The endorsement table after one use of each listed owner; an entry at 0 is freed (R216). -/
def consumeUses (t : Tab (Nat × Label)) (os : List Nat) : Tab (Nat × Label) :=
  os.foldl (fun t o => match kget t o with
    | some e => if e.1 ≤ 1 then kdel t o else kset t o (e.1 - 1, e.2)
    | none => t) t

/-- Coverage and consumption at the Lantern pair, as one action (R229): the covered lanes and the lowest missing owner.
DCLS consumes nothing when a lane is not covered. -/
def declassify (x : Ctx) (s : State) (trying : Bool) (X : Label) (a : Nat) : State × Mask × Nat :=
  let t := (s.asidOf x.asid).endorse
  let ls := lanesOf x.grp
  let rem (l : Nat) : List Nat := removed X (x.w.regs.labV a l)
  let cov := ls.filter fun l => (rem l).all (coversOwner t X)
  let missing := (ls.flatMap rem).filter fun o => !coversOwner t X o
  let used := joinAll (cov.map rem)
  let lowest := (missing.min?).getD 0
  if used.isEmpty || (!trying && !missing.isEmpty) then (s, maskOf cov, lowest)
  else
    let s := s.modAsid x.asid fun q => { q with endorse := consumeUses q.endorse used }
    ((markPublished x s).modHub fun h => { h with hseq := h.hseq + 1 }, maskOf cov, lowest)

/-- The kind 6 records of a declassification: one per active lane (R333). -/
def declassRecords (x : Ctx) (a b : Nat) : List Record :=
  (lanesOf x.grp).map fun l => opRecord x (joinL (x.w.regs.labV a l) (x.w.regs.labG b)) l [x.w.regs.getV a l, x.w.regs.getG b]

/-- DCLS and DCLS.T up to the covered lanes (R229): the state, the result label, the covered lanes and the lowest
missing owner.  The label is bound where Pn is P7 too (log entry 10). -/
def declassBody (x : Ctx) (s : State) (trying : Bool) (a b : BitVec 6) :
    Except Stop (State × Label × Mask × Nat) := do
  let T ← handleOperand x s (x.w.regs.getG b.toNat)
  let X := joinL T (groupLabel x [b.toNat])
  let s ← bindOr x s 0 (if trying then [X, groupLabel x [b.toNat]] else [X])
  let r ← onceOp x s (declassRecords x a.toNat b.toNat) fun s =>
    let q := declassify x s trying X a.toNat
    .ok (q.1, [wd q.2.1.toNat, wd q.2.2], [])
  .ok (r.1, X, (nth 0 r.2.1 0).setWidth 32, (nth 0 r.2.1 1).toNat)

/-- The registers of released lanes (R229). -/
def releaseLanes (x : Ctx) (s : State) (d a : Nat) (X : Label) (m : Mask) : State :=
  s.modWarp x.wk fun w =>
    { w with regs := (lanesOf (x.grp &&& m)).foldl (fun q l => q.setV d l (x.w.regs.getV a l) X) w.regs }

/-- DCLS (R229): every lane is covered and released, or the instruction traps DECLASSIFY-DENIED. -/
def execDcls (z : Bool) (d a b : BitVec 6) (s : State) : Host.Outcome State Fault Refusal :=
  issue (.dcls z d a b) { rv := [a.toNat], rg := [b.toNat], wv := [d.toNat] } (groupLanes s) (fun x s => do
    let r ← declassBody x s false a b
    if x.grp &&& ~~~r.2.2.1 ≠ 0 then x.trap r.1 0x06 (x.grp &&& ~~~r.2.2.1) 0 (wd r.2.2.2)
    else .ok (releaseLanes x r.1 d.toNat a.toNat r.2.1 r.2.2.1)) s

/-- DCLS.T (R229): the covered lanes are released, and Pn says which they are. -/
def execDclsT (z : Bool) (d a b : BitVec 6) (p : BitVec 3) (s : State) : Host.Outcome State Fault Refusal :=
  issue (.dclsT z d a b p) { rv := [a.toNat], rg := [b.toNat], wv := [d.toNat], wp := [p.toNat] } (groupLanes s) (fun x s => do
    let r ← declassBody x s true a b
    let s := releaseLanes x r.1 d.toNat a.toNat r.2.1 r.2.2.1
    writeP x s p.toNat ((lanesOf x.grp).map fun l => (l, r.2.2.1.getLsbD l, groupLabel x [b.toNat]))) s

/-! ## Endorsements (R216, R218, R230) -/

/-- The checks that ENDORSE and ENDREV share (R230), over the labels of their operands: the target's owner set. -/
def endorseChecks (x : Ctx) (s : State) (target : Word) (srcs : List Nat) : Except Stop Label := do
  if x.lr.ownact = 0 then x.trapG s 0x13
  let e ← handleOperand x s target
  if dominates [x.lr.ownact] (groupLabel x srcs) then .ok e
  else x.trapL s 0x05 x.grp 0 (groupLabel x srcs) [x.lr.ownact]

/-- A change to an ASID's endorsement table, as the hub event arbiter orders it (R216). -/
def setEndorse (x : Ctx) (s : State) (f : Tab (Nat × Label) → Tab (Nat × Label)) : State :=
  (markPublished x (s.modAsid x.asid fun q => { q with endorse := f q.endorse })).modHub fun h =>
    { h with hseq := h.hseq + 1 }

/-- ENDORSE (R230): the acting owner's entry is installed or replaced. -/
def execEndorse (z : Bool) (a b : BitVec 6) (s : State) : Host.Outcome State Fault Refusal :=
  issue (.endorse z a b) { rg := [a.toNat, b.toNat] } 0 (fun x s => do
    let q := x.w.regs
    let e ← endorseChecks x s (q.getG a.toNat) [a.toNat, b.toNat]
    let n := q.getG b.toNat
    if e.contains x.lr.ownact || n = 0 || bits n 32 32 ≠ 0 then x.trapG s 0x02
    else
      let r ← onceOp x s [opRecord x (groupLabel x [a.toNat, b.toNat]) 0 [q.getG a.toNat, n]] fun s =>
        let t := (s.asidOf x.asid).endorse
        if (kget t x.lr.ownact).isNone && decide (64 ≤ t.length) then .ok (s, [7], [])
        else .ok (setEndorse x s fun t => kset t x.lr.ownact (n.toNat, e), [0], [])
      if nth 0 r.2.1 0 = 7 then x.trapG r.1 0x07 else .ok r.1) s

/-- ENDREV (R230): the acting owner's entry for this target is freed. -/
def execEndrev (z : Bool) (a : BitVec 6) (s : State) : Host.Outcome State Fault Refusal :=
  issue (.endrev z a) { rg := [a.toNat] } 0 (fun x s => do
    let e ← endorseChecks x s (x.w.regs.getG a.toNat) [a.toNat]
    let r ← onceOp x s [opRecord x (groupLabel x [a.toNat]) 0 [x.w.regs.getG a.toNat]] fun s =>
      .ok (setEndorse x s fun t => match kget t x.lr.ownact with
        | some q => if q.2 = e then kdel t x.lr.ownact else t
        | none => t, [], [])
    .ok r.1) s

/-- ENDQ (R230): the endorsement entry of an owner. -/
def execEndq (z : Bool) (d a : BitVec 6) (s : State) : Host.Outcome State Fault Refusal :=
  issue (.endq z d a) { rg := [a.toNat], wg := [d.toNat] } 0 (fun x s => do
    let v := x.w.regs.getG a.toNat
    if bits v 20 44 ≠ 0 then x.trapG s 0x02
    else
      let r ← onceOp x s [opRecord x (groupLabel x [a.toNat]) 0 [v]] fun s =>
        let e := match kget (s.asidOf x.asid).endorse (bits v 0 20) with
          | some q => wd (q.1 * 2 ^ 32 + 2 ^ 12 + handleOf s x.asid q.2)
          | none => 0
        .ok ((nextSeq s).1, [e], [])
      writeG x r.1 d.toNat (nth 0 r.2.1 0) (groupLabel x [a.toNat])) s

end Sys2Proof.Machine
end

