-- ==== Sys2Proof/Machine/Mailbox.lean ====
section
/-! DEFINITION. The Lantern mailbox (R401, R405, R410): the eleven commands.  Where the specification does not lay a
request out, the layout is the model's (log entry 5). -/
namespace Sys2Proof.Machine

/-! ## Requests and answers (R405) -/

/-- A dword of the request. -/
def reqDw (s : State) (i : Nat) : Word := aget 0 s.hub.mailbox.request i
/-- The request as one number of 512 bits. -/
def reqNum (s : State) : Nat := (List.range 8).foldl (fun a i => a + (reqDw s i).toNat * 2 ^ (64 * i)) 0
/-- `n` bits of the request from bit `lo` on. -/
def reqBits (s : State) (lo n : Nat) : Nat := reqNum s / 2 ^ lo % 2 ^ n
/-- The ASID field. -/
def reqAsid (s : State) : Nat := bits (reqDw s 0) 8 13
/-- The request waits with this CMD. -/
def asked (s : State) (cmd : Nat) : Bool := s.hub.mailbox.go && bits (reqDw s 0) 0 8 == cmd

/-- The answer: STATUS and the response; GO reads 0 again.  The hub event arbiter orders requests. -/
def reply (s : State) (status : Nat) (resp : Tab Word) : State :=
  s.modHub fun h => { h with
    hseq := h.hseq + 1, mailbox := { h.mailbox with go := false, status := status, response := resp } }

/-- STATUS values (R405). -/
def stOk : Nat := 0
/-- DENIED. -/
def stDenied : Nat := 1
/-- EXHAUSTED. -/
def stExhausted : Nat := 2
/-- BUSY. -/
def stBusy : Nat := 3
/-- ENTROPY. -/
def stEntropy : Nat := 4
/-- FORM. -/
def stForm : Nat := 5

/-- Dword 0 of a request that names an ASID has no bits above it. -/
def headOk (s : State) : Bool := bits (reqDw s 0) 21 43 == 0

/-- A command on an address space that exists (R405): FORM where it does not, and for commands 0x03 to 0x08 DENIED outside the
secured session of a SECURE one. -/
def onAsid (cmd : Nat) (s : State) (f : Asid → State) : Host.Outcome State Fault Refusal :=
  if !asked s cmd then .next s
  else
    let a := s.asidOf (reqAsid s)
    if !headOk s || !a.valid then .next (reply s stForm [])
    else if decide (3 ≤ cmd) && decide (cmd ≤ 8) && a.secure && !a.session then .next (reply s stDenied [])
    else .next (f a)

/-! ## Address spaces -/

/-- ASID_CREATE: empty tables, VALID = 1; dword 1 bit 0 is SECURE. -/
def execAsidCreate (s : State) : Host.Outcome State Fault Refusal :=
  if !asked s 1 then .next s
  else if !headOk s || (s.asidOf (reqAsid s)).valid || bits (reqDw s 1) 1 63 != 0 then .next (reply s stForm [])
  else .next (reply (s.modAsid (reqAsid s) fun a => { a with
    valid := true, secure := bit (reqDw s 1) 0, session := false, labels := [], endorse := [], acls := [], creds := []
    key := none, saves := 0 }) stOk [])

/-- ASID_DESTROY: BUSY while a launch of the ASID exists; the fields that the driver writes stay. -/
def execAsidDestroy (s : State) : Host.Outcome State Fault Refusal :=
  onAsid 2 s fun _ =>
    if asidBusy s (reqAsid s) then reply s stBusy []
    else reply (s.modAsid (reqAsid s) fun a => { Asid.zero with
      dbg := a.dbg, part := a.part, ptroot := a.ptroot, sumpd := a.sumpd, slogd := a.slogd }) stOk []

/-- The owner set of dwords 1 to 3 in the form of R208, if it is well formed: in increasing order, none of them 0, and the
fields at or above COUNT zero. -/
def reqOwners (s : State) : Option Label :=
  let n := reqBits s (64 + 160) 4
  let os := (List.range n).map fun k => reqBits s (64 + 20 * k) 20
  if 8 < n || reqBits s (64 + 164) 28 ≠ 0 || reqBits s (64 + 20 * n) (160 - 20 * n) ≠ 0 || os.contains 0 ||
      !(os.zip (os.drop 1)).all (fun p => decide (p.1 < p.2)) then none
  else some os

/-- LHANDLE (R209): the set's handle, bound when it has none; EXHAUSTED when the table is full. -/
def execLhandle (s : State) : Host.Outcome State Fault Refusal :=
  onAsid 3 s fun _ => match reqOwners s with
    | none => reply s stForm []
    | some l => match bindLabel s (reqAsid s) l with
      | none => reply s stExhausted []
      | some t => reply t stOk (aset 0 [] 0 (wd (handleOf t (reqAsid s) l)))

/-! ## Pages (R219, R395, R401) -/

/-- A frame lies in a pool, or a migration holds it (R401). -/
def frameHeld (s : State) (f : Nat) : Bool :=
  s.hub.pool0.contains f || s.hub.pool1.contains f || s.hub.migrations.any fun m => m.begun && m.new == f

/-- The frames of a page of 2^`sh` bytes whose first frame is `f`. -/
def pageFrames (f sh : Nat) : List Nat := (List.range (2 ^ (sh - 19))).map (f + ·)

/-- The address space has a page of another size that overlaps one of 2^`sh` bytes at `va`. -/
def otherSize (s : State) (asid va sh : Nat) : Bool :=
  match table2 s asid va with
  | none => false
  | some t =>
    let at_ := s.below t (ix2 va)
    if sh = 30 then at_.any fun u => (s.entriesOf u 2048).any fun p => bit p.2.dw 0
    else leafOk (s.pte t (ix2 va)) 3 30 || at_.any fun u => (s.entriesOf u 2048).any fun p =>
      decide (ix3 va ≤ p.1) && decide (p.1 < ix3 va + 2 ^ (sh - 19)) && leafOk p.2 (if sh = 25 then 1 else 2) (44 - sh)

/-- The number of offset bits of a TYPE (R395): 512 KiB, 32 MiB or 1 GiB. -/
def typeShift (ty : Nat) : Nat := if ty = 1 then 19 else if ty = 2 then 25 else 30

/-- A place that holds no page table: nothing is written there, and no root or pointer names it. -/
def tableFree (s : State) (base : Nat) : Bool :=
  !(s.hub.ptes.any fun p => p.1 / 4096 == base / 2 ^ 16 || (pointerOk p.2 && tableOf p.2 == base)) &&
  !(s.hub.asids.any fun a => s.rootOf a.1 == base)

/-- The place of the n-th table that the Lantern pair takes (log entry 5). -/
def tablePlace (n : Nat) : Nat := Config.tableFrame n % 2 ^ 36 * 2 ^ 16

/-- Entry `i` of a table leads to a table: the one it points to, or a new one, which is empty (R395).  None when the Lantern pair
finds no place for it. -/
def linkTable (s : State) (table i : Nat) : Option State :=
  if (s.below table i).isSome then some s
  else (((List.range 4096).map (s.hub.tables + ·)).find? fun n => tableFree s (tablePlace n)).map fun n =>
    (s.setPte table i ⟨wd (tablePlace n + 1), 0⟩).modHub fun h => { h with tables := n + 1 }

/-- A page mapped (R395): the pointers that lead to its leaf, and the leaf. -/
def putLeaf (s : State) (asid va sh : Nat) (lf : Leaf) : Option State :=
  (linkTable s (s.rootOf asid) (ix1 va)).bind fun s =>
    (if sh = 30 then some s else (table2 s asid va).bind fun t => linkTable s t (ix2 va)).map fun s => setLeaf s asid va sh lf

/-- MAP: dword 1 the virtual address, dwords 2 and 3 the leaf; its frames lie in no pool, and MLOCK is the engines'. -/
def execMap (s : State) : Host.Outcome State Fault Refusal :=
  onAsid 4 s fun a =>
    let va := (reqDw s 1).toNat
    let lf : Leaf := ⟨reqDw s 2, reqDw s 3⟩
    let ty := bits lf.dw 3 2
    let sh := typeShift ty
    if ty = 0 || !leafOk lf ty sh || decide (2 ^ 52 ≤ va) || va % 2 ^ sh != 0 || otherSize s (reqAsid s) va sh || lf.mlock ||
        (setOf a.labels (bits lf.tag 0 12)).isNone || (pageFrames lf.frame sh).any (frameHeld s) then reply s stForm []
    else match putLeaf s (reqAsid s) va sh lf with
      | some s => reply s stOk []
      | none => reply s stExhausted []

/-- UNMAP: dword 1 the virtual address of a page. -/
def execUnmap (s : State) : Host.Outcome State Fault Refusal :=
  onAsid 5 s fun _ =>
    let va := (reqDw s 1).toNat
    match leafAt s (reqAsid s) va with
    | none => reply s stForm []
    | some (_, sh) =>
      if decide (2 ^ 52 ≤ va) || va % 2 ^ sh != 0 then reply s stForm []
      else reply (setLeaf s (reqAsid s) va sh Leaf.zero) stOk []

/-- The fields of a page tag that SETTAG changes: PEERW, PIN, ACL and LABEL (R219, R405). -/
def tagMask : Word := 0x3FFFFFFFF#64

/-- SETTAG: dword 1 the virtual address of a page, dword 3 the tag; TIER and MLOCK stay. -/
def execSettag (s : State) : Host.Outcome State Fault Refusal :=
  onAsid 6 s fun a =>
    let va := (reqDw s 1).toNat
    let tag := reqDw s 3
    match leafAt s (reqAsid s) va with
    | none => reply s stForm []
    | some (lf, sh) =>
      if decide (2 ^ 52 ≤ va) || va % 2 ^ sh != 0 || bits tag 37 27 != 0 || (setOf a.labels (bits tag 0 12)).isNone then
        reply s stForm []
      else reply (setLeaf s (reqAsid s) va sh { lf with tag := (lf.tag &&& ~~~tagMask) ||| (tag &&& tagMask) }) stOk []

/-! ## Principals and credentials (R220, R292) -/

/-- ACL: dword 1 bits [19:0] the ACL handle and [36:32] the number of principals, which stand packed by 24 bits from dword 2
on. -/
def execAcl (s : State) : Host.Outcome State Fault Refusal :=
  onAsid 7 s fun _ =>
    let h := bits (reqDw s 1) 0 20
    let n := bits (reqDw s 1) 32 5
    let ps := (List.range n).map fun k => reqBits s (128 + 24 * k) 24
    if h = 0 || 16 < n || bits (reqDw s 1) 20 12 ≠ 0 || bits (reqDw s 1) 37 27 ≠ 0 || ps.contains 0 then reply s stForm []
    else reply (s.modAsid (reqAsid s) fun a => { a with acls := kset a.acls h ps }) stOk []

/-- CRED: dword 1 bit 0 the rule-table right, [8:4] the number of owners and [20:16] of principals; dword 2 the credential's
identity; from dword 3 on the owners packed by 20 bits and then the principals by 24. -/
def execCred (s : State) : Host.Outcome State Fault Refusal :=
  onAsid 8 s fun _ =>
    let d := reqDw s 1
    let n := bits d 4 5
    let m := bits d 16 5
    let os := (List.range n).map fun k => reqBits s (192 + 20 * k) 20
    let ps := (List.range m).map fun k => reqBits s (192 + 20 * n + 24 * k) 24
    if reqDw s 2 = 0 || 320 < 20 * n + 24 * m || os.contains 0 || ps.contains 0 || bits d 1 3 ≠ 0 || bits d 9 7 ≠ 0 ||
        bits d 21 43 ≠ 0 then reply s stForm []
    else reply (s.modAsid (reqAsid s) fun a => { a with creds := kset a.creds (reqDw s 2).toNat ⟨os, ps, bit d 0⟩ }) stOk []

/-! ## CTXKEY (R409, R410) -/

/-- CTXKEY: BUSY while a launch of the ASID exists; ENTROPY when the source is disabled; else a new key, drawn free. -/
def execCtxkey (s : State) : Host.Outcome State Fault Refusal :=
  onAsid 9 s fun _ =>
    if asidBusy s (reqAsid s) then reply s stBusy []
    else match drawRandom s with
      | (t, none) => reply t stEntropy []
      | (t, some v) =>
        let key := v.toNat + (Config.freeWord t.free).toNat * 2 ^ 64 + (Config.freeWord (t.free + 1)).toNat * 2 ^ 128 +
          (Config.freeWord (t.free + 2)).toNat * 2 ^ 192
        reply (t.drew.drew.drew.modAsid (reqAsid s) fun a => { a with key := some key }) stOk []

/-! ## Pools (R401) -/

/-- Dword 1 of POOLADD and POOLDEL: the tier and the frame. -/
def reqFrame (s : State) : Option (Nat × Nat) :=
  let d := reqDw s 1
  if bits d 52 12 ≠ 0 || bits d 2 17 ≠ 0 || 2 ≤ bits d 0 2 then none else some (bits d 0 2, bits d 19 33)

/-- Some address space maps a frame. -/
def frameMapped (s : State) (f : Nat) : Bool :=
  s.hub.asids.any fun a => a.2.valid && (mappedPages s a.1).any fun p =>
    decide (p.2.1.frame ≤ f) && decide (f < p.2.1.frame + 2 ^ (p.2.2 - 19))

/-- POOLADD: FORM for a frame that some ASID maps, or that a migration holds. -/
def execPooladd (s : State) : Host.Outcome State Fault Refusal :=
  if !asked s 0x0A then .next s
  else match reqFrame s with
    | none => .next (reply s stForm [])
    | some (t, f) =>
      if frameMapped s f || frameHeld s f then .next (reply s stForm []) else .next (reply (addFrame s t f) stOk [])

/-- POOLDEL: BUSY while a migration holds the frame. -/
def execPooldel (s : State) : Host.Outcome State Fault Refusal :=
  if !asked s 0x0B then .next s
  else match reqFrame s with
    | none => .next (reply s stForm [])
    | some (t, f) =>
      if s.hub.migrations.any fun m => m.begun && (m.new == f || m.old == f) then .next (reply s stBusy [])
      else if !(s.hub.pool t).contains f then .next (reply s stForm [])
      else .next (reply (s.modHub fun h => h.setPool t ((h.pool t).filter (· != f))) stOk [])

end Sys2Proof.Machine
end

