-- ==== Sys2Proof/Machine/Dispatch.lean ====
section
/-! DEFINITION. The meaning of every instruction: one arm per constructor of Instr, each one direct call. -/
namespace Sys2Proof.Machine

def exec (i : Instr) (s : State) : Host.Outcome State Fault Refusal :=
  match i with
  | .clauseHeader w a b s0 => Sys2Proof.Machine.execClauseHeader w a b s0 s
  | .longLatencyComplete w n => Sys2Proof.Machine.execLongLatencyComplete w n s
  | .parkWake w => Sys2Proof.Machine.execParkWake w s
  | .atomicPerform w n => Sys2Proof.Machine.execAtomicPerform w n s
  | .barrierWaitEnd w => Sys2Proof.Machine.execBarrierWaitEnd w s
  | .waitseqObserve w => Sys2Proof.Machine.execWaitseqObserve w s
  | .ringPushAdmit w n => Sys2Proof.Machine.execRingPushAdmit w n s
  | .ringPopTake w n => Sys2Proof.Machine.execRingPopTake w n s
  | .tileAllocate c => Sys2Proof.Machine.execTileAllocate c s
  | .tileExecute c => Sys2Proof.Machine.execTileExecute c s
  | .flowstoneGroupExecute c => Sys2Proof.Machine.execFlowstoneGroupExecute c s
  | .heldRequestAccept w => Sys2Proof.Machine.execHeldRequestAccept w s
  | .launchRecordCopy w n => Sys2Proof.Machine.execLaunchRecordCopy w n s
  | .doorbellWrite q v => Sys2Proof.Machine.execDoorbellWrite q v s
  | .queueEnableWrite q ring ctl coreMask => Sys2Proof.Machine.execQueueEnableWrite q ring ctl coreMask s
  | .enqueueVerdict q => Sys2Proof.Machine.execEnqueueVerdict q s
  | .launchEligible q => Sys2Proof.Machine.execLaunchEligible q s
  | .blockPlace l cores => Sys2Proof.Machine.execBlockPlace l cores s
  | .windowStaging l g => Sys2Proof.Machine.execWindowStaging l g s
  | .blockRetire l b => Sys2Proof.Machine.execBlockRetire l b s
  | .launchComplete l => Sys2Proof.Machine.execLaunchComplete l s
  | .trapNotice c => Sys2Proof.Machine.execTrapNotice c s
  | .damageSnapshot k => Sys2Proof.Machine.execDamageSnapshot k s
  | .gangRelaunch l g => Sys2Proof.Machine.execGangRelaunch l g s
  | .coreSelfTest c failed => Sys2Proof.Machine.execCoreSelfTest c failed s
  | .eccCorrect c hit => Sys2Proof.Machine.execEccCorrect c hit s
  | .lateTransitionReplay c again => Sys2Proof.Machine.execLateTransitionReplay c again s
  | .preemptRequest p => Sys2Proof.Machine.execPreemptRequest p s
  | .resumeRequest p => Sys2Proof.Machine.execResumeRequest p s
  | .coreSwap c => Sys2Proof.Machine.execCoreSwap c s
  | .contextSaveMove c => Sys2Proof.Machine.execContextSaveMove c s
  | .contextResumeLoad p c tagOk => Sys2Proof.Machine.execContextResumeLoad p c tagOk s
  | .echoCompare l b w => Sys2Proof.Machine.execEchoCompare l b w s
  | .onceOpRendezvous l b w => Sys2Proof.Machine.execOnceOpRendezvous l b w s
  | .echoStraggler l b w => Sys2Proof.Machine.execEchoStraggler l b w s
  | .reclone l g r => Sys2Proof.Machine.execReclone l g r s
  | .engineChunk ch e failures => Sys2Proof.Machine.execEngineChunk ch e failures s
  | .migr m => Sys2Proof.Machine.execMigr m s
  | .hptEpochEnd m => Sys2Proof.Machine.execHptEpochEnd m s
  | .rowHammerThrottle m row => Sys2Proof.Machine.execRowHammerThrottle m row s
  | .caParityAlert m again => Sys2Proof.Machine.execCaParityAlert m again s
  | .collectiveChunk comm => Sys2Proof.Machine.execCollectiveChunk comm s
  | .flitReceive k correctable flit => Sys2Proof.Machine.execFlitReceive k correctable flit s
  | .linkKeyUpdateRequest k => Sys2Proof.Machine.execLinkKeyUpdateRequest k s
  | .linkKeyStall k => Sys2Proof.Machine.execLinkKeyStall k s
  | .portAttest k peer result => Sys2Proof.Machine.execPortAttest k peer result s
  | .commTableWrite off v => Sys2Proof.Machine.execCommTableWrite off v s
  | .registerWrite off v => Sys2Proof.Machine.execRegisterWrite off v s
  | .vadd z g d a b w => Sys2Proof.Machine.execVadd z g d a b w s
  | .vaddsS z g d a b w => Sys2Proof.Machine.execVaddsS z g d a b w s
  | .vaddsZ z g d a b w => Sys2Proof.Machine.execVaddsZ z g d a b w s
  | .vsub z g d a b w => Sys2Proof.Machine.execVsub z g d a b w s
  | .vsubsS z g d a b w => Sys2Proof.Machine.execVsubsS z g d a b w s
  | .vsubsZ z g d a b w => Sys2Proof.Machine.execVsubsZ z g d a b w s
  | .vmul z g d a b w => Sys2Proof.Machine.execVmul z g d a b w s
  | .vmulhS z g d a b w => Sys2Proof.Machine.execVmulhS z g d a b w s
  | .vmulhZ z g d a b w => Sys2Proof.Machine.execVmulhZ z g d a b w s
  | .vmad z g d a b w => Sys2Proof.Machine.execVmad z g d a b w s
  | .vdot4S8 z g d a b => Sys2Proof.Machine.execVdot4S8 z g d a b s
  | .vand z g d a b => Sys2Proof.Machine.execVand z g d a b s
  | .vor z g d a b => Sys2Proof.Machine.execVor z g d a b s
  | .vxor z g d a b => Sys2Proof.Machine.execVxor z g d a b s
  | .vshl z g d a b w => Sys2Proof.Machine.execVshl z g d a b w s
  | .vshr z g d a b w => Sys2Proof.Machine.execVshr z g d a b w s
  | .vsar z g d a b w => Sys2Proof.Machine.execVsar z g d a b w s
  | .vminS z g d a b w => Sys2Proof.Machine.execVminS z g d a b w s
  | .vminZ z g d a b w => Sys2Proof.Machine.execVminZ z g d a b w s
  | .vmaxS z g d a b w => Sys2Proof.Machine.execVmaxS z g d a b w s
  | .vmaxZ z g d a b w => Sys2Proof.Machine.execVmaxZ z g d a b w s
  | .vsel z p d a b => Sys2Proof.Machine.execVsel z p d a b s
  | .vshufL z g d a b => Sys2Proof.Machine.execVshufL z g d a b s
  | .vshufE z g d a b w => Sys2Proof.Machine.execVshufE z g d a b w s
  | .vcmp z g p c a b w => Sys2Proof.Machine.execVcmp z g p c a b w s
  | .vmovi z g d i0 w => Sys2Proof.Machine.execVmovi z g d i0 w s
  | .vmov z g d a => Sys2Proof.Machine.execVmov z g d a s
  | .vnot z g d a => Sys2Proof.Machine.execVnot z g d a s
  | .vabs z g d a w => Sys2Proof.Machine.execVabs z g d a w s
  | .vclz z g d a w => Sys2Proof.Machine.execVclz z g d a w s
  | .vpop z g d a w => Sys2Proof.Machine.execVpop z g d a w s
  | .vextS z g d a w => Sys2Proof.Machine.execVextS z g d a w s
  | .vextZ z g d a w => Sys2Proof.Machine.execVextZ z g d a w s
  | .vnar z g d a w => Sys2Proof.Machine.execVnar z g d a w s
  | .vnars z g d a w => Sys2Proof.Machine.execVnars z g d a w s
  | .vbcast z g d a => Sys2Proof.Machine.execVbcast z g d a s
  | .vred z g d a o w => Sys2Proof.Machine.execVred z g d a o w s
  | .vscan z g d a o w => Sys2Proof.Machine.execVscan z g d a o w s
  | .vfadd z g d a b w => Sys2Proof.Machine.execVfadd z g d a b w s
  | .vfsub z g d a b w => Sys2Proof.Machine.execVfsub z g d a b w s
  | .vfmul z g d a b w => Sys2Proof.Machine.execVfmul z g d a b w s
  | .vfma z g d a b w => Sys2Proof.Machine.execVfma z g d a b w s
  | .vfmin z g d a b w => Sys2Proof.Machine.execVfmin z g d a b w s
  | .vfmax z g d a b w => Sys2Proof.Machine.execVfmax z g d a b w s
  | .vfcmp z g p c a b w => Sys2Proof.Machine.execVfcmp z g p c a b w s
  | .vfabs z g d a w => Sys2Proof.Machine.execVfabs z g d a w s
  | .vfneg z g d a w => Sys2Proof.Machine.execVfneg z g d a w s
  | .vrcp z g d a f => Sys2Proof.Machine.execVrcp z g d a f s
  | .vrsq z g d a f => Sys2Proof.Machine.execVrsq z g d a f s
  | .vexp2 z g d a f => Sys2Proof.Machine.execVexp2 z g d a f s
  | .vlog2 z g d a f => Sys2Proof.Machine.execVlog2 z g d a f s
  | .vcvt z g d a m => Sys2Proof.Machine.execVcvt z g d a m s
  | .vpack6 z g d a => Sys2Proof.Machine.execVpack6 z g d a s
  | .vunpk6 z g d a => Sys2Proof.Machine.execVunpk6 z g d a s
  | .vqb4 z g d a => Sys2Proof.Machine.execVqb4 z g d a s
  | .vdqb4 z g d a => Sys2Proof.Machine.execVdqb4 z g d a s
  | .vldS8 z g t b i0 d f => Sys2Proof.Machine.execVldS8 z g t b i0 d f s
  | .vldZ8 z g t b i0 d f => Sys2Proof.Machine.execVldZ8 z g t b i0 d f s
  | .vldS16 z g t b i0 d f => Sys2Proof.Machine.execVldS16 z g t b i0 d f s
  | .vldZ16 z g t b i0 d f => Sys2Proof.Machine.execVldZ16 z g t b i0 d f s
  | .vld32 z g t b i0 d f => Sys2Proof.Machine.execVld32 z g t b i0 d f s
  | .vld64 z g t b i0 d f => Sys2Proof.Machine.execVld64 z g t b i0 d f s
  | .vst8 z g t b i0 d => Sys2Proof.Machine.execVst8 z g t b i0 d s
  | .vst16 z g t b i0 d => Sys2Proof.Machine.execVst16 z g t b i0 d s
  | .vst32 z g t b i0 d => Sys2Proof.Machine.execVst32 z g t b i0 d s
  | .vst64 z g t b i0 d => Sys2Proof.Machine.execVst64 z g t b i0 d s
  | .atom z g t b i0 o s0 => Sys2Proof.Machine.execAtom z g t b i0 o s0 s
  | .atomr z g t b i0 o s0 f => Sys2Proof.Machine.execAtomr z g t b i0 o s0 f s
  | .atomXadd z g t b i0 => Sys2Proof.Machine.execAtomXadd z g t b i0 s
  | .xclr z g b i0 => Sys2Proof.Machine.execXclr z g b i0 s
  | .xrnd z g t b i0 f => Sys2Proof.Machine.execXrnd z g t b i0 f s
  | .gadd z d a b => Sys2Proof.Machine.execGadd z d a b s
  | .gaddImm z d a i0 => Sys2Proof.Machine.execGaddImm z d a i0 s
  | .gsub z d a b => Sys2Proof.Machine.execGsub z d a b s
  | .gmul z d a b => Sys2Proof.Machine.execGmul z d a b s
  | .gmulhS z d a b => Sys2Proof.Machine.execGmulhS z d a b s
  | .gmulhZ z d a b => Sys2Proof.Machine.execGmulhZ z d a b s
  | .gmad z d a b => Sys2Proof.Machine.execGmad z d a b s
  | .gdivS z d a b => Sys2Proof.Machine.execGdivS z d a b s
  | .gdivZ z d a b => Sys2Proof.Machine.execGdivZ z d a b s
  | .gremS z d a b => Sys2Proof.Machine.execGremS z d a b s
  | .gremZ z d a b => Sys2Proof.Machine.execGremZ z d a b s
  | .gand z d a b => Sys2Proof.Machine.execGand z d a b s
  | .gor z d a b => Sys2Proof.Machine.execGor z d a b s
  | .gxor z d a b => Sys2Proof.Machine.execGxor z d a b s
  | .gnot z d a => Sys2Proof.Machine.execGnot z d a s
  | .gshl z d a b => Sys2Proof.Machine.execGshl z d a b s
  | .gshr z d a b => Sys2Proof.Machine.execGshr z d a b s
  | .gsar z d a b => Sys2Proof.Machine.execGsar z d a b s
  | .grot z d a b => Sys2Proof.Machine.execGrot z d a b s
  | .gminS z d a b => Sys2Proof.Machine.execGminS z d a b s
  | .gminZ z d a b => Sys2Proof.Machine.execGminZ z d a b s
  | .gmaxS z d a b => Sys2Proof.Machine.execGmaxS z d a b s
  | .gmaxZ z d a b => Sys2Proof.Machine.execGmaxZ z d a b s
  | .gmov z d a => Sys2Proof.Machine.execGmov z d a s
  | .gclz z d a => Sys2Proof.Machine.execGclz z d a s
  | .gpop z d a => Sys2Proof.Machine.execGpop z d a s
  | .gbfxS z d a b => Sys2Proof.Machine.execGbfxS z d a b s
  | .gbfxZ z d a b => Sys2Proof.Machine.execGbfxZ z d a b s
  | .gbfi z d a b => Sys2Proof.Machine.execGbfi z d a b s
  | .gmovi z d i0 => Sys2Proof.Machine.execGmovi z d i0 s
  | .gmovh z d i0 => Sys2Proof.Machine.execGmovh z d i0 s
  | .glea z d a b s0 => Sys2Proof.Machine.execGlea z d a b s0 s
  | .gcmp z d a b c => Sys2Proof.Machine.execGcmp z d a b c s
  | .gsel z d a b c => Sys2Proof.Machine.execGsel z d a b c s
  | .grdl z d a b => Sys2Proof.Machine.execGrdl z d a b s
  | .gwrl z d a b => Sys2Proof.Machine.execGwrl z d a b s
  | .gbal z d a => Sys2Proof.Machine.execGbal z d a s
  | .gpopm z d a => Sys2Proof.Machine.execGpopm z d a s
  | .gffs z d a => Sys2Proof.Machine.execGffs z d a s
  | .bra n p j o => Sys2Proof.Machine.execBra n p j o s
  | .braUncond o => Sys2Proof.Machine.execBraUncond o s
  | .bru a o => Sys2Proof.Machine.execBru a o s
  | .bruz a o => Sys2Proof.Machine.execBruz a o s
  | .brx a => Sys2Proof.Machine.execBrx a s
  | .call n p v o => Sys2Proof.Machine.execCall n p v o s
  | .callx n p v a => Sys2Proof.Machine.execCallx n p v a s
  | .ret n p v => Sys2Proof.Machine.execRet n p v s
  | .jset z j a o => Sys2Proof.Machine.execJset z j a o s
  | .join j => Sys2Proof.Machine.execJoin j s
  | .jstat z d j => Sys2Proof.Machine.execJstat z d j s
  | .exit n p => Sys2Proof.Machine.execExit n p s
  | .loop k c l => Sys2Proof.Machine.execLoop k c l s
  | .loopg k a l => Sys2Proof.Machine.execLoopg k a l s
  | .lbrk k a => Sys2Proof.Machine.execLbrk k a s
  | .park a b => Sys2Proof.Machine.execPark a b s
  | .nop z => Sys2Proof.Machine.execNop z s
  | .gld z d b i0 f => Sys2Proof.Machine.execGld z d b i0 f s
  | .gst z d b i0 => Sys2Proof.Machine.execGst z d b i0 s
  | .ord z o l => Sys2Proof.Machine.execOrd z o l s
  | .phrel z l => Sys2Proof.Machine.execPhrel z l s
  | .phacq z l => Sys2Proof.Machine.execPhacq z l s
  | .phase z l => Sys2Proof.Machine.execPhase z l s
  | .enter z n => Sys2Proof.Machine.execEnter z n s
  | .leave z n => Sys2Proof.Machine.execLeave z n s
  | .spill z v k => Sys2Proof.Machine.execSpill z v k s
  | .fill z v k => Sys2Proof.Machine.execFill z v k s
  | .lgetV z d a => Sys2Proof.Machine.execLgetV z d a s
  | .lgetG z d a => Sys2Proof.Machine.execLgetG z d a s
  | .lgetGranule z d a => Sys2Proof.Machine.execLgetGranule z d a s
  | .lgetP z d a => Sys2Proof.Machine.execLgetP z d a s
  | .lsetv z d a => Sys2Proof.Machine.execLsetv z d a s
  | .lraise z a b => Sys2Proof.Machine.execLraise z a b s
  | .lclear z a b => Sys2Proof.Machine.execLclear z a b s
  | .ljoin z d a b => Sys2Proof.Machine.execLjoin z d a b s
  | .ldom z d a b => Sys2Proof.Machine.execLdom z d a b s
  | .lown z d a i0 => Sys2Proof.Machine.execLown z d a i0 s
  | .dcls z d a b => Sys2Proof.Machine.execDcls z d a b s
  | .dclsT z d a b p => Sys2Proof.Machine.execDclsT z d a b p s
  | .endorse z a b => Sys2Proof.Machine.execEndorse z a b s
  | .endrev z a => Sys2Proof.Machine.execEndrev z a s
  | .endq z d a => Sys2Proof.Machine.execEndq z d a s
  | .bar l => Sys2Proof.Machine.execBar l s
  | .bara z l => Sys2Proof.Machine.execBara z l s
  | .barw l => Sys2Proof.Machine.execBarw l s
  | .rinit z a => Sys2Proof.Machine.execRinit z a s
  | .rpush z a b f => Sys2Proof.Machine.execRpush z a b f s
  | .rpop z d a f => Sys2Proof.Machine.execRpop z d a f s
  | .rpushT z d a b f => Sys2Proof.Machine.execRpushT z d a b f s
  | .rpopT z d a f => Sys2Proof.Machine.execRpopT z d a f s
  | .rstat z d a => Sys2Proof.Machine.execRstat z d a s
  | .launch z d a b f => Sys2Proof.Machine.execLaunch z d a b f s
  | .lcancel z a => Sys2Proof.Machine.execLcancel z a s
  | .lstat z d a => Sys2Proof.Machine.execLstat z d a s
  | .tmma z d a b m f => Sys2Proof.Machine.execTmma z d a b m f s
  | .tzero z d f => Sys2Proof.Machine.execTzero z d f s
  | .ttrn z d a m f => Sys2Proof.Machine.execTtrn z d a m f s
  | .tscl z d i0 f => Sys2Proof.Machine.execTscl z d i0 f s
  | .tlda z d a f => Sys2Proof.Machine.execTlda z d a f s
  | .tdrain z d a f => Sys2Proof.Machine.execTdrain z d a f s
  | .tdrainAdd z d a f => Sys2Proof.Machine.execTdrainAdd z d a f s
  | .tstat z d a => Sys2Proof.Machine.execTstat z d a s
  | .ruleld z a b => Sys2Proof.Machine.execRuleld z a b s
  | .ruleoff z a => Sys2Proof.Machine.execRuleoff z a s
  | .flushw z => Sys2Proof.Machine.execFlushw z s
  | .ruleq z d a => Sys2Proof.Machine.execRuleq z d a s
  | .etail z a b => Sys2Proof.Machine.execEtail z a b s
  | .waitseq a b => Sys2Proof.Machine.execWaitseq a b s
  | .seqr z d a => Sys2Proof.Machine.execSeqr z d a s
  | .coll z a => Sys2Proof.Machine.execColl z a s
  | .commq z d a => Sys2Proof.Machine.execCommq z d a s
  | .erid z d => Sys2Proof.Machine.execErid z d s
  | .esig z d => Sys2Proof.Machine.execEsig z d s
  | .estat z d => Sys2Proof.Machine.execEstat z d s
  | .einj z a b => Sys2Proof.Machine.execEinj z a b s
  | .trap i0 => Sys2Proof.Machine.execTrap i0 s
  | .sread z d s0 => Sys2Proof.Machine.execSread z d s0 s
  | .swrite z a s0 => Sys2Proof.Machine.execSwrite z a s0 s
  | .clkr z d => Sys2Proof.Machine.execClkr z d s
  | .rand z d f => Sys2Proof.Machine.execRand z d f s
  | .capr z d a => Sys2Proof.Machine.execCapr z d a s
  | .slog z a b => Sys2Proof.Machine.execSlog z a b s
  | .spdmRequest kind arg => Sys2Proof.Machine.execSpdmRequest kind arg s
  | .linkKeyInstall k => Sys2Proof.Machine.execLinkKeyInstall k s
  | .portRetrain k => Sys2Proof.Machine.execPortRetrain k s
  | .moduleReset => Sys2Proof.Machine.execModuleReset s
  | .thermalStop => Sys2Proof.Machine.execThermalStop s
  | .asidCreate => Sys2Proof.Machine.execAsidCreate s
  | .asidDestroy => Sys2Proof.Machine.execAsidDestroy s
  | .lhandle => Sys2Proof.Machine.execLhandle s
  | .map => Sys2Proof.Machine.execMap s
  | .unmap => Sys2Proof.Machine.execUnmap s
  | .settag => Sys2Proof.Machine.execSettag s
  | .acl => Sys2Proof.Machine.execAcl s
  | .cred => Sys2Proof.Machine.execCred s
  | .ctxkey => Sys2Proof.Machine.execCtxkey s
  | .pooladd => Sys2Proof.Machine.execPooladd s
  | .pooldel => Sys2Proof.Machine.execPooldel s
  | .debugRead => Sys2Proof.Machine.execDebugRead s
  | .debugWrite => Sys2Proof.Machine.execDebugWrite s
  | .debugResume => Sys2Proof.Machine.execDebugResume s
  | .dpop => Sys2Proof.Machine.execDpop s
  | .yield => Sys2Proof.Machine.execYield s
  | .tret => Sys2Proof.Machine.execTret s
  | .halt => Sys2Proof.Machine.execHalt s

end Sys2Proof.Machine
end

