-- ==== Sys2Proof/Machine/Step.lean ====
section
/-! DEFINITION. One step of the machine: the agent that moves, and its instruction. -/
namespace Sys2Proof.Machine

/-- One step: the agenda, or the model's own order when it is empty, names the agent; its instruction executes, and warps
that are due to stop do. -/
def step (s : State) : Host.Outcome State Fault Refusal :=
  match choose s with
  | (s', some i) => settled (exec i s')
  | (s', none) => .next s'

/-- A state with an instruction word stored where the very next step fetches and runs it (log entry 8). -/
def State.withFetchWord (s : State) (nbits w : Nat) : State :=
  if nbits = 32 then placeWord s (BitVec.ofNat 32 w) else s

end Sys2Proof.Machine
end

