-- ==== Sys2Proof/Safety.lean ====
section
/-! DEFINITION. The terms that statements use: when an instruction of a warp issues without a trap, what of the machine an
instruction leaves alone, which registers it changes, and the canonical form of the memories and of saved contexts. -/
namespace Sys2Proof.Machine

/-! ## Issue -/

/-- Where control goes when a clause ends at its last word (R151) is the word after it, or an address that R143 allows: on
a code page, and a safe-point header where it is not above the word. -/
abbrev EdgeOk (x : Ctx) (s : State) : Prop :=
  (loopStep x.pc 4 x.w).2 = x.pc + 4 ∨
    (fetchWord s x.asid (loopStep x.pc 4 x.w).2).isSome = true ∧
      ((loopStep x.pc 4 x.w).2.toNat ≤ x.pc.toNat → safeHeader s x.asid (loopStep x.pc 4 x.w).2 = true)

/-- Instruction `i` of the current warp passes the checks that come before its effect, in context `x`: no register it names
is pending (R29) or marked (R358), no register word it reads is damaged (R369), a warp-wide instruction issues with every
lane that has not exited (R80), and a back edge that its clause's end would take is one that R143 allows. -/
structure Ready (i : Instr) (u : Uses) (act : Mask) (moved : Bool) (s : State) (x : Ctx) : Prop where
  issuer : issuerOf (preIssue i s) = some x
  free : hazard x.w u = false
  unmarked : markedRead x.w u = none
  sound : damagedReads x.w.regs u act = []
  wide : warpWide i = true → x.w.live &&& ~~~x.grp = 0
  edge : boundary i = true → moved = false → EdgeOk x (preIssue i s)

/-- The warp that State.cur names. -/
def State.w (s : State) : Warp := (s.warp s.cur).getD Warp.zero

/-- Its registers. -/
def State.q (s : State) : WRegs := s.w.regs

/-- The label table of an address space can bind a set (R209): it has a handle, or it holds at most eight owners and a
handle is unbound. -/
abbrev Binds (s : State) (asid : Nat) (l : Label) : Prop := (bindIn (s.asidOf asid).labels l).isSome = true

/-- Every set of a list can be bound, one after the other. -/
abbrev BindsAll (s : State) (asid : Nat) (ls : List Label) : Prop := (bindAll (s.asidOf asid).labels ls).isSome = true

/-! ## Frames -/

/-- Label tables only grow: a bound handle keeps its set. -/
def LabelsGrow (s t : State) : Prop :=
  ∀ a h l, kget (s.asidOf a).labels h = some l → kget (t.asidOf a).labels h = some l

/-- Nothing of the hub but label tables, and the hub event arbiter's sequence number that a new handle takes (R222), has changed,
and the tables have only grown. -/
structure HubSame (s t : State) : Prop where
  hub : { t.hub with asids := s.hub.asids, hseq := s.hub.hseq } = s.hub
  asid : ∀ a, { t.asidOf a with labels := (s.asidOf a).labels } = s.asidOf a
  labels : LabelsGrow s t

/-- Nothing outside the current warp and the memories has changed but label tables, which have only grown. -/
structure BesideMem (s t : State) : Prop where
  cores : t.cores = s.cores
  warps : ∀ k, k ≠ s.cur → t.warp k = s.warp k
  rings : t.rings = s.rings
  chains : t.chains = s.chains
  haltAt : t.haltAt = s.haltAt
  launches : t.launches = s.launches
  nextLaunch : t.nextLaunch = s.nextLaunch
  hub : HubSame s t
  cur : t.cur = s.cur
  agenda : t.agenda = s.agenda

/-- Nothing outside the current warp has changed but label tables: every byte and every granule label of the memories is
as before. -/
structure Beside (s t : State) : Prop extends BesideMem s t where
  mem : t.mem = s.mem

/-- What an instruction that only writes registers leaves of its warp: everything but the registers, its place, and, where
it ends its clause, what R45, R147 and R151 do there; an ORD prefix before it is used up (R200). -/
structure Kept (i : Instr) (w w' : Warp) : Prop where
  rest : w' = { w with
    regs := w'.regs, pc := w'.pc, run := w'.run, yielded := w'.yielded, yieldNew := w'.yieldNew
    j := w'.j, lc := w'.lc, wcl := w'.wcl, ord := w'.ord, passed := w'.passed }
  ord : w'.ord = none
  inside : boundary i = false → w'.pc = w.pc ∧ w'.yielded = w.yielded ∧ w'.yieldNew = w.yieldNew ∧ w'.j = w.j ∧
    w'.lc = w.lc ∧ w'.wcl = w.wcl ∧ w'.run = w.run.map fun r => { r with pos := r.pos + 4 }
  ended : boundary i = true → w'.run = none

/-- Of the registers only G[d] has changed. -/
structure OnlyG (q q' : WRegs) (d : Nat) : Prop where
  g : ∀ r, r ≠ d → q'.getG r = q.getG r ∧ q'.labG r = q.labG r
  v : q'.v = q.v ∧ q'.vl = q.vl
  p : q'.p = q.p ∧ q'.pl = q.pl
  m : q'.m = q.m ∧ q'.ml = q.ml
  dmg : ∀ k, k ∈ q'.dmg ↔ k ∈ q.dmg ∧ k ≠ dmgKeyG d

/-- Of the registers only V[d] has changed, in the lanes of a mask. -/
structure OnlyV (q q' : WRegs) (d : Nat) (lanes : Mask) : Prop where
  v : ∀ r l, l < 32 → ¬ (r = d ∧ lanes.getLsbD l = true) → q'.getV r l = q.getV r l ∧ q'.labV r l = q.labV r l
  g : q'.g = q.g ∧ q'.gl = q.gl
  p : q'.p = q.p ∧ q'.pl = q.pl
  m : q'.m = q.m ∧ q'.ml = q.ml
  dmg : ∀ k, k ∈ q'.dmg ↔ k ∈ q.dmg ∧ ∀ l, lanes.getLsbD l = true → k ≠ dmgKeyV d l

/-- Of the registers only some V registers have changed, in the lanes of a mask. -/
structure OnlyVs (q q' : WRegs) (ds : List Nat) (lanes : Mask) : Prop where
  v : ∀ r l, l < 32 → ¬ (r ∈ ds ∧ lanes.getLsbD l = true) → q'.getV r l = q.getV r l ∧ q'.labV r l = q.labV r l
  g : q'.g = q.g ∧ q'.gl = q.gl
  p : q'.p = q.p ∧ q'.pl = q.pl
  m : q'.m = q.m ∧ q'.ml = q.ml
  dmg : ∀ k, k ∈ q'.dmg ↔ k ∈ q.dmg ∧ ∀ d ∈ ds, ∀ l, lanes.getLsbD l = true → k ≠ dmgKeyV d l

/-- Of the registers only P[d] has changed, in the lanes of a mask; nothing when `d` is 7 (R15). -/
structure OnlyP (q q' : WRegs) (d : Nat) (lanes : Mask) : Prop where
  p : ∀ r l, l < 32 → ¬ (r = d ∧ d ≠ 7 ∧ lanes.getLsbD l = true) →
    (q'.getP r).getLsbD l = (q.getP r).getLsbD l ∧ q'.labP r l = q.labP r l
  g : q'.g = q.g ∧ q'.gl = q.gl
  v : q'.v = q.v ∧ q'.vl = q.vl
  m : q'.m = q.m ∧ q'.ml = q.ml
  dmg : ∀ k, k ≠ dmgKeyP d → (k ∈ q'.dmg ↔ k ∈ q.dmg)

/-- Of the registers only M[d] has changed. -/
structure OnlyM (q q' : WRegs) (d : Nat) : Prop where
  m : ∀ r, r ≠ d → q'.getM r = q.getM r ∧ q'.labM r = q.labM r
  g : q'.g = q.g ∧ q'.gl = q.gl
  v : q'.v = q.v ∧ q'.vl = q.vl
  p : q'.p = q.p ∧ q'.pl = q.pl
  dmg : ∀ k, k ∈ q'.dmg ↔ k ∈ q.dmg ∧ k ≠ dmgKeyM d

/-- A label holds exactly the owners of some labels (R206: a join). -/
def IsJoin (l : Label) (ls : List Label) : Prop := ∀ o, o ∈ l ↔ ∃ k ∈ ls, o ∈ k

/-- Every lane. -/
def allLanes : Mask := 0xFFFFFFFF#32

/-- The active lanes of a guarded instruction (R15): those of the issuing group whose P[g] is true. -/
def activeLanes (x : Ctx) (g : BitVec 3) : Mask := x.grp &&& x.w.regs.getP g.toNat

/-- An instruction completes and writes G[d] and no other register: the value, and a label that joins the labels given. -/
def WritesG (i : Instr) (s : State) (x : Ctx) (d : Nat) (v : Word) (ls : List Label) : Prop :=
  ∃ t, exec i s = .next t ∧ t.q.getG d = v ∧ IsJoin (t.q.labG d) ls ∧ OnlyG x.w.regs t.q d ∧ Kept i x.w t.w ∧
    Beside (preIssue i s) t

/-- An instruction completes and writes V[d] in some lanes, and no other register: what holds of each lane's value, and a
label that joins the labels given for it. -/
def WritesV (i : Instr) (s : State) (x : Ctx) (d : Nat) (lanes : Mask) (ok : Nat → Word → Prop)
    (ls : Nat → List Label) : Prop :=
  ∃ t, exec i s = .next t ∧
    (∀ l, lanes.getLsbD l = true → ok l (t.q.getV d l) ∧ IsJoin (t.q.labV d l) (ls l)) ∧
    OnlyV x.w.regs t.q d lanes ∧ Kept i x.w t.w ∧ Beside (preIssue i s) t

/-- An instruction completes and writes P[d] in some lanes, and no other register; a write to P7 is discarded (R15). -/
def WritesP (i : Instr) (s : State) (x : Ctx) (d : Nat) (lanes : Mask) (v : Nat → Bool) (ls : Nat → List Label) : Prop :=
  ∃ t, exec i s = .next t ∧
    (d ≠ 7 → ∀ l, lanes.getLsbD l = true → (t.q.getP d).getLsbD l = v l ∧ IsJoin (t.q.labP d l) (ls l)) ∧
    OnlyP x.w.regs t.q d lanes ∧ Kept i x.w t.w ∧ Beside (preIssue i s) t

/-- An instruction completes and writes M[d] and no other register. -/
def WritesM (i : Instr) (s : State) (x : Ctx) (d : Nat) (v : Mask) (ls : List Label) : Prop :=
  ∃ t, exec i s = .next t ∧ t.q.getM d = v ∧ IsJoin (t.q.labM d) ls ∧ OnlyM x.w.regs t.q d ∧ Kept i x.w t.w ∧
    Beside (preIssue i s) t

/-- An instruction completes and issues one long-latency operation (R27, R29): it joins the warp's pending operations with
the selected flag; registers and everything else of the warp stay. -/
def Starts (i : Instr) (s : State) (x : Ctx) (flag : Option Nat) (ok : Pend → Prop) : Prop :=
  ∃ t p, exec i s = .next t ∧ t.w.pend = x.w.pend ++ [p] ∧ p.id = x.w.issued ∧ p.flag = flag ∧ p.pc = x.pc ∧ ok p ∧
    t.w.issued = x.w.issued + 1 ∧ t.q = x.w.regs ∧
    Kept i { x.w with pend := t.w.pend, issued := t.w.issued } t.w ∧ Beside (preIssue i s) t

/-- A control instruction that sets its lanes' places completes: the warp changes as `w0` says, each lane of the group goes
where `dest` says, the clause is over, and the rejoin registers are evaluated (R45, R147); `beside` holds of what lies outside
the warp. -/
def MovesIn (beside : State → State → Prop) (i : Instr) (s : State) (x : Ctx) (w0 : Warp) (dest : Nat → Word) : Prop :=
  ∃ t pc pass, exec i s = .next t ∧
    (∀ l, l < 32 → aget 0 pc l = if x.grp.getLsbD l then dest l else x.w.pcOf l) ∧
    t.w = evalRejoins { w0 with
      pc := pc, run := none, yielded := w0.yieldNew &&& ~~~w0.exited, yieldNew := 0, ord := none, passed := pass } ∧
    beside (preIssue i s) t

/-- A control instruction completes and changes nothing outside its warp. -/
abbrev Moves (i : Instr) (s : State) (x : Ctx) (w0 : Warp) (dest : Nat → Word) : Prop := MovesIn Beside i s x w0 dest

/-- A transfer of some lanes to an address passes the checks of R143: a computed address is aligned and within 52 bits, it
is on a code page, and it is a safe-point header where it is not above the transfer. -/
abbrev TargetOk (x : Ctx) (s : State) (computed : Bool) (lanes : Mask) (a : Word) : Prop :=
  lanes = 0 ∨ (computed = true → a.toNat % 4 = 0 ∧ a.toNat < 2 ^ 52) ∧ (fetchWord s x.asid a).isSome = true ∧
    (a.toNat ≤ x.pc.toNat → safeHeader s x.asid a = true)

/-- An instruction completes, its warp changing as `w0` says beside its place; no register changes. -/
def Changes (i : Instr) (s : State) (x : Ctx) (w0 : Warp) : Prop :=
  ∃ t, exec i s = .next t ∧ Kept i w0 t.w ∧ t.q = x.w.regs ∧ Beside (preIssue i s) t

/-- Nothing outside the current warp has changed but label tables, the snapshots of remote granules that cores hold (R181),
and the model's free-value counter: no byte and no granule label of the memories. -/
structure BesideSnap (s t : State) : Prop where
  mem : t.mem = s.mem
  cores : ∀ c, { t.core c with snapshot := (s.core c).snapshot } = s.core c
  warps : ∀ k, k ≠ s.cur → t.warp k = s.warp k
  rings : t.rings = s.rings
  chains : t.chains = s.chains
  haltAt : t.haltAt = s.haltAt
  launches : t.launches = s.launches
  hub : HubSame s t
  cur : t.cur = s.cur

/-- What a write of bytes and of granule labels leaves alone: main memory, every byte and label not named, the registers of
every other warp, and the hub but for label tables.  (A write may wake parked groups, R153, disarm a ring, R240, detach a
chain, R309, heal a granule, R369, and mark its gang as published, R367.) -/
structure WritesMem (s t : State) (bytes : Nat → Option Byte) (labels : Nat → Option Label) : Prop where
  gal : ∀ a, readByte t.mem.gal a = (bytes a).getD (readByte s.mem.gal a)
  glab : ∀ g, granLabel t.mem (64 * g) = (labels g).getD (granLabel s.mem (64 * g))
  dram : t.mem.dram = s.mem.dram
  regs : ∀ k, k ≠ s.cur → (t.warp k).map (·.regs) = (s.warp k).map (·.regs)
  hub : HubSame s t
  cur : t.cur = s.cur

/-- The byte that the last of some stores, each an address with its bytes, leaves at an address. -/
def lastStore (ls : List (Nat × List Byte)) (a : Nat) : Option Byte :=
  ls.foldl (fun b p => if p.1 ≤ a ∧ a < p.1 + p.2.length then p.2[a - p.1]? else b) none

/-- The byte that a phase buffer holds for an address (R180). -/
def bufferedByte (es : List PhaseEntry) (a : Nat) : Option Byte :=
  match es.find? (·.gran == a / 64) with
  | none => none
  | some e => if e.bytes.getLsbD (a % 64) then some (e.data.extractLsb' (8 * (a % 64)) 8) else none

/-- What the home bank's side effects of a write may change of the writing warp (R153, R240). -/
def homeTouched (w w' : Warp) : Warp := { w with parked := w'.parked, marks := w'.marks, pend := w'.pend }

/-- Of the registers only G[62] and G[63] have changed. -/
structure OnlyStack (q q' : WRegs) : Prop where
  g : ∀ r, r ≠ 62 → r ≠ 63 → q'.getG r = q.getG r ∧ q'.labG r = q.labG r
  v : q'.v = q.v ∧ q'.vl = q.vl
  p : q'.p = q.p ∧ q'.pl = q.pl
  m : q'.m = q.m ∧ q'.ml = q.ml
  dmg : ∀ k, k ∈ q'.dmg ↔ k ∈ q.dmg ∧ k ≠ dmgKeyG 62 ∧ k ≠ dmgKeyG 63

end Sys2Proof.Machine

namespace Sys2Proof

/-- The memories stand in their canonical form. -/
def memoryOk (s : Machine.State) : Prop := s.mem.wf = true

/-- A step does not stop the machine. -/
def goesOn (s : Machine.State) : Prop := ∃ t, Machine.step s = .next t

end Sys2Proof
end

