-- ==== Sys2Proof/Certificates/Slice0/Obligations.lean ====
section
/-! DEFINITION. The statements for the provers. -/
open Sys2Proof Sys2Proof.Machine

namespace Sys2Proof.Machine.Claim

/-! ## Uniform instructions (R78, R82 to R93) -/

/-- The uniform instructions over G registers: the instruction, its source registers, and the value that R82 to R93
give. -/
def uniforms (z : Bool) (d a b : BitVec 6) (i11 : BitVec 11) (i17 : BitVec 17) (i16 : BitVec 16) (sh : BitVec 2)
    (c : BitVec 5) : List (Instr × List Nat × ((Nat → Word) → Word)) :=
  [(.gadd z d a b, [a.toNat, b.toNat], fun r => r a.toNat + r b.toNat),
   (.gaddImm z d a i11, [a.toNat], fun r => r a.toNat + i11.signExtend 64),
   (.gsub z d a b, [a.toNat, b.toNat], fun r => r a.toNat - r b.toNat),
   (.gmul z d a b, [a.toNat, b.toNat], fun r => r a.toNat * r b.toNat),
   (.gmulhS z d a b, [a.toNat, b.toNat],
    fun r => ((r a.toNat).signExtend 128 * (r b.toNat).signExtend 128).extractLsb' 64 64),
   (.gmulhZ z d a b, [a.toNat, b.toNat],
    fun r => ((r a.toNat).zeroExtend 128 * (r b.toNat).zeroExtend 128).extractLsb' 64 64),
   (.gmad z d a b, [a.toNat, b.toNat, d.toNat], fun r => r a.toNat * r b.toNat + r d.toNat),
   (.gdivS z d a b, [a.toNat, b.toNat],
    fun r => if r b.toNat = 0 then 0xFFFFFFFFFFFFFFFF#64 else (r a.toNat).sdiv (r b.toNat)),
   (.gdivZ z d a b, [a.toNat, b.toNat],
    fun r => if r b.toNat = 0 then 0xFFFFFFFFFFFFFFFF#64 else (r a.toNat).udiv (r b.toNat)),
   (.gremS z d a b, [a.toNat, b.toNat], fun r => if r b.toNat = 0 then r a.toNat else (r a.toNat).srem (r b.toNat)),
   (.gremZ z d a b, [a.toNat, b.toNat], fun r => if r b.toNat = 0 then r a.toNat else (r a.toNat).umod (r b.toNat)),
   (.gand z d a b, [a.toNat, b.toNat], fun r => r a.toNat &&& r b.toNat),
   (.gor z d a b, [a.toNat, b.toNat], fun r => r a.toNat ||| r b.toNat),
   (.gxor z d a b, [a.toNat, b.toNat], fun r => r a.toNat ^^^ r b.toNat),
   (.gnot z d a, [a.toNat], fun r => ~~~(r a.toNat)),
   (.gshl z d a b, [a.toNat, b.toNat], fun r => if (r b.toNat).toNat < 64 then r a.toNat <<< (r b.toNat).toNat else 0),
   (.gshr z d a b, [a.toNat, b.toNat], fun r => if (r b.toNat).toNat < 64 then r a.toNat >>> (r b.toNat).toNat else 0),
   (.gsar z d a b, [a.toNat, b.toNat], fun r =>
    if (r b.toNat).toNat < 64 then (r a.toNat).sshiftRight (r b.toNat).toNat
    else if (r a.toNat).getLsbD 63 then 0xFFFFFFFFFFFFFFFF#64 else 0),
   (.grot z d a b, [a.toNat, b.toNat], fun r =>
    let k := (r b.toNat).toNat % 64
    (r a.toNat <<< k) ||| (r a.toNat >>> (64 - k))),
   (.gminS z d a b, [a.toNat, b.toNat], fun r => if (r b.toNat).slt (r a.toNat) then r b.toNat else r a.toNat),
   (.gminZ z d a b, [a.toNat, b.toNat], fun r => if (r b.toNat).ult (r a.toNat) then r b.toNat else r a.toNat),
   (.gmaxS z d a b, [a.toNat, b.toNat], fun r => if (r b.toNat).slt (r a.toNat) then r a.toNat else r b.toNat),
   (.gmaxZ z d a b, [a.toNat, b.toNat], fun r => if (r b.toNat).ult (r a.toNat) then r a.toNat else r b.toNat),
   (.gmov z d a, [a.toNat], fun r => r a.toNat),
   (.gclz z d a, [a.toNat], fun r =>
    wd (((List.range 64).find? fun n => (r a.toNat).getLsbD (63 - n)).getD 64)),
   (.gpop z d a, [a.toNat], fun r => wd ((List.range 64).countP fun n => (r a.toNat).getLsbD n)),
   (.gmovi z d i17, [], fun _ => i17.signExtend 64),
   (.gmovh z d i16, [d.toNat], fun r => (r d.toNat).extractLsb' 0 48 ++ i16),
   (.glea z d a b sh, [a.toNat, b.toNat], fun r => r a.toNat + wd (2 ^ sh.toNat) * r b.toNat),
   (.gsel z d a b c, [a.toNat, b.toNat, c.toNat], fun r => if r c.toNat = 0 then r b.toNat else r a.toNat)]

/-- The effective length of a bit field (R89): LEN of R88, cut at bit 63. -/
def fieldLen (y : Word) : Nat := min (y.extractLsb' 8 7).toNat (64 - (y.extractLsb' 0 6).toNat)

/-- A bit of GBFX.Z's, GBFX.S's and GBFI's result (R89), with the old Gd, Ga and the descriptor Gb. -/
def fieldBits (z : Bool) (d a b : BitVec 6) : List (Instr × List Nat × (Word → Word → Word → Nat → Bool)) :=
  [(.gbfxZ z d a b, [a.toNat, b.toNat], fun _ x y n =>
     decide (n < fieldLen y) && x.getLsbD ((y.extractLsb' 0 6).toNat + n)),
   (.gbfxS z d a b, [a.toNat, b.toNat], fun _ x y n =>
     decide (fieldLen y ≠ 0) && x.getLsbD ((y.extractLsb' 0 6).toNat + min n (fieldLen y - 1))),
   (.gbfi z d a b, [a.toNat, b.toNat, d.toNat], fun v x y n =>
     let p := (y.extractLsb' 0 6).toNat
     if p ≤ n ∧ n < p + fieldLen y then x.getLsbD (n - p) else v.getLsbD n)]

/-- The compare conditions of R33 on two signed and two unsigned readings: 0 EQ, 1 NE, 2 LT.S, 3 GE.S, 4 LT.Z, 5 GE.Z,
6 LE.S, 7 LE.Z. -/
def condHolds (c : Nat) (sx sy : Int) (ux uy : Nat) : Prop :=
  (c = 0 → ux = uy) ∧ (c = 1 → ux ≠ uy) ∧ (c = 2 → sx < sy) ∧ (c = 3 → sy ≤ sx) ∧ (c = 4 → ux < uy) ∧
    (c = 5 → uy ≤ ux) ∧ (c = 6 → sx ≤ sy) ∧ (c = 7 → ux ≤ uy)

/-- The registers a uniform instruction names. -/
def gUses (srcs : List Nat) (d : Nat) : Uses := { rg := srcs, wg := [d] }

/-- The labels that a uniform result joins (R78). -/
def gLabels (x : Ctx) (srcs : List Nat) : List Label := srcs.map x.w.regs.labG ++ [x.w.wcl]

/-! ## Per-lane instructions (R77, R96 to R107) -/

/-- What each element of width `n` of a result is. -/
def eachElem (n : Nat) (e : Nat → Nat → Prop) (r : Word) : Prop := ∀ k, k < 64 / n → e k (elemOf n k r)

/-- The value nearest to an integer that `n` signed bits can hold (R96). -/
def nearestS (n : Nat) (i : Int) : Int := max (-(2 ^ (n - 1))) (min (2 ^ (n - 1) - 1) i)

/-- The per-lane instructions of two sources on elements of width `n` (R96, R97, R100, R101, R104): with the elements
of Va and Vb, what holds of the result's element. -/
def laneBinaries (z : Bool) (g : BitVec 3) (d a b : BitVec 6) (w : BitVec 2) (n : Nat) :
    List (Instr × (Nat → Nat → Nat → Prop)) :=
  [(.vadd z g d a b w, fun x y r => r = (x + y) % 2 ^ n),
   (.vaddsS z g d a b w, fun x y r => sval n r = nearestS n (sval n x + sval n y)),
   (.vaddsZ z g d a b w, fun x y r => r = min (2 ^ n - 1) (x + y)),
   (.vsub z g d a b w, fun x y r => (r + y) % 2 ^ n = x),
   (.vsubsS z g d a b w, fun x y r => sval n r = nearestS n (sval n x - sval n y)),
   (.vsubsZ z g d a b w, fun x y r => r = x - y),
   (.vmul z g d a b w, fun x y r => r = x * y % 2 ^ n),
   (.vmulhS z g d a b w, fun x y r => sval n r = sval n x * sval n y / 2 ^ n),
   (.vmulhZ z g d a b w, fun x y r => r = x * y / 2 ^ n),
   (.vshl z g d a b w, fun x y r => r = if y < n then x * 2 ^ y % 2 ^ n else 0),
   (.vshr z g d a b w, fun x y r => r = if y < n then x / 2 ^ y else 0),
   (.vsar z g d a b w, fun x y r => sval n r = if y < n then sval n x / 2 ^ y else if sval n x < 0 then -1 else 0),
   (.vminS z g d a b w, fun x y r => sval n r = min (sval n x) (sval n y)),
   (.vminZ z g d a b w, fun x y r => r = min x y),
   (.vmaxS z g d a b w, fun x y r => sval n r = max (sval n x) (sval n y)),
   (.vmaxZ z g d a b w, fun x y r => r = max x y)]

/-- The per-lane instructions of one source on elements of width `n` (R107). -/
def laneUnaries (z : Bool) (g : BitVec 3) (d a : BitVec 6) (w : BitVec 2) (n : Nat) : List (Instr × (Nat → Nat → Prop)) :=
  [(.vabs z g d a w, fun x r => r = (sval n x).natAbs),
   (.vclz z g d a w, fun x r => r ≤ n ∧ x < 2 ^ (n - r) ∧ (r < n → 2 ^ (n - r - 1) ≤ x)),
   (.vpop z g d a w, fun x r => r = (List.range n).countP fun j => x.testBit j)]

/-- The per-lane instructions of one source that take the register whole or change its width `n` (R107). -/
def laneWords (z : Bool) (g : BitVec 3) (d a : BitVec 6) (w : BitVec 2) (n : Nat) : List (Instr × (Word → Word → Prop)) :=
  [(.vmov z g d a, fun x r => r = x),
   (.vnot z g d a, fun x r => r = ~~~x),
   (.vextS z g d a w, fun x r => ∀ k, k < 32 / n → sval (2 * n) (elemOf (2 * n) k r) = sval n (elemOf n k x)),
   (.vextZ z g d a w, fun x r => ∀ k, k < 32 / n → elemOf (2 * n) k r = elemOf n k x),
   (.vnar z g d a w, fun x r => r.toNat < 2 ^ 32 ∧ ∀ k, k < 64 / n → elemOf (n / 2) k r = elemOf n k x % 2 ^ (n / 2)),
   (.vnars z g d a w, fun x r => r.toNat < 2 ^ 32 ∧
     ∀ k, k < 64 / n → sval (n / 2) (elemOf (n / 2) k r) = nearestS (n / 2) (sval n (elemOf n k x)))]

/-- The labels that a lane's result joins (R77). -/
def vLabels (x : Ctx) (g : BitVec 3) (srcs : List Nat) (l : Nat) : List Label :=
  srcs.map (x.w.regs.labV · l) ++ [x.w.regs.labP g.toNat l, x.w.wcl]

/-- The labels of some lanes' results hold at most eight owners each (R79) and can be bound (R209). -/
abbrev LabelsFit (x : Ctx) (s : State) (lanes : Mask) (ls : Nat → List Label) : Prop :=
  (∀ l < 32, lanes.getLsbD l = true → (joinAll (ls l)).length ≤ 8) ∧
    BindsAll s x.asid ((lanesOf lanes).map fun l => joinAll (ls l))

/-- The registers a guarded per-lane instruction names. -/
def vUses (g : BitVec 3) (srcs : List Nat) (d : Nat) : Uses := { rv := srcs, rp := [g.toNat], wv := [d] }

/-! ## Reductions (R108, R109) -/

/-- The value at lane `i` of VRED's tree after `k` steps (R108), some lanes being absent. -/
def redTree (f : Nat → Nat → Nat) (x : Nat → Option Nat) : Nat → Nat → Option Nat
  | 0, i => x i
  | k + 1, i => combineOpt f (redTree f x k i) (redTree f x k (i + 2 ^ k))

/-- The value at lane `i` of VSCAN's tree after `k` steps (R108). -/
def scanAt (f : Nat → Nat → Nat) (x : Nat → Option Nat) : Nat → Nat → Option Nat
  | 0, i => x i
  | k + 1, i => if i < 2 ^ k then scanAt f x k i else combineOpt f (scanAt f x k (i - 2 ^ k)) (scanAt f x k i)

/-- Element `k` of Va in the contributing lanes (R108). -/
def contrib (x : Ctx) (g : BitVec 3) (a : BitVec 6) (n k : Nat) (i : Nat) : Option Nat :=
  if (activeLanes x g).getLsbD i then some (elemOf n k (x.w.regs.getV a.toNat i)) else none

/-- The guard labels of every lane that has not exited, joined with WCL: g0 of R109. -/
def guardAll (x : Ctx) (g : BitVec 3) : Label := joinAll ((lanesOf x.w.live).map (x.w.regs.labP g.toNat) ++ [x.w.wcl])

/-! ## Exact values (R111, R112, R122, R123) -/

/-- An exact value: NaN, an infinity, or a magnitude with its sign. -/
inductive Exact where
  | nan
  | inf (neg : Bool)
  | fin (neg : Bool) (mag : ℚ)

/-- The exact value of a decoded number. -/
def Exact.of : FVal → Exact
  | .nan => .nan
  | .inf s => .inf s
  | .fin s m e => .fin s (m * (2 : ℚ) ^ e)

/-- A signed magnitude as a rational. -/
def signed (neg : Bool) (q : ℚ) : ℚ := if neg then -q else q

/-- The exact sum; a zero sum is +0 unless both terms are -0 (R123). -/
def Exact.add : Exact → Exact → Exact
  | .fin a p, .fin b q =>
    let v := signed a p + signed b q
    .fin (if v = 0 then a && b else decide (v < 0)) |v|
  | .inf a, .inf b => if a = b then .inf a else .nan
  | .inf a, .fin _ _ => .inf a
  | .fin _ _, .inf b => .inf b
  | _, _ => .nan

/-- The exact product (R123). -/
def Exact.mul : Exact → Exact → Exact
  | .fin a p, .fin b q => .fin (xor a b) (p * q)
  | .inf a, .inf b => .inf (xor a b)
  | .inf a, .fin b q => if q = 0 then .nan else .inf (xor a b)
  | .fin a p, .inf b => if p = 0 then .nan else .inf (xor a b)
  | _, _ => .nan

/-- The value with its sign inverted. -/
def Exact.neg : Exact → Exact
  | .nan => .nan
  | .inf s => .inf (!s)
  | .fin s q => .fin (!s) q

/-- What an infinity becomes in a format and a form (R122, R135). -/
def infinityCode (f : Fmt) (r : Rnd) (neg : Bool) : Nat :=
  if r ≠ .sat ∧ f.kind = 0 then f.inf neg else if r ≠ .sat ∧ f.kind = 1 then f.nan else f.sign neg + f.maxFinite

/-- An encoding is an exact value rounded once to a format; RoundingRight says what the rounding is. -/
def RoundedTo (f : Fmt) (r : Rnd) (c : Nat) : Exact → Prop
  | .nan => c = f.nan
  | .inf s => c = infinityCode f r s
  | .fin s q => ∃ (m : Nat) (e : Int), q = m * (2 : ℚ) ^ e ∧ c = roundF f r s m e

/-- The exact value of an encoding. -/
def val (f : Fmt) (c : Nat) : Exact := .of (decodeF f c)

/-- A value as a rational for comparing; the infinities lie outside every format's finite range. -/
def Exact.rat : Exact → ℚ
  | .nan => 0
  | .inf s => signed s (2 ^ 200)
  | .fin s q => signed s q

/-- A magnitude that a format's mantissa can hold, exponents unbounded above (R122). -/
def OnGrid (f : Fmt) (v : ℚ) : Prop := ∃ m k : Nat, m < 2 ^ (f.mw + 1) ∧ v = m * (2 : ℚ) ^ (f.emin + k)

/-- One whose mantissa ends in 0. -/
def EvenGrid (f : Fmt) (v : ℚ) : Prop :=
  ∃ m k : Nat, m < 2 ^ (f.mw + 1) ∧ (k = 0 ∨ 2 ^ f.mw ≤ m) ∧ m % 2 = 0 ∧ v = m * (2 : ℚ) ^ (f.emin + k)

/-- `v` is the nearest to `x` of the magnitudes a mantissa can hold, a tie going to the one whose mantissa ends in 0.
-/
def NearestGrid (f : Fmt) (x v : ℚ) : Prop :=
  OnGrid f v ∧ ∀ u, OnGrid f u → |x - v| ≤ |x - u| ∧ (|x - v| = |x - u| → u = v ∨ EvenGrid f v)

/-- `v` is the greatest of the magnitudes a mantissa can hold that is not above `x`. -/
def TruncGrid (f : Fmt) (x v : ℚ) : Prop := OnGrid f v ∧ v ≤ x ∧ ∀ u, OnGrid f u → u ≤ x → u ≤ v

/-- The formats of R110. -/
def formats : List Fmt := [fp32, bf16, fp16, e5m2, e4m3, e3m2, e2m1]

/-! ## The floating class (R128 to R140) -/

/-- Neither is a NaN and the condition on their values holds, or it is NE or UN (R33, R130). -/
def floatCond (c : Nat) (x y : Exact) : Prop :=
  let un := x = .nan ∨ y = .nan
  (c = 0 → ¬ un ∧ x.rat = y.rat) ∧ (c = 1 → un ∨ x.rat ≠ y.rat) ∧ (c = 2 → ¬ un ∧ x.rat < y.rat) ∧
    (c = 3 → ¬ un ∧ x.rat ≤ y.rat) ∧ (c = 4 → ¬ un ∧ y.rat < x.rat) ∧ (c = 5 → ¬ un ∧ y.rat ≤ x.rat) ∧
    (c = 6 → un) ∧ (c = 7 → ¬ un)

/-- `x` orders at or below `y`, with -0 below +0 (R124). -/
def atMost (x y : Exact) : Prop :=
  x.rat < y.rat ∨ x.rat = y.rat ∧ ((∃ q, y = .fin true q) → ∃ q, x = .fin true q)

/-- A minimumNumber or maximumNumber of two encodings (R124, R129). -/
def chosen (f : Fmt) (hi : Bool) (x y r : Nat) : Prop :=
  (val f x = .nan → val f y = .nan → r = f.nan) ∧ (val f x = .nan → val f y ≠ .nan → r = y) ∧
    (val f x ≠ .nan → val f y = .nan → r = x) ∧
    (val f x ≠ .nan → val f y ≠ .nan → (r = x ∨ r = y) ∧
      if hi then atMost (val f x) (val f r) ∧ atMost (val f y) (val f r)
      else atMost (val f r) (val f x) ∧ atMost (val f r) (val f y))

/-- The floating instructions of two sources, on elements of a format (R128, R129). -/
def floatBinaries (z : Bool) (g : BitVec 3) (d a b : BitVec 6) (w : BitVec 2) (f : Fmt) :
    List (Instr × (Nat → Nat → Nat → Prop)) :=
  [(.vfadd z g d a b w, fun x y r => RoundedTo f .rn r ((val f x).add (val f y))),
   (.vfsub z g d a b w, fun x y r => RoundedTo f .rn r ((val f x).add (val f y).neg)),
   (.vfmul z g d a b w, fun x y r => RoundedTo f .rn r ((val f x).mul (val f y))),
   (.vfmin z g d a b w, chosen f false),
   (.vfmax z g d a b w, chosen f true)]

/-- A value rounded to an integer (R136): nearest with ties to even, or toward zero. -/
def integerOf (r : Rnd) (q : ℚ) (i : Int) : Prop :=
  if r = .rz then |(i : ℚ)| ≤ |q| ∧ |q - i| < 1 ∧ 0 ≤ q * i
  else |q - i| ≤ 1 / 2 ∧ (|q - i| = 1 / 2 → i % 2 = 0)

/-- FP32 to an integer of `n` bits (R136). -/
def toInteger (r : Rnd) (saturate : Bool) (lo hi : Int) (n : Nat) (x c : Nat) : Prop :=
  match val fp32 x with
  | .nan => c = 0
  | .inf s => c = if saturate then wrap n (if s then lo else hi) else 0
  | .fin s q => ∃ i : Int, integerOf r (signed s q) i ∧
      c = wrap n (if saturate then max lo (min hi i) else i)

/-- An integer to FP32 (R136). -/
def ofInteger (r : Rnd) (i : Int) (c : Nat) : Prop := RoundedTo fp32 r c (.fin (decide (i < 0)) |(i : ℚ)|)

/-- The conversions of VCVT by their minor (R34, R134 to R136): bit offset and width of a source slot, bit offset of a
result slot, number of elements, and what holds of a source slot and its result. -/
def conversions : List (Nat × (Nat × Nat × Nat × Nat) × (Nat → Nat → Prop)) :=
  let ff (src dst : Fmt) (r : Rnd) (x c : Nat) : Prop := RoundedTo dst r c (val src x)
  [(0x00, (32, 32, 16, 2), ff fp32 bf16 .rn), (0x01, (32, 32, 16, 2), ff fp32 bf16 .rz),
   (0x02, (32, 32, 16, 2), ff fp32 fp16 .rn), (0x03, (32, 32, 16, 2), ff fp32 fp16 .rz),
   (0x04, (16, 16, 32, 2), ff bf16 fp32 .rn), (0x05, (16, 16, 32, 2), ff fp16 fp32 .rn),
   (0x06, (32, 32, 8, 2), ff fp32 e4m3 .rn), (0x07, (32, 32, 8, 2), ff fp32 e4m3 .sat),
   (0x08, (32, 32, 8, 2), ff fp32 e5m2 .rn), (0x09, (32, 32, 8, 2), ff fp32 e5m2 .sat),
   (0x0A, (8, 8, 32, 2), ff e4m3 fp32 .rn), (0x0B, (8, 8, 32, 2), ff e5m2 fp32 .rn),
   (0x0C, (32, 32, 8, 2), ff fp32 e3m2 .sat), (0x0D, (8, 6, 32, 2), ff e3m2 fp32 .rn),
   (0x0E, (32, 32, 4, 2), ff fp32 e2m1 .sat), (0x0F, (4, 4, 32, 2), ff e2m1 fp32 .rn),
   (0x10, (32, 32, 32, 2), fun x : Nat => ofInteger .rn (sval 32 x)), (0x11, (32, 32, 32, 2), fun x : Nat => ofInteger .rn x),
   (0x12, (32, 32, 32, 2), fun x : Nat => ofInteger .rz (sval 32 x)), (0x13, (32, 32, 32, 2), fun x : Nat => ofInteger .rz x),
   (0x14, (64, 64, 32, 1), fun x : Nat => ofInteger .rn (sval 64 x)), (0x15, (64, 64, 32, 1), fun x : Nat => ofInteger .rn x),
   (0x16, (64, 64, 32, 1), fun x : Nat => ofInteger .rz (sval 64 x)), (0x17, (64, 64, 32, 1), fun x : Nat => ofInteger .rz x),
   (0x18, (32, 32, 32, 2), toInteger .rn false 0 0 32), (0x19, (32, 32, 32, 2), toInteger .rz false 0 0 32),
   (0x1A, (32, 32, 32, 2), toInteger .rn true (-(2 ^ 31)) (2 ^ 31 - 1) 32),
   (0x1B, (32, 32, 32, 2), toInteger .rz true (-(2 ^ 31)) (2 ^ 31 - 1) 32),
   (0x1C, (32, 32, 32, 2), toInteger .rn false 0 0 32), (0x1D, (32, 32, 32, 2), toInteger .rz false 0 0 32),
   (0x1E, (32, 32, 32, 2), toInteger .rn true 0 (2 ^ 32 - 1) 32),
   (0x1F, (32, 32, 32, 2), toInteger .rz true 0 (2 ^ 32 - 1) 32),
   (0x20, (32, 32, 8, 2), toInteger .rn true (-128) 127 8), (0x21, (32, 32, 8, 2), toInteger .rz true (-128) 127 8)]

/-- The value of a block scale byte (R114). -/
def scaleOf (c : Nat) : Exact := if c / 128 % 2 = 1 then .nan else val e4m3 (c % 128)

/-- How far the magnitude of an E2M1 code is from a magnitude. -/
def e2m1Gap (q : ℚ) (c : Nat) : ℚ := abs (q - abs (val e2m1 c).rat)

/-- An E2M1 code is nearest to a value among all of them, a tie going to the even mantissa, and keeps the sign (R139).
-/
def nearestE2m1 (neg : Bool) (q : ℚ) (c : Nat) : Prop :=
  c < 16 ∧ (8 ≤ c ↔ neg = true) ∧ ∀ k, k < 8 →
    e2m1Gap q c ≤ e2m1Gap q k ∧ (e2m1Gap q c = e2m1Gap q k → k = c % 8 ∨ c % 2 = 0)

/-- An FP32 encoding is negative. -/
def negative (c : Nat) : Prop := 2 ^ 31 ≤ c % 2 ^ 32

end Sys2Proof.Machine.Claim

open Sys2Proof.Machine.Claim

/-- R78, R82 to R87, R90, R91, R93: a uniform instruction writes G[d] with f of its sources and with the join of its
sources' labels and WCL, and changes nothing else. -/
def Obligations.UniformResult : Prop :=
  ∀ (z : Bool) (d a b : BitVec 6) (i11 : BitVec 11) (i17 : BitVec 17) (i16 : BitVec 16) (sh : BitVec 2) (c : BitVec 5),
    ∀ p ∈ uniforms z d a b i11 i17 i16 sh c, ∀ (s : State) (x : Ctx),
      Ready p.1 (gUses p.2.1 d.toNat) allLanes false s x → Binds s x.asid (joinAll (gLabels x p.2.1)) →
        WritesG p.1 s x d.toNat (p.2.2 x.w.regs.getG) (gLabels x p.2.1)

/-- R89: GBFX.Z, GBFX.S and GBFI, bit by bit. -/
def Obligations.BitFieldResult : Prop :=
  ∀ (z : Bool) (d a b : BitVec 6), ∀ p ∈ fieldBits z d a b, ∀ (s : State) (x : Ctx),
    Ready p.1 (gUses p.2.1 d.toNat) allLanes false s x → Binds s x.asid (joinAll (gLabels x p.2.1)) →
      ∃ v : Word, WritesG p.1 s x d.toNat v (gLabels x p.2.1) ∧ ∀ n, n < 64 →
        v.getLsbD n = p.2.2 (x.w.regs.getG d.toNat) (x.w.regs.getG a.toNat) (x.w.regs.getG b.toNat) n

/-- R92 and R33: GCMP writes 1 to G[d] when the condition holds of G[a] and G[b], and 0 when it does not. -/
def Obligations.UniformCompare : Prop :=
  ∀ (z : Bool) (d a b : BitVec 6) (c : BitVec 5) (s : State) (x : Ctx), c.toNat < 8 →
    Ready (.gcmp z d a b c) (gUses [a.toNat, b.toNat] d.toNat) allLanes false s x →
    Binds s x.asid (joinAll (gLabels x [a.toNat, b.toNat])) →
      ∃ v : Word, WritesG (.gcmp z d a b c) s x d.toNat v (gLabels x [a.toNat, b.toNat]) ∧ (v = 0 ∨ v = 1) ∧
        (v = 1 ↔ condHolds c.toNat (x.w.regs.getG a.toNat).toInt (x.w.regs.getG b.toNat).toInt
          (x.w.regs.getG a.toNat).toNat (x.w.regs.getG b.toNat).toNat)

/-- R94, R95: GRDL, GBAL, GPOPM and GFFS, and GWRL when its lane is in the issuing group and when it is not. -/
def Obligations.LaneAndMaskResult : Prop :=
  ∀ (z : Bool) (s : State) (x : Ctx),
    (∀ d a b : BitVec 6,
      let t := ((x.w.regs.getG b.toNat).extractLsb' 0 5).toNat
      let gone := x.w.exited.getLsbD t
      let ls := if gone then [x.w.regs.labG b.toNat, x.w.wcl]
        else [x.w.regs.labV a.toNat t, x.w.regs.labG b.toNat, x.w.wcl]
      Ready (.grdl z d a b) { rv := [a.toNat], rg := [b.toNat], wg := [d.toNat] } (if gone then 0 else laneBit t) false s x →
      Binds s x.asid (joinAll ls) →
        WritesG (.grdl z d a b) s x d.toNat (if gone then 0 else x.w.regs.getV a.toNat t) ls) ∧
    (∀ d a : BitVec 3,
      let ls := (lanesOf x.w.live).map (x.w.regs.labP a.toNat) ++ [x.w.wcl]
      Ready (.gbal z d a) { rp := [a.toNat], wm := [d.toNat] } allLanes false s x → Binds s x.asid (joinAll ls) →
        WritesM (.gbal z d a) s x d.toNat (~~~x.w.exited &&& x.w.regs.getP a.toNat) ls) ∧
    (∀ (d : BitVec 6) (a : BitVec 3),
      let ls := [x.w.regs.labM a.toNat, x.w.wcl]
      let m := x.w.regs.getM a.toNat
      Binds s x.asid (joinAll ls) →
        (Ready (.gpopm z d a) { rm := [a.toNat], wg := [d.toNat] } allLanes false s x →
          WritesG (.gpopm z d a) s x d.toNat (wd ((List.range 32).countP fun n => m.getLsbD n)) ls) ∧
        (Ready (.gffs z d a) { rm := [a.toNat], wg := [d.toNat] } allLanes false s x →
          WritesG (.gffs z d a) s x d.toNat (wd (((List.range 32).find? fun n => m.getLsbD n).getD 32)) ls)) ∧
    (∀ d a b : BitVec 6,
      let t := ((x.w.regs.getG b.toNat).extractLsb' 0 5).toNat
      let ls := [x.w.regs.labG a.toNat, x.w.regs.labG b.toNat, x.w.wcl]
      let lanes := x.grp &&& laneBit t
      Ready (.gwrl z d a b) { rg := [a.toNat, b.toNat], wv := [d.toNat] } allLanes false s x →
      LabelsFit x s lanes (fun _ => ls) →
        WritesV (.gwrl z d a b) s x d.toNat lanes (fun _ v => v = x.w.regs.getG a.toNat) (fun _ => ls))

/-- R77, R96, R97, R100, R101: a per-lane instruction of two sources writes f of each pair of elements to V[d] in the
active lanes, with the join of R77, and changes nothing else. -/
def Obligations.LaneBinaryResult : Prop :=
  ∀ (z : Bool) (g : BitVec 3) (d a b : BitVec 6) (w : BitVec 2), ∀ p ∈ laneBinaries z g d a b w (widthOf w),
    ∀ (s : State) (x : Ctx),
      Ready p.1 (vUses g [a.toNat, b.toNat] d.toNat) (activeLanes x g) false s x →
      LabelsFit x s (activeLanes x g) (vLabels x g [a.toNat, b.toNat]) →
        WritesV p.1 s x d.toNat (activeLanes x g)
          (fun l => eachElem (widthOf w) fun k =>
            p.2 (elemOf (widthOf w) k (x.w.regs.getV a.toNat l)) (elemOf (widthOf w) k (x.w.regs.getV b.toNat l)))
          (vLabels x g [a.toNat, b.toNat])

/-- R99, R104: VAND, VOR and VXOR of whole registers, and VSHUF.E, which moves elements within a lane. -/
def Obligations.LaneWholeResult : Prop :=
  ∀ (z : Bool) (g : BitVec 3) (d a b : BitVec 6) (w : BitVec 2),
    ∀ p ∈ ([(.vand z g d a b, fun x y r => r = x &&& y), (.vor z g d a b, fun x y r => r = x ||| y),
        (.vxor z g d a b, fun x y r => r = x ^^^ y),
        (.vshufE z g d a b w, fun x y r => eachElem (widthOf w) (fun k e =>
          e = elemOf (widthOf w) (elemOf (widthOf w) k y % (64 / widthOf w)) x) r)] :
        List (Instr × (Word → Word → Word → Prop))),
    ∀ (s : State) (x : Ctx),
      Ready p.1 (vUses g [a.toNat, b.toNat] d.toNat) (activeLanes x g) false s x →
      LabelsFit x s (activeLanes x g) (vLabels x g [a.toNat, b.toNat]) →
        WritesV p.1 s x d.toNat (activeLanes x g)
          (fun l r => p.2 (x.w.regs.getV a.toNat l) (x.w.regs.getV b.toNat l) r) (vLabels x g [a.toNat, b.toNat])

/-- R97, R98: VMAD and VDOT4.S8 read Vd as a source. -/
def Obligations.LaneAccumulateResult : Prop :=
  ∀ (z : Bool) (g : BitVec 3) (d a b : BitVec 6) (w : BitVec 2),
    ∀ p ∈ ([(.vmad z g d a b w, fun v x y r => eachElem (widthOf w) (fun k e =>
          e = (elemOf (widthOf w) k v + elemOf (widthOf w) k x * elemOf (widthOf w) k y) % 2 ^ widthOf w) r),
        (.vdot4S8 z g d a b, fun v x y r => eachElem 32 (fun k e =>
          (e : Int) = ((elemOf 32 k v : Int) + ((List.range 4).map fun j =>
            sval 8 (elemOf 8 (4 * k + j) x) * sval 8 (elemOf 8 (4 * k + j) y)).sum) % 2 ^ 32) r)] :
        List (Instr × (Word → Word → Word → Word → Prop))),
    ∀ (s : State) (x : Ctx),
      Ready p.1 (vUses g [a.toNat, b.toNat, d.toNat] d.toNat) (activeLanes x g) false s x →
      LabelsFit x s (activeLanes x g) (vLabels x g [a.toNat, b.toNat, d.toNat]) →
        WritesV p.1 s x d.toNat (activeLanes x g)
          (fun l r => p.2 (x.w.regs.getV d.toNat l) (x.w.regs.getV a.toNat l) (x.w.regs.getV b.toNat l) r)
          (vLabels x g [a.toNat, b.toNat, d.toNat])

/-- R106, R107: the unary group, VMOVI and VBCAST. -/
def Obligations.LaneUnaryResult : Prop :=
  ∀ (z : Bool) (g : BitVec 3) (d a : BitVec 6) (w : BitVec 2) (i : BitVec 12) (s : State) (x : Ctx),
    (∀ p ∈ laneUnaries z g d a w (widthOf w),
      Ready p.1 (vUses g [a.toNat] d.toNat) (activeLanes x g) false s x →
      LabelsFit x s (activeLanes x g) (vLabels x g [a.toNat]) →
        WritesV p.1 s x d.toNat (activeLanes x g)
          (fun l => eachElem (widthOf w) fun k => p.2 (elemOf (widthOf w) k (x.w.regs.getV a.toNat l)))
          (vLabels x g [a.toNat])) ∧
    (∀ p ∈ laneWords z g d a w (widthOf w),
      Ready p.1 (vUses g [a.toNat] d.toNat) (activeLanes x g) false s x →
      LabelsFit x s (activeLanes x g) (vLabels x g [a.toNat]) →
        WritesV p.1 s x d.toNat (activeLanes x g) (fun l r => p.2 (x.w.regs.getV a.toNat l) r) (vLabels x g [a.toNat])) ∧
    (Ready (.vmovi z g d i w) (vUses g [] d.toNat) (activeLanes x g) false s x →
      LabelsFit x s (activeLanes x g) (vLabels x g []) →
        WritesV (.vmovi z g d i w) s x d.toNat (activeLanes x g)
          (fun _ => eachElem (widthOf w) fun _ e => e = (i.signExtend 64).toNat % 2 ^ widthOf w) (vLabels x g [])) ∧
    (let ls := fun l => x.w.regs.labG a.toNat :: vLabels x g [] l
     Ready (.vbcast z g d a) { rg := [a.toNat], rp := [g.toNat], wv := [d.toNat] } (activeLanes x g) false s x →
      LabelsFit x s (activeLanes x g) ls →
        WritesV (.vbcast z g d a) s x d.toNat (activeLanes x g) (fun _ r => r = x.w.regs.getG a.toNat) ls)

/-- R102, R103: VSEL selects by P[p] in every lane of the group; VSHUF.L reads Va of the lane that Vb names, 0 from a
lane that has exited. -/
def Obligations.LaneSelectResult : Prop :=
  ∀ (z : Bool) (g : BitVec 3) (d a b : BitVec 6) (s : State) (x : Ctx),
    (Ready (.vsel z g d a b) (vUses g [a.toNat, b.toNat] d.toNat) x.grp false s x →
      LabelsFit x s x.grp (vLabels x g [a.toNat, b.toNat]) →
        WritesV (.vsel z g d a b) s x d.toNat x.grp
          (fun l r => r = if (x.w.regs.getP g.toNat).getLsbD l then x.w.regs.getV a.toNat l else x.w.regs.getV b.toNat l)
          (vLabels x g [a.toNat, b.toNat])) ∧
    (let src := fun l => ((x.w.regs.getV b.toNat l).extractLsb' 0 5).toNat
     let ls := fun l => (if x.w.exited.getLsbD (src l) then [] else [x.w.regs.labV a.toNat (src l)]) ++
        vLabels x g [b.toNat] l
     (∀ l < 32, (activeLanes x g).getLsbD l = true → dmgKeyV b.toNat l ∉ x.w.regs.dmg ∧
        (x.w.exited.getLsbD (src l) = false → dmgKeyV a.toNat (src l) ∉ x.w.regs.dmg)) →
     Ready (.vshufL z g d a b) (vUses g [a.toNat, b.toNat] d.toNat) 0 false s x →
      LabelsFit x s (activeLanes x g) ls →
        WritesV (.vshufL z g d a b) s x d.toNat (activeLanes x g)
          (fun l r => r = if x.w.exited.getLsbD (src l) then 0 else x.w.regs.getV a.toNat (src l)) ls)

/-- R105 and R33: VCMP writes the condition on element 0 to P[d] in the active lanes; P7 keeps its value. -/
def Obligations.LaneCompareResult : Prop :=
  ∀ (z : Bool) (g p c : BitVec 3) (a b : BitVec 6) (w : BitVec 2) (s : State) (x : Ctx),
    Ready (.vcmp z g p c a b w) { rv := [a.toNat, b.toNat], rp := [g.toNat], wp := [p.toNat] } (activeLanes x g) false s x →
    LabelsFit x s (activeLanes x g) (vLabels x g [a.toNat, b.toNat]) →
      ∃ v : Nat → Bool, WritesP (.vcmp z g p c a b w) s x p.toNat (activeLanes x g) v (vLabels x g [a.toNat, b.toNat]) ∧
        ∀ l, let n := widthOf w
          let e := elemOf n 0 (x.w.regs.getV a.toNat l)
          let f := elemOf n 0 (x.w.regs.getV b.toNat l)
          v l = true ↔ condHolds c.toNat (sval n e) (sval n f) e f

/-- R108, R109, R120: VRED and VSCAN combine the contributing lanes' elements by the fixed trees, a NaN that no other operand has
met becoming the canonical one, and only contributors are written, with the label of R109. -/
def Obligations.ReductionResult : Prop :=
  ∀ (z : Bool) (g : BitVec 3) (d a o : BitVec 6) (w : BitVec 2) (s : State) (x : Ctx),
    let n := (combineOp o.toNat w).1
    let f := (combineOp o.toNat w).2
    let lanes := activeLanes x g
    (let ls := fun _ => guardAll x g :: (lanesOf lanes).map (x.w.regs.labV a.toNat)
     Ready (.vred z g d a o w) (vUses g [a.toNat] d.toNat) lanes false s x → LabelsFit x s lanes ls →
      WritesV (.vred z g d a o w) s x d.toNat lanes
        (fun _ => eachElem n fun k e => (redTree f (contrib x g a n k) 5 0).map (reduced o.toNat w) = some e) ls) ∧
    (let ls := fun l => guardAll x g :: ((lanesOf lanes).filter (· ≤ l)).map (x.w.regs.labV a.toNat)
     Ready (.vscan z g d a o w) (vUses g [a.toNat] d.toNat) lanes false s x → LabelsFit x s lanes ls →
      WritesV (.vscan z g d a o w) s x d.toNat lanes
        (fun l => eachElem n fun k e => (scanAt f (contrib x g a n k) 5 l).map (reduced o.toNat w) = some e) ls)

/-- R122: an exact magnitude is rounded to the format's mantissa, to nearest with ties to even or by truncation, and
beyond the max finite it becomes what the table of R122 says.  The table has a dash for FP32, BF16 and FP16 in the .SAT form,
for E5M2 and E4M3 in the .RZ form, and for E3M2 and E2M1 in the RN and .RZ forms, forms that no instruction has; there the model
fills in the max finite (log entry 9). -/
def Obligations.RoundingRight : Prop :=
  ∀ f ∈ formats, ∀ (r : Rnd) (neg : Bool) (m : Nat) (e : Int),
    ∃ v : ℚ, (if r = .rz then TruncGrid f (m * (2 : ℚ) ^ e) v else NearestGrid f (m * (2 : ℚ) ^ e) v) ∧
      (v ≤ (val f f.maxFinite).rat → val f (roundF f r neg m e) = .fin neg v) ∧
      ((val f f.maxFinite).rat < v → roundF f r neg m e =
        if r = .rn then infinityCode f .rn neg else f.sign neg + f.maxFinite)

/-- R128, R129: the floating arithmetic of two sources, and VFMA, whose product and sum are rounded once. -/
def Obligations.FloatArithmetic : Prop :=
  ∀ (z : Bool) (g : BitVec 3) (d a b : BitVec 6) (w : BitVec 2) (s : State) (x : Ctx),
    let f := typeOf w
    let n := f.width
    let lanes := activeLanes x g
    (∀ p ∈ floatBinaries z g d a b w f,
      Ready p.1 (vUses g [a.toNat, b.toNat] d.toNat) lanes false s x →
      LabelsFit x s lanes (vLabels x g [a.toNat, b.toNat]) →
        WritesV p.1 s x d.toNat lanes
          (fun l => eachElem n fun k => p.2 (elemOf n k (x.w.regs.getV a.toNat l)) (elemOf n k (x.w.regs.getV b.toNat l)))
          (vLabels x g [a.toNat, b.toNat])) ∧
    (Ready (.vfma z g d a b w) (vUses g [a.toNat, b.toNat, d.toNat] d.toNat) lanes false s x →
      LabelsFit x s lanes (vLabels x g [a.toNat, b.toNat, d.toNat]) →
        WritesV (.vfma z g d a b w) s x d.toNat lanes
          (fun l => eachElem n fun k r => RoundedTo f .rn r
            (((val f (elemOf n k (x.w.regs.getV a.toNat l))).mul (val f (elemOf n k (x.w.regs.getV b.toNat l)))).add
              (val f (elemOf n k (x.w.regs.getV d.toNat l)))))
          (vLabels x g [a.toNat, b.toNat, d.toNat]))

/-- R130, R131: VFCMP compares element 0 as values of the type, NaN unordered; VFABS and VFNEG change the sign bit
alone, and a NaN gives the canonical one. -/
def Obligations.FloatCompareAndSign : Prop :=
  ∀ (z : Bool) (g p c : BitVec 3) (d a b : BitVec 6) (w : BitVec 2) (s : State) (x : Ctx),
    let f := typeOf w
    let n := f.width
    let lanes := activeLanes x g
    (Ready (.vfcmp z g p c a b w) { rv := [a.toNat, b.toNat], rp := [g.toNat], wp := [p.toNat] } lanes false s x →
      LabelsFit x s lanes (vLabels x g [a.toNat, b.toNat]) →
        ∃ v : Nat → Bool, WritesP (.vfcmp z g p c a b w) s x p.toNat lanes v (vLabels x g [a.toNat, b.toNat]) ∧
          ∀ l, v l = true ↔
            floatCond c.toNat (val f (elemOf n 0 (x.w.regs.getV a.toNat l))) (val f (elemOf n 0 (x.w.regs.getV b.toNat l)))) ∧
    (∀ q ∈ ([(.vfabs z g d a w, fun e r => r = e % 2 ^ (n - 1)),
        (.vfneg z g d a w, fun e r => r % 2 ^ (n - 1) = e % 2 ^ (n - 1) ∧ (2 ^ (n - 1) ≤ r ↔ e < 2 ^ (n - 1)))] :
        List (Instr × (Nat → Nat → Prop))),
      Ready q.1 (vUses g [a.toNat] d.toNat) lanes false s x → LabelsFit x s lanes (vLabels x g [a.toNat]) →
        WritesV q.1 s x d.toNat lanes
          (fun l => eachElem n fun k r =>
            let e := elemOf n k (x.w.regs.getV a.toNat l)
            (val f e = .nan → r = f.nan) ∧ (val f e ≠ .nan → q.2 e r))
          (vLabels x g [a.toNat]))

/-- R132: VRCP, VRSQ, VEXP2 and VLOG2 fix their results at issue and leave one operation pending on the selected flag;
R133: the special operands, and the cases R132 gives as exact (log entry 9 is the model's choice for the others). -/
def Obligations.SpecialFunctions : Prop :=
  ∀ (z : Bool) (g : BitVec 3) (d a : BitVec 6) (fs : BitVec 1) (s : State) (x : Ctx),
    let lanes := activeLanes x g
    (∀ p ∈ ([(.vrcp z g d a fs, fun v r =>
          (v = .inf false → r = 0) ∧ (v = .inf true → r = 0x80000000) ∧
          (v = .fin false 0 → r = 0x7F800000) ∧ (v = .fin true 0 → r = 0xFF800000) ∧
          (∀ neg (k : Int), v = .fin neg ((2 : ℚ) ^ k) → RoundedTo fp32 .rn r (.fin neg ((2 : ℚ) ^ (-k))))),
        (.vrsq z g d a fs, fun v r =>
          (v = .inf false → r = 0) ∧ (v = .inf true → r = 0x7FC00000) ∧
          (v = .fin false 0 → r = 0x7F800000) ∧ (v = .fin true 0 → r = 0xFF800000) ∧
          (∀ q, 0 < q → v = .fin true q → r = 0x7FC00000)),
        (.vexp2 z g d a fs, fun v r =>
          (v = .inf false → r = 0x7F800000) ∧ (v = .inf true → r = 0) ∧ (∀ neg, v = .fin neg 0 → r = 0x3F800000) ∧
          (∀ k : Int, -149 ≤ k → k ≤ 127 → v = .fin (decide (k < 0)) |(k : ℚ)| → val fp32 r = .fin false ((2 : ℚ) ^ k)) ∧
          (∀ q, 128 ≤ q → v = .fin false q → r = 0x7F800000) ∧ (∀ q, 150 ≤ q → v = .fin true q → r = 0)),
        (.vlog2 z g d a fs, fun v r =>
          (v = .inf false → r = 0x7F800000) ∧ (v = .inf true → r = 0x7FC00000) ∧ (∀ neg, v = .fin neg 0 → r = 0xFF800000) ∧
          (∀ q, 0 < q → v = .fin true q → r = 0x7FC00000) ∧
          (∀ k : Int, v = .fin false ((2 : ℚ) ^ k) → val fp32 r = .fin (decide (k < 0)) |(k : ℚ)|))] :
        List (Instr × (Exact → Nat → Prop))),
      Ready p.1 (vUses g [a.toNat] d.toNat) lanes false s x → LabelsFit x s lanes (vLabels x g [a.toNat]) →
        Starts p.1 s x (x.flag fs) fun q => q.work = .special d.toNat ∧ q.stage = 1 ∧
          q.res.map (·.lane) = lanesOf lanes ∧ ∀ r ∈ q.res, r.dmg = false ∧ IsJoin r.lab (vLabels x g [a.toNat] r.lane) ∧
            eachElem 32 (fun k e =>
              let v := val fp32 (elemOf 32 k (x.w.regs.getV a.toNat r.lane))
              (v = .nan → e = 0x7FC00000) ∧ p.2 v e) r.val)

/-- R134 to R136: VCVT converts each source slot to its result slot; every other bit of the register becomes zero. -/
def Obligations.ConversionResult : Prop :=
  ∀ (z : Bool) (g : BitVec 3) (d a m : BitVec 6) (s : State) (x : Ctx), ∀ c ∈ conversions, m.toNat = c.1 →
    Ready (.vcvt z g d a m) (vUses g [a.toNat] d.toNat) (activeLanes x g) false s x →
    LabelsFit x s (activeLanes x g) (vLabels x g [a.toNat]) →
      WritesV (.vcvt z g d a m) s x d.toNat (activeLanes x g)
        (fun l r => r.toNat < 2 ^ (c.2.1.2.2.1 * c.2.1.2.2.2) ∧ ∀ k, k < c.2.1.2.2.2 →
          c.2.2 ((x.w.regs.getV a.toNat l).toNat / 2 ^ (c.2.1.1 * k) % 2 ^ c.2.1.2.1)
            (r.toNat / 2 ^ (c.2.1.2.2.1 * k) % 2 ^ c.2.1.2.2.1))
        (vLabels x g [a.toNat])

/-- R137, R138: VPACK6 and VUNPK6 move eight 6-bit elements; R139: VQB4's scale and codes. -/
def Sys2Proof.Machine.Claim.PackAndQuantise : Prop :=
  ∀ (z : Bool) (g : BitVec 3) (d a : BitVec 6) (a4 : BitVec 4) (s : State) (x : Ctx),
    let lanes := activeLanes x g
    (∀ p ∈ ([(.vpack6 z g d a, fun x r => r.toNat < 2 ^ 48 ∧ ∀ k, k < 8 → elemOf 6 k r = elemOf 8 k x % 64),
        (.vunpk6 z g d a, fun x r => eachElem 8 (fun k e => e = elemOf 6 k x) r)] :
        List (Instr × (Word → Word → Prop))),
      Ready p.1 (vUses g [a.toNat] d.toNat) lanes false s x → LabelsFit x s lanes (vLabels x g [a.toNat]) →
        WritesV p.1 s x d.toNat lanes (fun l r => p.2 (x.w.regs.getV a.toNat l) r) (vLabels x g [a.toNat])) ∧
    (let regs := (List.range 4).map (4 * a4.toNat + ·)
     Ready (.vqb4 z g d a4) (vUses g regs d.toNat) lanes false s x → LabelsFit x s lanes (vLabels x g regs) →
      WritesV (.vqb4 z g d a4) s x d.toNat lanes
        (fun l r =>
          let e := fun i => elemOf 32 (i % 2) (x.w.regs.getV (4 * a4.toNat + i / 2) l)
          let sc := r.toNat / 2 ^ 32
          ((∃ i, i < 8 ∧ val fp32 (e i) = .nan) → r = 0x7F00000000#64) ∧
          ((∀ i, i < 8 → val fp32 (e i) ≠ .nan) →
            sc ≤ 0x7E ∧
            ((∃ i, i < 8 ∧ 2688 < |(val fp32 (e i)).rat|) → sc = 0x7E) ∧
            ((∀ i, i < 8 → |(val fp32 (e i)).rat| ≤ 2688) →
              (∀ i, i < 8 → |(val fp32 (e i)).rat| ≤ 6 * (scaleOf sc).rat) ∧
              ∀ c, c < sc → ∃ i, i < 8 ∧ 6 * (scaleOf c).rat < |(val fp32 (e i)).rat|) ∧
            ∀ i, i < 8 → ∃ neg : Bool, (neg = true ↔ negative (e i)) ∧
              ((scaleOf sc).rat = 0 → elemOf 4 i r = if neg then 8 else 0) ∧
              ((scaleOf sc).rat ≠ 0 → nearestE2m1 neg (|(val fp32 (e i)).rat| / (scaleOf sc).rat) (elemOf 4 i r))))
        (vLabels x g regs))

/-- R140: VDQB4 writes Vd to Vd+3 of the active lanes with the eight elements of the block times its scale, as FP32.
-/
def Sys2Proof.Machine.Claim.DequantiseResult : Prop :=
  ∀ (z : Bool) (g : BitVec 3) (d4 : BitVec 4) (a : BitVec 6) (s : State) (x : Ctx),
    let lanes := activeLanes x g
    let regs := (List.range 4).map (4 * d4.toNat + ·)
    Ready (.vdqb4 z g d4 a) { rv := [a.toNat], rp := [g.toNat], wv := regs } lanes false s x →
    LabelsFit x s lanes (vLabels x g [a.toNat]) →
      ∃ t, exec (.vdqb4 z g d4 a) s = .next t ∧
        (∀ l < 32, lanes.getLsbD l = true → ∀ i, i < 8 →
          RoundedTo fp32 .rn (elemOf 32 (i % 2) (t.q.getV (4 * d4.toNat + i / 2) l))
            ((val e2m1 (elemOf 4 i (x.w.regs.getV a.toNat l))).mul (scaleOf (elemOf 8 4 (x.w.regs.getV a.toNat l)))) ∧
          IsJoin (t.q.labV (4 * d4.toNat + i / 2) l) (vLabels x g [a.toNat] l)) ∧
        OnlyVs x.w.regs t.q regs lanes ∧ Kept (.vdqb4 z g d4 a) x.w t.w ∧ Beside (preIssue (.vdqb4 z g d4 a) s) t

/-- R137 to R140: packing, unpacking, quantising and dequantising blocks. -/
def Obligations.BlockFormats : Prop := Sys2Proof.Machine.Claim.PackAndQuantise ∧ Sys2Proof.Machine.Claim.DequantiseResult

namespace Sys2Proof.Machine.Claim

/-! ## Control (R141 to R171) -/

/-- The active lanes of a guarded control instruction (R15): those of the group whose P[p] is true, false with N. -/
def ctlLanes (x : Ctx) (n : BitVec 1) (p : BitVec 3) : Mask :=
  x.grp &&& (if n = 1#1 then ~~~(x.w.regs.getP p.toNat) else x.w.regs.getP p.toNat)

/-- The address `o` words from an instruction. -/
def ahead {n : Nat} (x : Ctx) (o : BitVec n) : Word := x.pc + (o.signExtend 64) * 4

/-- The join of the guard labels of every lane of the group (R144). -/
def guardsJoin (x : Ctx) (p : BitVec 3) : Label := joinAll ((lanesOf x.grp).map (x.w.regs.labP p.toNat))

/-- Lanes that take a transfer go to `a`, the others to the next clause. -/
def fork (x : Ctx) (taken : Mask) (a : Word) (l : Nat) : Word := if taken.getLsbD l then a else x.pc + 4

/-- The link registers of a call (R161): V[v] of the lanes that take it holds the next clause's address with label
WCL. -/
def Linked (x : Ctx) (q : WRegs) (v : BitVec 6) (lanes : Mask) : Prop :=
  (∀ l < 32, lanes.getLsbD l = true → q.getV v.toNat l = x.pc + 4 ∧ q.labV v.toNat l = x.w.wcl) ∧
    OnlyV x.w.regs q v.toNat lanes

/-- Every lane that has not exited is in the issuing group (R152). -/
abbrev Converged (x : Ctx) : Prop := ~~~x.w.exited &&& ~~~x.grp = 0

/-- Registers that an instruction reads. -/
def gReads (rs : List Nat) : Uses := { rg := rs }

end Sys2Proof.Machine.Claim

/-- R158: BRA without a guard moves every lane of the group to its target; with one, the lanes whose guard holds go
there and the others to the next clause, when Jn is armed for the group and REGION dominates the guard's labels. -/
def Sys2Proof.Machine.Claim.BranchMovesPart : Prop :=
  ∀ (s : State) (x : Ctx) (n : BitVec 1) (p j : BitVec 3) (o : BitVec 16),
    (Ready (.braUncond o) {} 0 true s x → TargetOk x s false x.grp (ahead x o) →
      Moves (.braUncond o) s x x.w (fun _ => ahead x o)) ∧
    (Ready (.bra n p j o) { rp := [p.toNat] } (ctlLanes x n p) true s x →
      (x.w.rejoin j.toNat).armed = true → x.grp &&& ~~~(x.w.rejoin j.toNat).expect = 0 →
      dominates (x.w.rejoin j.toNat).region (guardsJoin x p) = true → TargetOk x s false (ctlLanes x n p) (ahead x o) →
      Moves (.bra n p j o) s x x.w (fork x (ctlLanes x n p) (ahead x o)))

/-- R159, R160: BRU branches when G[a] is not zero, BRUZ when it is zero, BRX to the address in G[a], when WCL
dominates G[a]'s label; the whole group moves together. -/
def Sys2Proof.Machine.Claim.UniformBranchMoves : Prop :=
  ∀ (s : State) (x : Ctx) (a : BitVec 6) (o : BitVec 16), dominates x.w.wcl (x.w.regs.labG a.toNat) = true →
    let v := x.w.regs.getG a.toNat
    (Ready (.bru a o) (gReads [a.toNat]) 0 true s x → (v ≠ 0 → TargetOk x s false x.grp (ahead x o)) →
      Moves (.bru a o) s x x.w (fun _ => if v ≠ 0 then ahead x o else x.pc + 4)) ∧
    (Ready (.bruz a o) (gReads [a.toNat]) 0 true s x → (v = 0 → TargetOk x s false x.grp (ahead x o)) →
      Moves (.bruz a o) s x x.w (fun _ => if v = 0 then ahead x o else x.pc + 4)) ∧
    (Ready (.brx a) (gReads [a.toNat]) 0 true s x → TargetOk x s true x.grp v →
      Moves (.brx a) s x x.w (fun _ => v))

/-- R158 to R160: the branches of the lanes by a guard, and of the whole group by a register. -/
def Obligations.BranchMoves : Prop := Sys2Proof.Machine.Claim.BranchMovesPart ∧ Sys2Proof.Machine.Claim.UniformBranchMoves

/-- R161, R162: CALL and CALLX write the link registers of the lanes that take them and move those lanes to the
target; RET moves each of its lanes to the address in its own link register. -/
def Obligations.CallsAndReturns : Prop :=
  ∀ (s : State) (x : Ctx) (n : BitVec 1) (p : BitVec 3) (v a : BitVec 6) (o : BitVec 13),
    let lanes := ctlLanes x n p
    (Ready (.call n p v o) { rp := [p.toNat], wv := [v.toNat] } lanes true s x →
      dominates x.w.wcl (guardsJoin x p) = true → TargetOk x s false lanes (ahead x o) →
      ∃ q, Linked x q v lanes ∧ Moves (.call n p v o) s x { x.w with regs := q } (fork x lanes (ahead x o))) ∧
    (Ready (.callx n p v a) { rg := [a.toNat], rp := [p.toNat], wv := [v.toNat] } lanes true s x →
      dominates x.w.wcl (joinL (guardsJoin x p) (x.w.regs.labG a.toNat)) = true →
      TargetOk x s true lanes (x.w.regs.getG a.toNat) →
      ∃ q, Linked x q v lanes ∧ Moves (.callx n p v a) s x { x.w with regs := q } (fork x lanes (x.w.regs.getG a.toNat))) ∧
    (Ready (.ret n p v) { rv := [v.toNat], rp := [p.toNat] } lanes true s x →
      dominates x.w.wcl (joinAll (guardsJoin x p :: (lanesOf lanes).map (x.w.regs.labV v.toNat))) = true →
      (∀ l < 32, lanes.getLsbD l = true → TargetOk x s true (laneBit l) (x.w.regs.getV v.toNat l)) →
      Moves (.ret n p v) s x x.w (fun l => if lanes.getLsbD l then x.w.regs.getV v.toNat l else x.pc + 4))

/-- R163, R165: JSET arms Jn for the issuing group with the region label that G[a] names, and raises WCL by it; JSTAT
returns Jn's state with the join of WCL and the region label. -/
def Sys2Proof.Machine.Claim.RejoinArmAndRead : Prop :=
  ∀ (s : State) (x : Ctx) (z : Bool) (j : BitVec 3) (a d : BitVec 6) (o : BitVec 14),
    let r := x.w.rejoin j.toNat
    (∀ named : Label, Ready (.jset z j a o) (gReads [a.toNat]) 0 false s x → r.armed = false → 0 < o.toInt →
      (x.w.regs.getG a.toNat).toNat < 4096 → setOf (x.labels s) (x.w.regs.getG a.toNat).toNat = some named →
      BindsAll s x.asid [joinL named (x.w.regs.labG a.toNat), joinL x.w.wcl (joinL named (x.w.regs.labG a.toNat))] →
      let region := joinL named (x.w.regs.labG a.toNat)
      let depth := 1 + ((List.range 8).filter fun k => (x.w.rejoin k).armed).length
      Changes (.jset z j a o) s x
        { x.w.setRejoin j.toNat ⟨x.grp, 0, true, false, false, depth, region, x.w.wcl, ahead x o, 0, x.w.handler.isSome⟩ with
          wcl := joinL x.w.wcl region }) ∧
    (Ready (.jstat z d j) { wg := [d.toNat] } 0 false s x → Binds s x.asid (joinL x.w.wcl r.region) → r.depth < 16 →
      ∀ hr ho, handleIn (x.labels s) r.region = some hr → handleIn (x.labels s) r.outer = some ho →
      hr < 4096 → ho < 4096 →
      ∃ v : Word, WritesG (.jstat z d j) s x d.toNat v [x.w.wcl, r.region] ∧ v.extractLsb' 32 32 = r.expect ∧
        v.getLsbD 31 = r.armed ∧ v.getLsbD 30 = r.lost ∧ v.getLsbD 29 = r.xit ∧ v.getLsbD 24 = false ∧ (v.extractLsb' 25 4).toNat = r.depth ∧
        (v.extractLsb' 12 12).toNat = hr ∧ (v.extractLsb' 0 12).toNat = ho)

/-- R164: JOIN adds the group to ARRIVE of Jn, when Jn is the deepest armed register, its TARGET is this clause and
the group is expected; R170: YIELD moves the group on with its yield marks set; R171: NOP does nothing. -/
def Sys2Proof.Machine.Claim.JoinYieldNop : Prop :=
  ∀ (s : State) (x : Ctx) (j : BitVec 3) (z : Bool),
    let r := x.w.rejoin j.toNat
    (Ready (.join j) {} 0 true s x → r.armed = true → r.target = x.run.hdr → x.grp &&& ~~~r.expect = 0 →
      (∀ k, k < 8 → (x.w.rejoin k).armed = true → (x.w.rejoin k).depth ≤ r.depth) →
      Moves (.join j) s x (x.w.setRejoin j.toNat { r with arrived := r.arrived ||| x.grp, next := x.pc + 4 }) x.w.pcOf) ∧
    (Ready .yield {} 0 true s x →
      Moves .yield s x { x.w with yieldNew := x.w.yieldNew ||| x.grp } (fun _ => x.pc + 4)) ∧
    (Ready (.nop z) {} 0 false s x → Changes (.nop z) s x x.w)

/-- R147: a rejoin register waits while a lane it expects may still arrive; otherwise its arrived lanes that have not
exited go on, WCL returns to OUTER when no expected lane exited or went past and stays as it is in an exit release or a lost
one, and the register is no longer armed. -/
def Sys2Proof.Machine.Claim.RejoinEvaluation : Prop :=
  ∀ (w : Warp) (k : Nat), (w.rejoin k).armed = true →
    let r := w.rejoin k
    let w' := evalRejoin w k
    let missing := fun l => r.expect.getLsbD l = true ∧ r.arrived.getLsbD l = false ∧ w.exited.getLsbD l = false
    let held := fun l => w.parkedLanes.getLsbD l = true ∨ w.arrivedLanes.getLsbD l = true ∨
      ∃ h, w.handler = some h ∧ h.grp.getLsbD l = false
    ((∃ l, l < 32 ∧ missing l ∧ (held l ∨ (w.pcOf l).toNat ≤ r.target.toNat)) → w' = w) ∧
    ((∀ l, l < 32 → missing l → ¬ held l ∧ r.target.toNat < (w.pcOf l).toNat) →
      (w'.rejoin k).armed = false ∧ (w'.rejoin k).arrived = 0 ∧
      ((w'.rejoin k).lost = true ↔ ∃ l, l < 32 ∧ missing l) ∧
      ((w'.rejoin k).xit = true ↔ ∃ l, l < 32 ∧ r.expect.getLsbD l = true ∧ w.exited.getLsbD l = true) ∧
      (∀ l, l < 32 → w'.pcOf l =
        if r.arrived.getLsbD l = true ∧ w.exited.getLsbD l = false then r.next else w.pcOf l) ∧
      ((∀ l, l < 32 → r.expect.getLsbD l = true → r.arrived.getLsbD l = true ∧ w.exited.getLsbD l = false) →
        w'.wcl = r.outer) ∧
      ((∃ l, l < 32 ∧ r.expect.getLsbD l = true ∧ w.exited.getLsbD l = true) → w'.wcl = w.wcl) ∧
      ((∃ l, l < 32 ∧ missing l) → w'.wcl = w.wcl) ∧
      (∀ j, j ≠ k → w'.rejoin j = w.rejoin j))

/-- R147, R163 to R165, R170, R171: arming, joining, reading and evaluating rejoin registers; YIELD and NOP. -/
def Obligations.RejoinInstructions : Prop :=
  Sys2Proof.Machine.Claim.RejoinArmAndRead ∧ Sys2Proof.Machine.Claim.JoinYieldNop ∧ Sys2Proof.Machine.Claim.RejoinEvaluation

/-- R167, R168: LOOP and LOOPG start a loop of a converged warp, or skip its body when the count is 0; LBRK leaves
loop k, and every active loop that started after it, when G[a] is not zero. -/
def Obligations.LoopMoves : Prop :=
  ∀ (s : State) (x : Ctx) (k : BitVec 2) (c : BitVec 12) (a : BitVec 6) (l : BitVec 9),
    let last := x.pc + BitVec.ofNat 64 (4 * (l.toNat + 1))
    let started := fun n : Nat =>
      { x.w.setLoop k.toNat ⟨n, true, x.pc + 4, last, x.w.loops + 1⟩ with loops := x.w.loops + 1 }
    let nests := ∀ j, j < 3 → (x.w.loop j).active = true → (x.w.loop j).first.toNat ≤ x.pc.toNat →
      x.pc.toNat ≤ (x.w.loop j).last.toNat →
      (x.w.loop j).first.toNat ≤ (x.pc + 4).toNat ∧ last.toNat ≤ (x.w.loop j).last.toNat
    let v := x.w.regs.getG a.toNat
    (Ready (.loop k c l) {} 0 true s x → Converged x → (x.w.loop k.toNat).active = false → nests →
      (c = 0 → TargetOk x s false x.grp (last + 4) → Moves (.loop k c l) s x x.w (fun _ => last + 4)) ∧
      (c ≠ 0 → Moves (.loop k c l) s x (started c.toNat) (fun _ => x.pc + 4))) ∧
    (Ready (.loopg k a l) (gReads [a.toNat]) 0 true s x → Converged x → (x.w.loop k.toNat).active = false → nests →
      dominates x.w.wcl (x.w.regs.labG a.toNat) = true → v.toNat < 2 ^ 32 →
      (v = 0 → TargetOk x s false x.grp (last + 4) → Moves (.loopg k a l) s x x.w (fun _ => last + 4)) ∧
      (v ≠ 0 → Moves (.loopg k a l) s x (started v.toNat) (fun _ => x.pc + 4))) ∧
    (let b := x.w.loop k.toNat
     Ready (.lbrk k a) (gReads [a.toNat]) 0 true s x → Converged x → dominates x.w.wcl (x.w.regs.labG a.toNat) = true →
      b.active = true → b.first.toNat ≤ x.pc.toNat → x.pc.toNat ≤ b.last.toNat →
      (v = 0 → Moves (.lbrk k a) s x x.w (fun _ => x.pc + 4)) ∧
      (v ≠ 0 → TargetOk x s false x.grp (b.last + 4) →
        ∃ w, Moves (.lbrk k a) s x w (fun _ => b.last + 4) ∧ w = { x.w with lc := w.lc } ∧ ∀ j, j < 3 →
          (w.loop j).active = ((x.w.loop j).active && decide ((x.w.loop j).order < b.order))))

/-- R153, R169: PARK compares the dword at the home bank with G[b]; its group parks on the granule when they are equal
and goes on when they are not (an issuer that is not replicated; EchoSteps says how a replica waits for Echo first).
-/
def Obligations.ParkMoves : Prop :=
  ∀ (s : State) (x : Ctx) (a b : BitVec 6) (pa : Nat),
    let i : Instr := .park a b
    let moves := MovesIn BesideSnap i s x
    let u := preIssue i s
    let ga := x.w.regs.getG a.toNat
    Ready i (gReads [a.toNat, b.toNat]) 0 true s x → ga.toNat % 8 = 0 → galPa x u ga.toNat 8 false = some pa →
    dominates x.w.wcl (joinAll [x.w.regs.labG a.toNat, x.w.regs.labG b.toNat, granLabel u.mem pa]) = true →
    atomicOn x.w x.core [pa] = false → x.w.items = [] → (∀ e ∈ x.w.phase, e.acq = []) → x.replicated = false →
    (∀ p ∈ x.w.parked, p.lanes ≠ 0) →
      (wd (readNum u.mem.gal pa 8) = x.w.regs.getG b.toNat →
        moves { x.w with parked := x.w.parked ++ [⟨x.grp, pa / 64, false⟩] } (fun _ => x.pc + 4)) ∧
      (wd (readNum u.mem.gal pa 8) ≠ x.w.regs.getG b.toNat → moves x.w (fun _ => x.pc + 4))

/-- R166, R185: EXIT ends the active lanes; the others go to the next clause. The warp's last EXIT, with nothing in flight,
publishes every byte that the warp has buffered and ends the warp. -/
def Obligations.ExitEndsLanes : Prop :=
  ∀ (s : State) (x : Ctx) (n : BitVec 1) (p : BitVec 3),
    let i : Instr := .exit n p
    let lanes := ctlLanes x n p
    Ready i { rp := [p.toNat] } lanes true s x → dominates x.w.wcl (guardsJoin x p) = true → x.w.marks = [] →
      (x.w.exited ||| lanes ≠ 0xFFFFFFFF#32 →
        Moves i s x { x.w with
            exited := x.w.exited ||| lanes, exitAt := some (x.run, x.word)
            handler := x.w.handler.map fun h => { h with exited := h.exited || lanes &&& h.grp != 0 } }
          (fun l => if lanes.getLsbD l then x.w.pcOf l else x.pc + 4)) ∧
      (x.w.exited ||| lanes = 0xFFFFFFFF#32 → unfinished (preIssue i s) x x.w = false → x.w.echo = none →
        x.replicated = false → x.w.passed = [] → (x.w.phase.map (·.gran)).Nodup →
        (∀ e ∈ x.w.phase, dominates (granLabel s.mem (e.gran * 64)) e.lab = true) →
        ∃ t, exec i s = .next t ∧ t.w.exited = 0xFFFFFFFF#32 ∧ t.w.run = none ∧ t.q = x.w.regs ∧ t.w.phase = [] ∧
          (∀ a, readByte t.mem.gal a = (bufferedByte x.w.phase a).getD (readByte s.mem.gal a)) ∧
          (∀ g, granLabel t.mem (64 * g) = granLabel s.mem (64 * g)) ∧ t.mem.dram = s.mem.dram)

namespace Sys2Proof.Machine.Claim

/-! ## Loads and stores (R172 to R203) -/

/-- Lane l's address of a VM operand (R17): G[b] + zext(V[i][l].w0) + disp * size, with no index for i = 15. -/
def laneAddr (x : Ctx) (b i : BitVec 4) (disp size l : Nat) : Nat :=
  ((x.w.regs.getG b.toNat).toNat + (if i = 15 then 0 else (x.w.regs.getV i.toNat l).toNat % 2 ^ 32) + disp * size) % 2 ^ 64

/-- The registers a VM operand names beside Gb. -/
def indexRegs (i : BitVec 4) : List Nat := if i = 15 then [] else [i.toNat]

/-- The labels of a lane's address and guard (R197, R198). -/
def addrLabels (x : Ctx) (g : BitVec 3) (b i : BitVec 4) (l : Nat) : List Label :=
  [x.w.regs.labG b.toNat, if i = 15 then [] else x.w.regs.labV i.toNat l, x.w.regs.labP g.toNat l, x.w.wcl]

/-- Every lane of a mask may access `size` bytes at its address, aligned, and `pa` is where they stand (R174, R176).
-/
abbrev Reaches (x : Ctx) (s : State) (lanes : Mask) (size : Nat) (wr : Bool) (addr pa : Nat → Nat) : Prop :=
  ∀ l < 32, lanes.getLsbD l = true → addr l % size = 0 ∧ galPa x s (addr l) size wr = some (pa l)

/-- Nothing that an access waits for: no atomic of the warp on its granules (R232), no buffered store of an ORD.ACQ, whose acquire
comes first (R189), and the issuer is not replicated; Echo's part is stated separately. -/
abbrev Unhindered (x : Ctx) (pas : List Nat) : Prop :=
  atomicOn x.w x.core pas = false ∧ x.w.items = [] ∧ (∀ e ∈ x.w.phase, e.acq = []) ∧ x.replicated = false

/-- What supplies byte `i` of a granule to the core's own reads (R181): of the entries that hold it, one that was written
last; none where no entry holds it. -/
def Supplied (es : List PhaseEntry) (i : Nat) : Option PhaseEntry → Prop
  | none => ∀ e ∈ es, e.bytes.getLsbD i = false
  | some e => e ∈ es ∧ e.bytes.getLsbD i = true ∧ ∀ e' ∈ es, e'.bytes.getLsbD i = true → e'.stamp ≤ e.stamp

/-- What a read of `size` bytes returns (R179, R181, R369): the number, whether damage supplied some of it, and a label.  A local
granule gives its home's.  Another gives, byte for byte, what the core has buffered and, where it has nothing, a copy of the
granule: its home's, or, unless the read goes `direct` to the home (R189), the one that the core's snapshot holds; and the label
joins those that supplied it. -/
def ReadAs (x : Ctx) (s : State) (direct : Bool) (size pa n : Nat) (dmg : Bool) (lab : Label) (ls : List Label) : Prop :=
  if pa / 2 ^ 20 = x.core then
    n = readNum s.mem.gal pa size ∧ dmg = granDamaged s pa ∧ IsJoin lab (granLabel s.mem pa :: ls)
  else ∃ (d : Snap) (sup : Nat → Option PhaseEntry),
    (d = homeSnap s pa ∨ direct = false ∧ kget (s.core x.core).snapshot (pa / 64) = some d) ∧
    (∀ i < size, Supplied (coreEntries s x.core (pa / 64)) (pa % 64 + i) (sup i)) ∧
    n < 2 ^ (8 * size) ∧
    (∀ i < size, BitVec.ofNat 8 (n / 2 ^ (8 * i)) = (match sup i with
      | some e => e.data
      | none => d.data).extractLsb' (8 * (pa % 64 + i)) 8) ∧
    (dmg = true ↔ ∃ i < size, (match sup i with
      | some e => e.dmg
      | none => d.dmg) = true) ∧
    IsJoin lab (d.lab :: ((List.range size).filterMap fun i => (sup i).map (·.lab)) ++ ls)

/-- What a load brings back for one lane (R197, R369): what the read returned, extended, with the join of its labels; zero and a
damage mark from damaged storage. -/
def Loaded (x : Ctx) (s : State) (direct : Bool) (size : Nat) (sx : Bool) (pa : Nat) (ls : List Label) (r : LaneRes) : Prop :=
  ∃ n, ReadAs x s direct size pa n r.dmg r.lab ls ∧
    r.val = if r.dmg then 0 else if sx then BitVec.ofInt 64 (sval (8 * size) n) else BitVec.ofNat 64 n

/-- The loads VLD with their sizes and extensions (R197). -/
def vlds (z : Bool) (g : BitVec 3) (t : BitVec 6) (b i : BitVec 4) (d : BitVec 5) (f : BitVec 1) : List (Instr × Nat × Bool) :=
  [(.vldS8 z g t b i d f, 1, true), (.vldZ8 z g t b i d f, 1, false), (.vldS16 z g t b i d f, 2, true),
   (.vldZ16 z g t b i d f, 2, false), (.vld32 z g t b i d f, 4, false), (.vld64 z g t b i d f, 8, false)]

/-- The stores VST with their sizes (R198). -/
def vsts (z : Bool) (g : BitVec 3) (t : BitVec 6) (b i : BitVec 4) (d : BitVec 5) : List (Instr × Nat) :=
  [(.vst8 z g t b i d, 1), (.vst16 z g t b i d, 2), (.vst32 z g t b i d, 4), (.vst64 z g t b i d, 8)]

/-- The label a store must meet (R198): home's for a local granule, else the snapshot's, fetched on a miss. -/
def storeMust (x : Ctx) (s : State) (pa : Nat) : Label :=
  if pa / 2 ^ 20 = x.core then granLabel s.mem pa
  else match kget (s.core x.core).snapshot (pa / 64) with
    | some d => d.lab
    | none => granLabel s.mem pa

/-- The warp's buffered bytes that a release at a level publishes at their homes (R183). -/
abbrev inLevel (x : Ctx) (n : Nat) (e : PhaseEntry) : Prop :=
  n = x.lr.top ∨ inScope x.core (x.lr.scope n) (e.gran * 64) = true

/-- A release at a level waits for nothing and publishes all that it has to: every home label dominates (R183, R196). -/
abbrev Releases (x : Ctx) (u : State) (n : Nat) : Prop :=
  unfinished u x x.w = false ∧ x.w.echo = none ∧ x.replicated = false ∧ x.w.passed = [] ∧ (x.w.phase.map (·.gran)).Nodup ∧
    ∀ e ∈ x.w.phase, inLevel x n e → dominates (granLabel u.mem (e.gran * 64)) e.lab = true

/-- The entries that a release at a level publishes, and those that it leaves. -/
def sent (x : Ctx) (n : Nat) : List PhaseEntry := x.w.phase.filter fun e => decide (inLevel x n e)
/-- The entries that a release at a level leaves buffered. -/
def kept (x : Ctx) (n : Nat) : List PhaseEntry := x.w.phase.filter fun e => decide (¬ inLevel x n e)

/-- A load's operation (R27, R197): its flag, its destination, one result for each of the lanes in order, and what each brings
back; two lanes of one address receive the same. -/
structure LoadOp (x : Ctx) (f : BitVec 1) (dest lanes : List Nat) (pa : Nat → Nat) (ok : LaneRes → Prop) (p : Pend) : Prop where
  flag : p.flag = x.flag f
  id : p.id = x.w.issued
  pc : p.pc = x.pc
  dest : workDest p.work = dest
  stage : p.stage = 1
  lanes : p.res.map (·.lane) = lanes
  each : ∀ r ∈ p.res, ok r
  same : ∀ r ∈ p.res, ∀ r' ∈ p.res, pa r.lane = pa r'.lane → r.val = r'.val ∧ r.dmg = r'.dmg

/-- A load without a release part starts (R197): it leaves one operation pending and changes nothing else. -/
def LoadStarts (i : Instr) (s : State) (x : Ctx) (f : BitVec 1) (dest lanes : List Nat) (pa : Nat → Nat)
    (ok : LaneRes → Prop) : Prop :=
  ∃ t p, exec i s = .next t ∧ t.w.pend = x.w.pend ++ [p] ∧ LoadOp x f dest lanes pa ok p ∧ t.q = x.w.regs ∧
    Kept i { x.w with pend := t.w.pend, issued := t.w.issued } t.w ∧ BesideSnap (preIssue i s) t

/-- A load with a release part at level `n` starts (R189): the level's buffered bytes are published first, and the load then
reads every granule at its home. -/
def LoadReleases (i : Instr) (s : State) (x : Ctx) (n : Nat) (f : BitVec 1) (dest lanes : List Nat) (pa : Nat → Nat)
    (ok : State → LaneRes → Prop) : Prop :=
  ∃ t p, exec i s = .next t ∧ t.w.pend.getLast? = some p ∧ LoadOp x f dest lanes pa (ok t) p ∧ t.q = x.w.regs ∧
    WritesMem (preIssue i s) t (bufferedByte (sent x n)) (fun _ => none) ∧ t.w.phase = kept x n ∧ t.w.ord = none

/-- One lane's store: where, its bytes, and the label that they carry. -/
abbrev StoreOf := Nat × List Byte × Label

/-- The bytes that some stores leave, the last lane winning. -/
def lastOf (ls : List StoreOf) : Nat → Option Byte := lastStore (ls.map fun p => (p.1, p.2.1))

/-- The stores that are buffered: those to another slice than the core's own (R180). -/
def buffered (x : Ctx) (ls : List StoreOf) : List StoreOf := ls.filter fun p => p.1 / 2 ^ 20 ≠ x.core

/-- The labels that the entry of a granule joins after some stores (R180): its own before them, and theirs. -/
def entryJoin (x : Ctx) (ls : List StoreOf) (g : Nat) : List Label :=
  ((x.w.phase.filter (·.gran == g)).map (·.lab)) ++ ((buffered x ls).filter (·.1 / 64 == g)).map (·.2.2)

/-- A warp's buffer can take some stores (R186, R209): it holds at most one entry for a granule and has room, and its entries'
labels can be bound. -/
abbrev Fits (x : Ctx) (u : State) (ls : List StoreOf) : Prop :=
  (x.w.phase.map (·.gran)).Nodup ∧ entriesAfter x.w x.core (ls.map (·.1)) ≤ 256 ∧
    BindsAll u x.asid (((buffered x ls).map (·.1 / 64)).dedup.map fun g => joinAll (entryJoin x ls g))

/-- A store completes (R179, R180, R198): its local lanes' bytes stand at home, its remote lanes' bytes in the warp's
phase buffer, the last lane winning, where their granule's entry carries the join of its labels; nothing else of the memories
changes. -/
def Stored (i : Instr) (s : State) (x : Ctx) (ls : List StoreOf) : Prop :=
  let home := lastOf (ls.filter fun p => p.1 / 2 ^ 20 = x.core)
  let far := lastOf (buffered x ls)
  ∃ t, exec i s = .next t ∧ WritesMem (preIssue i s) t home (fun _ => none) ∧
    (∀ a, bufferedByte t.w.phase a = (far a).or (bufferedByte x.w.phase a)) ∧
    (∀ p ∈ buffered x ls, ∃ e ∈ t.w.phase, e.gran = p.1 / 64 ∧ IsJoin e.lab (entryJoin x ls e.gran)) ∧ t.q = x.w.regs ∧
    Kept i { homeTouched x.w t.w with phase := t.w.phase } t.w ∧ t.launches = (preIssue i s).launches

end Sys2Proof.Machine.Claim

/-- R197, R199, R179, R181, R189: VLD and GLD read at issue and leave one operation pending on the selected flag, which holds
what each lane brings back.  With an ORD that has a release part (order and level `o`, `n`), the release comes first and the
reads are performed at home; an acquire part alone also sends them home. -/
def Obligations.LoadsStart : Prop :=
  ∀ (z : Bool) (g : BitVec 3) (t d6 b6 : BitVec 6) (b i : BitVec 4) (d : BitVec 5) (i10 : BitVec 10) (f : BitVec 1)
    (s : State) (x : Ctx),
    (∀ p ∈ vlds z g t b i d f, ∀ pa : Nat → Nat,
      let lanes := activeLanes x g
      let ok := fun (u : State) (r : LaneRes) =>
        Loaded x u (x.acquires || x.releases) p.2.1 p.2.2 (pa r.lane) (addrLabels x g b i r.lane) r
      Ready p.1 { rv := indexRegs i, rg := [b.toNat], rp := [g.toNat], wv := [t.toNat] } lanes false s x →
      Reaches x (preIssue p.1 s) lanes p.2.1 false (laneAddr x b i d.toNat p.2.1) pa →
      Unhindered x ((lanesOf lanes).map pa) →
        (x.releases = false → LoadStarts p.1 s x f [t.toNat] (lanesOf lanes) pa (ok (preIssue p.1 s))) ∧
        (∀ o n, x.w.ord = some (o, n) → 2 ≤ o → Releases x (preIssue p.1 s) n →
          LoadReleases p.1 s x n f [t.toNat] (lanesOf lanes) pa ok)) ∧
    (∀ pa : Nat, let j : Instr := .gld z d6 b6 i10 f
      let a := ((x.w.regs.getG b6.toNat).toNat + 8 * i10.toNat) % 2 ^ 64
      let ok := fun u => Loaded x u (x.acquires || x.releases) 8 false pa [x.w.regs.labG b6.toNat, x.w.wcl]
      Ready j { rg := [b6.toNat], wg := [d6.toNat] } 0 false s x → a % 8 = 0 →
      galPa x (preIssue j s) a 8 false = some pa → Unhindered x [pa] →
        (x.releases = false → LoadStarts j s x f [64 + d6.toNat] [0] (fun _ => pa) (ok (preIssue j s))) ∧
        (∀ o n, x.w.ord = some (o, n) → 2 ≤ o → Releases x (preIssue j s) n →
          LoadReleases j s x n f [64 + d6.toNat] [0] (fun _ => pa) ok))

/-- The stores of a VST's lanes (R198): bytes of V[t] and the join of its label with the address's and the guard's. -/
def Sys2Proof.Machine.Claim.storesOf (x : Ctx) (lanes : List Nat) (pa : Nat → Nat) (size : Nat) (t : BitVec 6)
    (ls : Nat → List Label) : List StoreOf :=
  lanes.map fun l => (pa l, toBytes size (x.w.regs.getV t.toNat l).toNat, joinL (x.w.regs.labV t.toNat l) (joinAll (ls l)))

/-- R198, R199, R179, R180: VST and GST without an ORD, when every granule's label dominates the lane's join and the
phase buffer has room (R186), store every lane's bytes and nothing else. -/
def Sys2Proof.Machine.Claim.StoresWritePart : Prop :=
  ∀ (z : Bool) (g : BitVec 3) (t d6 b6 : BitVec 6) (b i : BitVec 4) (d : BitVec 5) (i10 : BitVec 10) (s : State) (x : Ctx),
    x.w.ord = none →
    (∀ p ∈ vsts z g t b i d, ∀ pa : Nat → Nat,
      let lanes := activeLanes x g
      let u := preIssue p.1 s
      Ready p.1 { rv := t.toNat :: indexRegs i, rg := [b.toNat], rp := [g.toNat] } lanes false s x →
      let ls := storesOf x (lanesOf lanes) pa p.2 t (addrLabels x g b i)
      Reaches x u lanes p.2 true (laneAddr x b i d.toNat p.2) pa → Unhindered x ((lanesOf lanes).map pa) →
      (∀ p ∈ ls, dominates (storeMust x u p.1) p.2.2 = true) → Fits x u ls → Stored p.1 s x ls) ∧
    (∀ pa : Nat, let j : Instr := .gst z d6 b6 i10
      let u := preIssue j s
      let a := ((x.w.regs.getG b6.toNat).toNat + 8 * i10.toNat) % 2 ^ 64
      Ready j { rg := [d6.toNat, b6.toNat] } 0 false s x → a % 8 = 0 → galPa x u a 8 true = some pa → Unhindered x [pa] →
      let lab := joinAll [x.w.regs.labG d6.toNat, x.w.regs.labG b6.toNat, x.w.wcl]
      dominates (storeMust x u pa) lab = true → Fits x u [(pa, toBytes 8 (x.w.regs.getG d6.toNat).toNat, lab)] →
        Stored j s x [(pa, toBytes 8 (x.w.regs.getG d6.toNat).toNat, lab)])

/-- A store with a release part at level `n` whose labels its granules' dominate, in the core's snapshot and at home, completes
(R189, R198): the level's buffered bytes and then its own stand at home. -/
def Sys2Proof.Machine.Claim.StoresHome (i : Instr) (s : State) (x : Ctx) (n : Nat) (ls : List StoreOf) : Prop :=
  let u := preIssue i s
  (∀ p ∈ ls, dominates (storeMust x u p.1) p.2.2 = true ∧ dominates (granLabel u.mem p.1) p.2.2 = true) →
    ∃ v, exec i s = .next v ∧ v.w.ord = none ∧ v.q = x.w.regs ∧ v.w.phase = kept x n ∧
      WritesMem u v (fun a => (lastOf ls a).or (bufferedByte (sent x n) a)) (fun _ => none)

/-- The instructions that an ORD may stand before (R200). -/
def Sys2Proof.Machine.Claim.orderable (z : Bool) (g : BitVec 3) (t d6 : BitVec 6) (b i o : BitVec 4) (d : BitVec 5)
    (i10 : BitVec 10) (sz f : BitVec 1) : List Instr :=
  (vlds z g t b i d f).map (·.1) ++ (vsts z g t b i d).map (·.1) ++
    [.gld z t d6 i10 f, .gst z t d6 i10, .atom z g t b i o sz, .atomr z g t b i o sz f, .atomXadd z g t b i, .xclr z g b i,
     .xrnd z g t b i f]

/-- R189, R200: ORD gives its order and level to the next instruction; a store with a release part publishes the level's
buffered bytes and then performs its own at home whatever slice they lie in. -/
def Sys2Proof.Machine.Claim.OrderedStore : Prop :=
  ∀ (z : Bool) (o lv : BitVec 3) (g : BitVec 3) (t d6 b6 : BitVec 6) (b i a : BitVec 4) (d : BitVec 5) (i10 : BitVec 10)
    (sz f : BitVec 1) (s : State) (x : Ctx),
    (∀ j ∈ orderable z g t d6 b i a d i10 sz f,
      Ready (.ord false o lv) {} 0 false s x → x.w.ord = none → x.lr.declared lv.toNat = true →
      (x.run.wordAt (x.pc + 4)).bind decode = some j →
      ∃ u, exec (.ord false o lv) s = .next u ∧ u.w.ord = some (o.toNat, lv.toNat) ∧ u.q = x.w.regs ∧
        u.w.run = some { x.run with pos := x.run.pos + 4 } ∧ Beside (preIssue (.ord false o lv) s) u) ∧
    (∀ p ∈ vsts z g t b i d, ∀ pa : Nat → Nat,
      let lanes := activeLanes x g
      let u := preIssue p.1 s
      let ls := storesOf x (lanesOf lanes) pa p.2 t (addrLabels x g b i)
      Ready p.1 { rv := t.toNat :: indexRegs i, rg := [b.toNat], rp := [g.toNat] } lanes false s x →
      Reaches x u lanes p.2 true (laneAddr x b i d.toNat p.2) pa → Unhindered x ((lanesOf lanes).map pa) →
      ∀ k n, x.w.ord = some (k, n) → 2 ≤ k → Releases x u n → StoresHome p.1 s x n ls) ∧
    (∀ pa : Nat, let j : Instr := .gst z d6 b6 i10
      let u := preIssue j s
      let ga := ((x.w.regs.getG b6.toNat).toNat + 8 * i10.toNat) % 2 ^ 64
      Ready j { rg := [d6.toNat, b6.toNat] } 0 false s x → ga % 8 = 0 → galPa x u ga 8 true = some pa → Unhindered x [pa] →
      ∀ k n, x.w.ord = some (k, n) → 2 ≤ k → Releases x u n →
        StoresHome j s x n [(pa, toBytes 8 (x.w.regs.getG d6.toNat).toNat,
          joinAll [x.w.regs.labG d6.toNat, x.w.regs.labG b6.toNat, x.w.wcl])])

/-- R179, R180, R186, R189, R198 to R200: stores with and without an ORD. -/
def Obligations.StoresWrite : Prop := Sys2Proof.Machine.Claim.StoresWritePart ∧ Sys2Proof.Machine.Claim.OrderedStore

/-- R183, R184, R201: PHREL performs the buffered bytes of the level's scope at their home banks, discards their granules from
the core's snapshot, and keeps the rest buffered, when every home label dominates the entry's; PHACQ discards the level's
scope from the core's snapshot; PHASE does both. -/
def Obligations.PhaseInstructions : Prop :=
  ∀ (z : Bool) (lv : BitVec 3) (s : State) (x : Ctx), x.lr.declared lv.toNat = true →
    let inside := fun g => lv.toNat = x.lr.top ∨ inScope x.core (x.lr.scope lv.toNat) (g * 64) = true
    let dropped := fun (u t : State) => ∀ g, kget (t.core x.core).snapshot g =
      if inside g then none else kget (u.core x.core).snapshot g
    let ready := fun i : Instr => Ready i {} 0 false s x ∧ Releases x (preIssue i s) lv.toNat
    let released := fun (i : Instr) (t : State) =>
      WritesMem (preIssue i s) t (bufferedByte (sent x lv.toNat)) (fun _ => none) ∧
      t.w.phase = kept x lv.toNat ∧ t.q = x.w.regs ∧ ∀ e ∈ sent x lv.toNat, kget (t.core x.core).snapshot e.gran = none
    (ready (.phrel z lv) → ∃ t, exec (.phrel z lv) s = .next t ∧ released (.phrel z lv) t) ∧
    (Ready (.phacq z lv) {} 0 false s x → ∃ t, exec (.phacq z lv) s = .next t ∧ dropped s t ∧ t.q = x.w.regs ∧
      BesideSnap (preIssue (.phacq z lv) s) t) ∧
    (ready (.phase z lv) → ∃ t, exec (.phase z lv) s = .next t ∧ released (.phase z lv) t ∧
      ∀ g, inside g → kget (t.core x.core).snapshot g = none)

namespace Sys2Proof.Machine.Claim

/-- The place of `n` bytes of the block's own window (R62, R172, R174). -/
abbrev inWindow (x : Ctx) (a n pa : Nat) : Prop :=
  let base := (if x.lr.clustered then x.lr.lvl x.blk.b 2 else 0) * 2 ^ 20
  base ≤ a ∧ a + n ≤ base + 4096 * x.lr.win ∧ pa = x.core * 2 ^ 20 + (a - base)

/-- The registers the stack instructions name. -/
def stackUses : Uses := { rg := [62, 63], wg := [62, 63] }

/-- Where lane l's word of a slot stands. -/
def slotWord (pa l : Nat) : Nat := pa + 8 * l

end Sys2Proof.Machine.Claim

/-- R202: ENTER makes a frame of 16 n bytes below G63, saves the old frame pointer at its top and raises the label of
the granule that holds it; LEAVE removes the frame and restores the frame pointer. -/
def Sys2Proof.Machine.Claim.FramesEnterAndLeave : Prop :=
  ∀ (z : Bool) (n : BitVec 13) (s : State) (x : Ctx) (pa : Nat),
    let q := x.w.regs
    let sp := q.getG 63
    let fp := q.getG 62
    let size := 16 * n.toNat
    (let i : Instr := .enter z n
     let u := preIssue i s
     let raised := joinAll [granLabel u.mem pa, q.labG 62, x.w.wcl]
     Ready i stackUses allLanes false s x → sp.toNat % 16 = 0 → size + x.w.slim.toNat ≤ sp.toNat → n ≠ 0 →
      inWindow x (sp.toNat - size) size (pa + 8 - size) → size ≤ pa + 8 → Unhindered x [pa] →
      BindsAll u x.asid [raised, joinL (q.labG 63) x.w.wcl] →
      ∃ t, exec i s = .next t ∧ t.q.getG 62 = sp ∧ t.q.getG 63 = sp - BitVec.ofNat 64 size ∧
        IsJoin (t.q.labG 62) [q.labG 63, x.w.wcl] ∧ IsJoin (t.q.labG 63) [q.labG 63, x.w.wcl] ∧ OnlyStack q t.q ∧
        WritesMem u t (lastStore [(pa, toBytes 8 fp.toNat)]) (fun g => if g = pa / 64 then some raised else none) ∧
        Kept i (homeTouched x.w t.w) t.w) ∧
    (let i : Instr := .leave z n
     let u := preIssue i s
     Ready i stackUses allLanes false s x → fp = sp + BitVec.ofNat 64 size → fp.toNat % 8 = 0 → 8 ≤ fp.toNat →
      galPa x u (fp.toNat - 8) 8 false = some pa → pa / 2 ^ 20 = x.core → Unhindered x [pa] →
      BindsAll u x.asid [joinL (q.labG 62) x.w.wcl, joinL (granLabel u.mem pa) x.w.wcl] →
      ∃ t, exec i s = .next t ∧ t.q.getG 63 = fp ∧ t.q.getG 62 = BitVec.ofNat 64 (readNum u.mem.gal pa 8) ∧
        IsJoin (t.q.labG 63) [q.labG 62, x.w.wcl] ∧ IsJoin (t.q.labG 62) [granLabel u.mem pa, x.w.wcl] ∧ OnlyStack q t.q ∧
        Kept i x.w t.w ∧ Beside u t)

/-- R203: SPILL raises the labels of the slot's granules and stores V[v] of the group's lanes; FILL loads them back,
each with the label of its granule. -/
def Sys2Proof.Machine.Claim.SpillAndFill : Prop :=
  ∀ (z : Bool) (v : BitVec 6) (k : BitVec 8) (s : State) (x : Ctx) (pa : Nat),
    let q := x.w.regs
    let a := (q.getG 63).toNat + 256 * k.toNat
    let fits := fun (u : State) (wr : Bool) => a + 272 ≤ (q.getG 62).toNat ∧ a % 8 = 0 ∧
      ∀ o < 256, galPa x u (a + o) 1 wr = some (pa + o) ∧ (pa + o) / 2 ^ 20 = x.core
    let grans := (List.range ((a + 255) / 64 - a / 64 + 1)).map (pa / 64 + ·)
    let free := Unhindered x ((lanesOf x.grp).map (slotWord pa))
    (let i : Instr := .spill z v k
     let u := preIssue i s
     let raised := fun g => joinAll ([granLabel u.mem (g * 64), q.labG 63, x.w.wcl] ++
       ((lanesOf x.grp).filter fun l => decide (slotWord pa l / 64 = g)).map (q.labV v.toNat))
     Ready i { rv := [v.toNat], rg := [62, 63] } x.grp false s x → fits u true → free → x.w.phase.length ≤ 256 →
      BindsAll u x.asid (grans.map raised) →
      ∃ t, exec i s = .next t ∧ t.q = q ∧
        WritesMem u t (lastStore ((lanesOf x.grp).map fun l => (slotWord pa l, toBytes 8 (q.getV v.toNat l).toNat)))
          (fun g => if g ∈ grans then some (raised g) else none) ∧
        Kept i (homeTouched x.w t.w) t.w) ∧
    (let i : Instr := .fill z v k
     let u := preIssue i s
     let ls := fun l => [granLabel u.mem (slotWord pa l), q.labG 63, x.w.wcl]
     Ready i { rg := [62, 63], wv := [v.toNat] } 0 false s x → fits u false → free →
      (∀ l < 32, x.grp.getLsbD l = true → (joinAll (ls l)).length ≤ 8) →
      BindsAll u x.asid ((lanesOf x.grp).map fun l => joinAll (ls l)) →
        WritesV i s x v.toNat x.grp (fun l r => r = BitVec.ofNat 64 (readNum u.mem.gal (slotWord pa l) 8)) ls)

/-- R202, R203: frames of the warp stack, and spills to and fills from it. -/
def Obligations.StackInstructions : Prop :=
  Sys2Proof.Machine.Claim.FramesEnterAndLeave ∧ Sys2Proof.Machine.Claim.SpillAndFill

namespace Sys2Proof.Machine.Claim

/-! ## Synchronisation (R231 to R250) -/

/-- An instruction completes and issues one long-latency or queued operation whose label check may have fetched
granules into the core's snapshot (R198, R213). -/
def OpStarts (i : Instr) (s : State) (x : Ctx) (flag : Option Nat) (ok : Pend → Prop) : Prop :=
  ∃ t p, exec i s = .next t ∧ t.w.pend = x.w.pend ++ [p] ∧ p.flag = flag ∧ p.id = x.w.issued ∧ p.pc = x.pc ∧ ok p ∧
    t.w.issued = x.w.issued + 1 ∧ t.q = x.w.regs ∧
    Kept i { x.w with pend := t.w.pend, issued := t.w.issued } t.w ∧ BesideSnap (preIssue i s) t

/-- Operand `k` of an atomic in a lane (R234): the low bits of its register; zero where the atomic has none. -/
def opnd (x : Ctx) (rs : List Nat) (bytes k l : Nat) : Nat :=
  match rs[k]? with
  | some r => (x.w.regs.getV r l).toNat % 2 ^ (8 * bytes)
  | none => 0

/-- The join that an atomic's granule must dominate (R213). -/
def atomJoin (x : Ctx) (g : BitVec 3) (b i : BitVec 4) (rs : List Nat) (l : Nat) : List Label :=
  addrLabels x g b i l ++ rs.map (x.w.regs.labV · l)

/-- The lanes' operations of an atomic (R17, R213, R234): addresses, operands and joins, in lane order. -/
def AtomicLanes (x : Ctx) (g : BitVec 3) (b i : BitVec 4) (rs : List Nat) (bytes size : Nat) (pa : Nat → Nat)
    (ls : List LaneOp) : Prop :=
  ls.map (·.lane) = lanesOf (activeLanes x g) ∧ ∀ o ∈ ls, o.ga = laneAddr x b i 0 size o.lane ∧ o.pa = pa o.lane ∧
    o.v.toNat = opnd x rs bytes 0 o.lane ∧ o.n.toNat = opnd x rs bytes 1 o.lane ∧ IsJoin o.lab (atomJoin x g b i rs o.lane)

/-- The atomics: the instruction, its operand registers, their bytes, the location's bytes, and what the operation
that waits for its home banks is. -/
def atomics (z : Bool) (g : BitVec 3) (t : BitVec 6) (b i o : BitVec 4) (sz f : BitVec 1) :
    List (Instr × List Nat × Nat × Nat × Option Nat × Nat × Bool) :=
  let n := if sz = 1 then 8 else 4
  let rs := if o = 9 then [t.toNat, t.toNat + 1] else [t.toNat]
  [(.atom z g t b i o sz, rs, n, n, none, o.toNat, false),
   (.atomr z g t b i o sz f, rs, n, n, some t.toNat, o.toNat, true),
   (.atomXadd z g t b i, [t.toNat], 4, 64, none, 11, false),
   (.xclr z g b i, [], 4, 64, none, 12, false)]

/-- XRND's value (R118, R246): the cell's number, rounded once to FP32, or the special value that its flags give. -/
def cellValue (cell : Nat) : Exact :=
  let f := cell / 2 ^ 384 % 16
  let v : ℚ := (sval 320 (cell % 2 ^ 320) : ℚ) / 2 ^ 160
  if f.testBit 0 ∨ f.testBit 3 ∨ f.testBit 1 ∧ f.testBit 2 then .nan
  else if f.testBit 1 then .inf false
  else if f.testBit 2 then .inf true
  else .fin (decide (v < 0)) |v|

/-- Level `n` may carry a barrier (R51). -/
abbrev barrierLevel (x : Ctx) (n : Nat) : Prop :=
  x.lr.declared n = true ∧ lvlDomain (x.lr.level n) ≠ 4 ∧
    (lvlDomain (x.lr.level n) = 2 ∨ lvlDomain (x.lr.level n) = 3 → x.lr.coside = true)

/-- A release of the warp would publish nothing and wait for nothing. -/
abbrev Quiet (x : Ctx) (s : State) : Prop :=
  x.w.phase = [] ∧ unfinished s x x.w = false ∧ x.w.echo = none ∧ x.replicated = false ∧ x.w.passed = []

/-- The key of the barrier of the warp's level-`n` unit. -/
def unitKey (x : Ctx) (n : Nat) : Nat := barKey (x.lr.unitOf x.blk.b n) n x.blk.rep

end Sys2Proof.Machine.Claim

/-- R176, R213, R231, R232, R244 to R246: ATOM, ATOMR, ATOM.XADD and XCLR, their checks passed, leave one operation
for their home banks with each active lane's address, operands and join; XRND reads its cells, each rounded once, and gives
the join of the granule's label and WCL.  Nothing else of the warp or the memories changes. -/
def Sys2Proof.Machine.Claim.AtomicsIssue : Prop :=
  ∀ (z : Bool) (g : BitVec 3) (t : BitVec 6) (b i o : BitVec 4) (sz f : BitVec 1) (s : State) (x : Ctx) (pa : Nat → Nat),
    o.toNat ≤ 10 → x.w.ord = none → x.w.items = [] → x.replicated = false →
    let lanes := activeLanes x g
    let none_buffered := ∀ l < 32, lanes.getLsbD l = true → ∀ e ∈ x.w.phase, e.gran ≠ pa l / 64
    none_buffered →
    (∀ p ∈ atomics z g t b i o sz f,
      let u := preIssue p.1 s
      let rs := p.2.1
      let bytes := p.2.2.1
      let size := p.2.2.2.1
      let ret := p.2.2.2.2.1
      Ready p.1 { rv := rs ++ indexRegs i, rg := [b.toNat], rp := [g.toNat], wv := if p.2.2.2.2.2.2 then [t.toNat] else [] }
        lanes false s x →
      Reaches x u lanes size true (laneAddr x b i 0 size) pa →
      (∀ l < 32, lanes.getLsbD l = true → dominates (storeMust x u (pa l)) (joinAll (atomJoin x g b i rs l)) = true) →
        OpStarts p.1 s x (if p.2.2.2.2.2.2 then x.flag f else none) fun q => q.stage = 0 ∧ q.res = [] ∧
          ∃ ls, q.work = .atomic ret p.2.2.2.2.2.1 size ls ∧ AtomicLanes x g b i rs bytes size pa ls) ∧
    (let j : Instr := .xrnd z g t b i f
      let u := preIssue j s
      Ready j { rv := indexRegs i, rg := [b.toNat], rp := [g.toNat], wv := [t.toNat] } lanes false s x →
      Reaches x u lanes 64 false (laneAddr x b i 0 64) pa → atomicOn x.w x.core ((lanesOf lanes).map pa) = false →
      (∀ l < 32, lanes.getLsbD l = true → dominates (storeMust x u (pa l)) (joinAll (atomJoin x g b i [] l)) = true) →
        OpStarts j s x (x.flag f) fun q => q.stage = 1 ∧ workDest q.work = [t.toNat] ∧
          q.res.map (·.lane) = lanesOf lanes ∧ ∀ r ∈ q.res, r.lab = joinL (granLabel u.mem (pa r.lane)) x.w.wcl ∧
            (granDamaged u (pa r.lane) = true → r.dmg = true ∧ r.val = 0) ∧
            (granDamaged u (pa r.lane) = false → r.dmg = false ∧ r.val.toNat < 2 ^ 32 ∧
              RoundedTo fp32 .rn r.val.toNat (cellValue (readNum u.mem.gal (pa r.lane) 64))))

/-- R242, R243, R247, in a launch without replicas: BARA arrives in the open phase of its unit's barrier, BAR arrives and waits, BARW waits for the
phase the warp arrived in; the phase completes when every warp of the unit has arrived or exited, and a new one opens.
-/
def Sys2Proof.Machine.Claim.BarrierInstructions : Prop :=
  ∀ (z : Bool) (l : BitVec 3) (s : State) (x : Ctx),
    let n := l.toNat
    let phase := barPhase x.la (x.lr.unitOf x.blk.b n) n x.blk.rep
    barrierLevel x n →
    (∀ p ∈ [(Instr.bara z l, false), (.bar l, true)],
      let u := preIssue p.1 s
      Ready p.1 {} 0 false s x → kget x.w.arrived n = none → aget 0 x.w.arrivals n = phase → x.blk.rep = 0 → Quiet x u →
      ∃ t la, exec p.1 s = .next t ∧ kget t.w.arrived n = some (phase + 1) ∧
        (∀ m, aget 0 t.w.arrivals m = if m = n then phase + 1 else aget 0 x.w.arrivals m) ∧
        t.w.wait = (if p.2 then .bar n phase else x.w.wait) ∧ t.q = x.w.regs ∧ t.mem = s.mem ∧
        (∀ m, m ≠ n → kget t.w.arrived m = kget x.w.arrived m) ∧
        (∀ k, k ≠ s.cur → t.warp k = s.warp k) ∧
        t.launchOf x.blk.launch = some la ∧
        (let all := unitArrived { s with warps := t.warps } x.blk.launch x.la (x.lr.unitOf x.blk.b n) n x.blk.rep =
            unitWarps x.lr n
         (all → aget 0 la.bars (unitKey x n) = phase + 1) ∧ (¬ all → la = x.la))) ∧
    (∀ ph, Ready (.barw l) {} 0 false s x → kget x.w.arrived n = some (ph + 1) →
      Changes (.barw l) s x { x.w with wait := .bar n ph })

namespace Sys2Proof.Machine.Claim

/-- The fields of a descriptor that R235 allows: base, size's logarithm, kind, count, handle, allowance, in memory
`m`. -/
abbrev RingFields (m : List Host.Cell) (pa base lsize kind count handle allow : Nat) : Prop :=
  (readNum m pa 4 = base ∧ readNum m (pa + 4) 1 = lsize ∧ readNum m (pa + 5) 1 = kind ∧
    readNum m (pa + 6) 2 = count ∧ readNum m (pa + 8) 2 = handle ∧ readNum m (pa + 10) 2 = allow ∧
    readNum m (pa + 12) 52 = 0) ∧ (1 ≤ count ∧ count ≤ 4096) ∧ handle < 4096 ∧ allow ≤ count ∧
    (kind = 0 ∧ lsize = 3 ∨ kind = 1 ∧ 6 ≤ lsize ∧ lsize ≤ 16) ∧ base % 2 ^ lsize = 0

/-- The slots of a ring, `len` bytes from `base`: writable, in the descriptor's slice, apart from its granule (R236).
-/
abbrev SlotsOk (x : Ctx) (u : State) (pa base basePa len : Nat) : Prop :=
  base + len ≤ 2 ^ 32 ∧
    (∀ i, i < (base + len + 63) / 64 - base / 64 → (galPa x u ((base / 64 + i) * 64) 64 true).isSome = true) ∧
    galPa x u base 1 true = some basePa ∧ (basePa / 2 ^ 20 = pa / 2 ^ 20 ∧ basePa % 2 ^ 20 + len ≤ 2 ^ 20) ∧
    (basePa + len ≤ pa ∨ pa + 64 ≤ basePa)

/-- Nothing but one ring of the rings. -/
def OnlyRing (s t : State) (pa : Nat) : Prop := ∀ q, q ≠ pa → kget t.rings q = kget s.rings q

/-- A ring instruction leaves an operation pending, the ring at `pa` as given, and everything else as it was. -/
def RingStarts (i : Instr) (s : State) (x : Ctx) (f : BitVec 1) (pa : Nat) (ring : Ring → Prop) (ok : Work → Prop) : Prop :=
  ∃ t p r, exec i s = .next t ∧ t.w.pend = x.w.pend ++ [p] ∧ p.flag = x.flag f ∧ p.stage = 0 ∧ ok p.work ∧
    kget t.rings pa = some r ∧ ring r ∧ OnlyRing s t pa ∧ t.q = x.w.regs ∧ t.mem = s.mem ∧
    (∀ k, k ≠ s.cur → t.warp k = s.warp k) ∧ Kept i { x.w with pend := t.w.pend, issued := x.w.issued + 1 } t.w

end Sys2Proof.Machine.Claim

/-- R235 to R240, R248 to R250: RINIT arms a ring whose descriptor and labels R236 allows; RPUSH joins the pushes that
wait, with its word, once its label is dominated; RPOP binds the consumer, frees the held slot and waits; RSTAT reads
the state. -/
def Sys2Proof.Machine.Claim.RingInstructions : Prop :=
  ∀ (z : Bool) (d a b : BitVec 6) (d5 : BitVec 5) (f : BitVec 1) (s : State) (x : Ctx) (pa : Nat),
    let q := x.w.regs
    let ga := (q.getG a.toNat).toNat
    let la := q.labG a.toNat
    x.replicated = false → ga % 64 = 0 →
    (∀ base lsize kind count handle allow basePa L, let i : Instr := .rinit z a
      let u := preIssue i s
      let len := count * 2 ^ lsize
      Ready i { rg := [a.toNat] } 0 false s x → galPa x u ga 64 true = some pa → Unhindered x [pa] →
      (∀ e ∈ x.w.phase, e.gran ≠ pa / 64) → RingFields u.mem.gal pa base lsize kind count handle allow →
      SlotsOk x u pa base basePa len → setOf (x.labels u) handle = some L →
      dominates L (joinAll [granLabel u.mem pa, la, x.w.wcl]) = true →
      (∀ g, basePa / 64 ≤ g → g < (basePa + len + 63) / 64 → dominates (granLabel u.mem (g * 64)) L = true) →
      ∃ t, exec i s = .next t ∧ kget t.rings pa = some ⟨base, basePa, kind, lsize, count, if allow = 0 then count else allow,
          L, x.asid, 0, 0, 0, [], [], none, [], []⟩ ∧ OnlyRing s t pa ∧ t.mem = s.mem ∧ t.q = q ∧
        Kept i (homeTouched x.w t.w) t.w) ∧
    (∀ r, kget s.rings pa = some r →
      (∀ p ∈ [(Instr.rpush z a b f, none), (.rpushT z d a b f, some d.toNat)],
        let u := preIssue p.1 s
        Ready p.1 { rg := [a.toNat, b.toNat], wg := p.2.toList } 0 false s x → galPa x u ga 64 true = some pa →
        Unhindered x [pa] → r.kind = 0 →
        dominates r.lab (joinL (q.labG b.toNat) (joinAll [la, x.w.wcl])) = true → Quiet x u →
        (p.2 ≠ none → BindsAll u x.asid [joinL r.lab (joinAll [la, x.w.wcl])]) →
          RingStarts p.1 s x f pa (· = { r with waiting := r.waiting ++ [(s.cur, x.w.issued)] })
            (fun w => ∃ l, w = .push p.2 l ∧ l.ga = ga ∧ l.pa = pa ∧ l.v = q.getG b.toNat ∧
              IsJoin l.lab [la, x.w.wcl])) ∧
      (∀ p ∈ [(Instr.rpop z d a f, d.toNat, false), (.rpopT z d5 a f, 2 * d5.toNat, true)],
        let u := preIssue p.1 s
        Ready p.1 { rg := [a.toNat], wg := if p.2.2 then [p.2.1, p.2.1 + 1] else [p.2.1] } 0 false s x →
        galPa x u ga 64 true = some pa → Unhindered x [pa] → (r.consumer = none ∨ r.consumer = some x.producer) →
        BindsAll u x.asid [joinL r.lab (joinAll [la, x.w.wcl])] →
          RingStarts p.1 s x f pa
            (fun t => t.consumer = some x.producer ∧ t.slots = r.slots.filter (fun e => decide (e.2 ≠ 3)) ∧
              { t with slots := r.slots, owner := r.owner, consumer := r.consumer } = r)
            (fun w => ∃ l, w = .pop p.2.1 p.2.2 l ∧ l.ga = ga ∧ l.pa = pa ∧ IsJoin l.lab [la, x.w.wcl]))) ∧
    (let i : Instr := .rstat z d a
     let u := preIssue i s
     Ready i { rg := [a.toNat], wg := [d.toNat] } 0 false s x → galPa x u ga 64 false = some pa → Unhindered x [pa] →
     (kget s.rings pa = none → Binds u x.asid (joinL (granLabel u.mem pa) (joinAll [la, x.w.wcl])) →
       WritesG i s x d.toNat 0 [granLabel u.mem pa, la, x.w.wcl]) ∧
     (∀ r, kget s.rings pa = some r →
       Binds u x.asid (joinL (joinL r.lab (granLabel u.mem pa)) (joinAll [la, x.w.wcl])) →
       WritesG i s x d.toNat (BitVec.ofNat 64 (2 ^ 63 + (if r.consumer = none then 0 else 2 ^ 62) +
           (r.owner.map (·.2)).dedup.length % 16 * 2 ^ 58 + r.taken % 2 ^ 32 * 2 ^ 26 +
           (r.count - r.slots.length) % 2 ^ 13 * 2 ^ 13 + (r.slots.filter (·.2 == 2)).length % 2 ^ 13))
         [r.lab, granLabel u.mem pa, la, x.w.wcl]))

namespace Sys2Proof.Machine.Claim

/-! ## Labels (R216, R217, R225 to R230) -/

/-- A dword is a handle bound to a set (R225 to R230). -/
abbrev Names (x : Ctx) (u : State) (v : Word) (L : Label) : Prop := v.toNat < 4096 ∧ setOf (x.labels u) v.toNat = some L

/-- Some labels of the lanes of a group can be written. -/
abbrev GroupFits (x : Ctx) (u : State) (f : Nat → Label) : Prop :=
  (∀ l < 32, x.grp.getLsbD l = true → (f l).length ≤ 8) ∧ BindsAll u x.asid ((lanesOf x.grp).map f)

/-- Owner `o` may be removed when a label becomes `X` (R217). -/
def Endorsed (x : Ctx) (u : State) (X : Label) (o : Nat) : Prop :=
  ∃ e, kget (u.asidOf x.asid).endorse o = some e ∧ 1 ≤ e.1 ∧ e.2.length ≤ 8 ∧ ∀ p ∈ e.2, p ∈ X

/-- Every owner that a lane's label would lose is endorsed (R229). -/
def Covered (x : Ctx) (u : State) (X : Label) (a l : Nat) : Prop :=
  ∀ o ∈ x.w.regs.labV a l, o ∉ X → Endorsed x u X o

/-- One use of every owner that some covered lane loses is consumed, an entry at its last use freed (R216, R229). -/
def UsesConsumed (x : Ctx) (u t : State) (X : Label) (a : Nat) : Prop :=
  ∀ o, let old := kget (u.asidOf x.asid).endorse o
    let lost := ∃ l, x.grp.getLsbD l = true ∧ Covered x u X a l ∧ o ∈ x.w.regs.labV a l ∧ o ∉ X
    (¬ lost → kget (t.asidOf x.asid).endorse o = old) ∧
    (lost → kget (t.asidOf x.asid).endorse o = old.bind fun e => if e.1 ≤ 1 then none else some (e.1 - 1, e.2))

/-- The memories and the other warps are as before. -/
def OthersSame (s t : State) : Prop := t.mem = s.mem ∧ (∀ k, k ≠ s.cur → t.warp k = s.warp k) ∧ t.rings = s.rings ∧
  t.chains = s.chains ∧ t.cores = s.cores

/-- An instruction of the acting owner passes R230's checks: it has one, the target is a handle, and no other owner is
in its operands' labels. -/
abbrev Acts (x : Ctx) (u : State) (target : Word) (e : Label) (ls : List Label) : Prop :=
  x.lr.ownact ≠ 0 ∧ Names x u target e ∧ ∀ l ∈ x.w.wcl :: ls, ∀ o ∈ l, o = x.lr.ownact

end Sys2Proof.Machine.Claim

/-- R225, R226, R228, R230: LGET gives the handle of a register's or granule's label, LJOIN that of a union, LDOM
whether one set contains another, LOWN its owners in order, ENDQ an endorsement; LSETV raises labels and keeps values.
-/
def Sys2Proof.Machine.Claim.LabelReads : Prop :=
  ∀ (z : Bool) (d a b : BitVec 6) (p : BitVec 3) (k : BitVec 3) (s : State) (x : Ctx) (pa h : Nat) (L M : Label),
    let q := x.w.regs
    let va := q.getG a.toNat
    let vb := q.getG b.toNat
    let la := q.labG a.toNat
    let lb := q.labG b.toNat
    (let i : Instr := .lgetV z d a
     let u := preIssue i s
     Ready i { rv := [a.toNat], wv := [d.toNat] } x.grp false s x → GroupFits x u (fun l => joinL (q.labV a.toNat l) x.w.wcl) →
      WritesV i s x d.toNat x.grp
        (fun l r => ∀ n, handleIn (x.labels u) (q.labV a.toNat l) = some n → r = BitVec.ofNat 64 n)
        (fun l => [q.labV a.toNat l, x.w.wcl])) ∧
    (let i : Instr := .lgetP z d p
     let u := preIssue i s
     Ready i { rp := [p.toNat], wv := [d.toNat] } 0 false s x → GroupFits x u (fun l => joinL (q.labP p.toNat l) x.w.wcl) →
      WritesV i s x d.toNat x.grp
        (fun l r => ∀ n, handleIn (x.labels u) (q.labP p.toNat l) = some n → r = BitVec.ofNat 64 n)
        (fun l => [q.labP p.toNat l, x.w.wcl])) ∧
    (let i : Instr := .lgetG z d a
     let u := preIssue i s
     Ready i { rg := [a.toNat], wg := [d.toNat] } 0 false s x → handleIn (x.labels u) la = some h →
      Binds u x.asid (joinAll [la, x.w.wcl]) → WritesG i s x d.toNat (BitVec.ofNat 64 h) [la, x.w.wcl]) ∧
    (let i : Instr := .lgetGranule z d a
     let u := preIssue i s
     let g := granLabel u.mem pa
     Ready i { rg := [a.toNat], wg := [d.toNat] } 0 false s x → galPa x u va.toNat 1 false = some pa → Unhindered x [pa] →
     (pa / 2 ^ 20 = x.core ∨ coreEntries u x.core (pa / 64) = [] ∧ kget (u.core x.core).snapshot (pa / 64) = none) →
     (joinAll [g] = g) → BindsAll u x.asid [g, joinL g (joinAll [la, x.w.wcl])] →
      ∃ t n, exec i s = .next t ∧ handleIn (x.labels t) g = some n ∧ t.q.getG d.toNat = BitVec.ofNat 64 n ∧
        IsJoin (t.q.labG d.toNat) [g, la, x.w.wcl] ∧ OnlyG q t.q d.toNat ∧ Kept i x.w t.w ∧ BesideSnap u t) ∧
    (let i : Instr := .lsetv z d a
     let u := preIssue i s
     Ready i { rv := [d.toNat], rg := [a.toNat], wv := [d.toNat] } x.grp false s x → Names x u va L →
      GroupFits x u (fun l => joinAll [q.labV d.toNat l, L, la, x.w.wcl]) →
      WritesV i s x d.toNat x.grp (fun l r => r = q.getV d.toNat l) (fun l => [q.labV d.toNat l, L, la, x.w.wcl])) ∧
    (let i : Instr := .ljoin z d a b
     let u := preIssue i s
     Ready i { rg := [a.toNat, b.toNat], wg := [d.toNat] } 0 false s x → Names x u va L → Names x u vb M →
      BindsAll u x.asid [joinAll [la, lb, x.w.wcl], joinL L M] →
      ∃ t n J, exec i s = .next t ∧ IsJoin J [L, M] ∧ handleIn (x.labels t) J = some n ∧
        t.q.getG d.toNat = BitVec.ofNat 64 n ∧ IsJoin (t.q.labG d.toNat) [la, lb, x.w.wcl] ∧ OnlyG q t.q d.toNat ∧
        Kept i x.w t.w ∧ Beside u t) ∧
    (let i : Instr := .ldom z d a b
     let u := preIssue i s
     Ready i { rg := [a.toNat, b.toNat], wg := [d.toNat] } 0 false s x → Names x u va L → Names x u vb M → M.length ≤ 8 →
      Binds u x.asid (joinAll [la, lb, x.w.wcl]) →
      WritesG i s x d.toNat (if ∀ o ∈ M, o ∈ L then 1 else 0) [la, lb, x.w.wcl]) ∧
    (let i : Instr := .lown z d a k
     let u := preIssue i s
     Ready i { rg := [a.toNat], wg := [d.toNat] } 0 false s x → Names x u va L → L.Pairwise (· < ·) →
      Binds u x.asid (joinAll [la, x.w.wcl]) →
      ∀ o, L.length ≤ k.toNat ∧ o = 0 ∨ o ∈ L ∧ (L.filter fun m => decide (m < o)).length = k.toNat →
        WritesG i s x d.toNat (BitVec.ofNat 64 o) [la, x.w.wcl]) ∧
    (let i : Instr := .endq z d a
     let u := preIssue i s
     let entry := kget (u.asidOf x.asid).endorse va.toNat
     Ready i { rg := [a.toNat], wg := [d.toNat] } 0 false s x → x.replicated = false → va.toNat < 2 ^ 20 →
      Binds u x.asid (joinAll [la, x.w.wcl]) →
      (entry = none → WritesG i s x d.toNat 0 [la, x.w.wcl]) ∧
      (∀ n E, entry = some (n, E) → handleIn (x.labels u) E = some h →
        WritesG i s x d.toNat (BitVec.ofNat 64 (n * 2 ^ 32 + 2 ^ 12 + h)) [la, x.w.wcl]))

/-- R183, R216, R227, R229, R230: LRAISE joins a granule's label and LCLEAR replaces it and zeroes the granule, which leaves the
core's snapshot; DCLS
releases lanes whose lost owners are all endorsed and consumes the uses, DCLS.T the covered lanes only, with a
predicate for each; ENDORSE and ENDREV change the acting owner's entry. -/
def Sys2Proof.Machine.Claim.LabelChanges : Prop :=
  ∀ (z : Bool) (d a b : BitVec 6) (p : BitVec 3) (s : State) (x : Ctx) (pa : Nat) (L : Label), x.replicated = false →
    let q := x.w.regs
    let va := q.getG a.toNat
    let vb := q.getG b.toNat
    let la := q.labG a.toNat
    let lb := q.labG b.toNat
    (∀ c ∈ [(Instr.lraise z a b, false), (.lclear z a b, true)],
      let u := preIssue c.1 s
      let n := joinL L (joinAll [la, lb, x.w.wcl])
      let new := if c.2 then n else joinL (granLabel u.mem pa) n
      Ready c.1 { rg := [a.toNat, b.toNat] } 0 false s x → va.toNat % 64 = 0 → galPa x u va.toNat 64 true = some pa →
      Names x u vb L → Unhindered x [pa] → (∀ e ∈ x.w.phase, e.gran ≠ pa / 64) → Binds u x.asid new →
      ∃ t, exec c.1 s = .next t ∧
        WritesMem u t (fun i => if c.2 ∧ pa ≤ i ∧ i < pa + 64 then some 0 else none)
          (fun g => if g = pa / 64 then some new else none) ∧ kget (t.core x.core).snapshot (pa / 64) = none ∧ t.q = q ∧
        Kept c.1 (homeTouched x.w t.w) t.w) ∧
    (let X := joinL L (joinAll [lb, x.w.wcl])
     let released := fun (i : Instr) (t : State) (P : Nat → Prop) =>
       (∀ l < 32, x.grp.getLsbD l = true → P l → t.q.getV d.toNat l = q.getV a.toNat l ∧ t.q.labV d.toNat l = X) ∧
       (∀ r l, l < 32 → ¬ (r = d.toNat ∧ x.grp.getLsbD l = true ∧ P l) →
         t.q.getV r l = q.getV r l ∧ t.q.labV r l = q.labV r l) ∧
       t.q.g = q.g ∧ t.q.gl = q.gl ∧ t.q.m = q.m ∧ t.q.ml = q.ml ∧ UsesConsumed x (preIssue i s) t X a.toNat ∧
       Kept i x.w t.w ∧ OthersSame (preIssue i s) t
     (let i : Instr := .dcls z d a b
      let u := preIssue i s
      Ready i { rv := [a.toNat], rg := [b.toNat], wv := [d.toNat] } x.grp false s x → Names x u vb L →
      Binds u x.asid X → (∀ l < 32, x.grp.getLsbD l = true → Covered x u X a.toNat l) →
      ∃ t, exec i s = .next t ∧ released i t (fun _ => True) ∧ t.q.p = q.p ∧ t.q.pl = q.pl) ∧
     (let i : Instr := .dclsT z d a b p
      let u := preIssue i s
      Ready i { rv := [a.toNat], rg := [b.toNat], wv := [d.toNat], wp := [p.toNat] } x.grp false s x → Names x u vb L →
      BindsAll u x.asid [X, joinAll [lb, x.w.wcl]] → (joinAll [lb, x.w.wcl]).length ≤ 8 →
      ∃ t, exec i s = .next t ∧ released i t (Covered x u X a.toNat) ∧
        (p ≠ 7 → ∀ l < 32, x.grp.getLsbD l = true → ((t.q.getP p.toNat).getLsbD l = true ↔ Covered x u X a.toNat l) ∧
          IsJoin (t.q.labP p.toNat l) [lb, x.w.wcl]) ∧
        ∀ r l, l < 32 → ¬ (r = p.toNat ∧ x.grp.getLsbD l = true) →
          (t.q.getP r).getLsbD l = (q.getP r).getLsbD l ∧ t.q.labP r l = q.labP r l)) ∧
    (let i : Instr := .endorse z a b
     let u := preIssue i s
     let own := x.lr.ownact
     Ready i { rg := [a.toNat, b.toNat] } 0 false s x → Acts x u va L [la, lb] → own ∉ L → 1 ≤ vb.toNat → vb.toNat < 2 ^ 32 →
      ((kget (u.asidOf x.asid).endorse own).isSome = true ∨ (u.asidOf x.asid).endorse.length < 64) →
      ∃ t, exec i s = .next t ∧ kget (t.asidOf x.asid).endorse own = some (vb.toNat, L) ∧
        (∀ o, o ≠ own → kget (t.asidOf x.asid).endorse o = kget (u.asidOf x.asid).endorse o) ∧ t.q = q ∧ Kept i x.w t.w ∧
        OthersSame u t) ∧
    (let i : Instr := .endrev z a
     let u := preIssue i s
     let own := x.lr.ownact
     let old := kget (u.asidOf x.asid).endorse own
     Ready i { rg := [a.toNat] } 0 false s x → Acts x u va L [la] →
      ∃ t, exec i s = .next t ∧
        kget (t.asidOf x.asid).endorse own = (if old.map (·.2) = some L then none else old) ∧
        (∀ o, o ≠ own → kget (t.asidOf x.asid).endorse o = kget (u.asidOf x.asid).endorse o) ∧ t.q = q ∧ Kept i x.w t.w ∧
        OthersSame u t)

/-- R206 to R218: reading, joining and comparing labels, raising and clearing them, releases and endorsements. -/
def Obligations.Labels : Prop := Sys2Proof.Machine.Claim.LabelReads ∧ Sys2Proof.Machine.Claim.LabelChanges

namespace Sys2Proof.Machine.Claim

/-! ## Tiles and Flowstone (R254 to R276, R291 to R295) -/

/-- A tile instruction completes its issue (R275, R276, R291): one operation enters the window, the eighth flushes it;
SLAB joins its labels, WINDOWED counts it, and an accumulator name's state becomes the one given; no register and no
byte changes, and of a core nothing but what it holds in its snapshot. -/
def WindowGets (i : Instr) (s : State) (x : Ctx) (f : BitVec 1) (ok : TileOp → Prop) (labs : List Label)
    (name : Option (Nat × NameSt)) : Prop :=
  ∃ t p o, exec i s = .next t ∧ p.work = .tile o ∧ ok o ∧ p.flag = x.flag f ∧ p.id = x.w.issued ∧ p.pc = x.pc ∧
    (x.w.window.length ≠ 7 → t.w.window = x.w.window ++ [p] ∧ t.w.pend = x.w.pend ∧
      (∀ c, { t.core c with snapshot := ((preIssue i s).core c).snapshot } = (preIssue i s).core c) ∧
      t.w.counters = addCounter x.w.counters 0x100 1) ∧
    (x.w.window.length = 7 → t.w.window = [] ∧ t.w.pend = x.w.pend ++ (x.w.window ++ [p])) ∧
    IsJoin t.w.slab (x.w.slab :: labs) ∧
    (∀ n, t.w.nameOf n = match name with
      | some (m, st) => if n = m then st else x.w.nameOf n
      | none => x.w.nameOf n) ∧
    t.q = x.w.regs ∧ t.mem = s.mem ∧ (∀ k, k ≠ s.cur → t.warp k = s.warp k)

/-- The labels of an accumulator's rows and of SLAB can be written. -/
abbrev TileFits (x : Ctx) (u : State) (rows : Tab Label) (slab : Label) : Prop :=
  (∀ p ∈ rows, p.2.length ≤ 8) ∧ BindsAll u x.asid (rows.map (·.2) ++ [slab])

/-- Every byte of an operand may be accessed, and its addresses are aligned (R260 to R263). -/
abbrev OperandOk (x : Ctx) (u : State) (d : Desc) (nb : Nat) (wr : Bool) : Prop :=
  d.base % 64 = 0 ∧ ∀ t < d.ks, ∀ r < 128, ∀ p ∈ pieces d nb t r, (galPa x u p.1 p.2 wr).isSome = true

/-- An operand's band scales may be read (R261). -/
abbrev BandsOk (x : Ctx) (u : State) (d : Desc) : Prop :=
  d.banden = true → d.sbase % 64 = 0 ∧ (galPa x u d.sbase 4 false).isSome = true

/-- The registers of two descriptor pairs. -/
def pairUses (a b : Nat) : Uses := { rg := [a, a + 1, b, b + 1] }

end Sys2Proof.Machine.Claim

/-- R255, R260, R266 to R271, R273 to R276: each tile instruction whose checks pass enters Flowstone's window with its
operands as captured at issue, and gives its accumulator name the state and row labels of R256 and R260; TSTAT reads a
tile's state. -/
def Obligations.TileIssue : Prop :=
  ∀ (z : Bool) (d : BitVec 3) (a5 b5 : BitVec 5) (a d6 : BitVec 6) (m : BitVec 4) (imm : BitVec 16) (f : BitVec 1) (s : State)
    (x : Ctx), x.w.window.length < 8 →
    let q := x.w.regs
    let n := x.w.nameOf d.toNat
    let ra := 2 * a5.toNat
    let rb := 2 * b5.toNat
    let qa := (q.getG ra, q.getG (ra + 1))
    let qb := (q.getG rb, q.getG (rb + 1))
    let pairLabs := [ra, ra + 1, rb, rb + 1].map q.labG
    let isInt := m.toNat == 5
    (let i : Instr := .tmma z d a5 b5 m f
     let u := preIssue i s
     let da := descOf qa
     let db := descOf qb
     let nb := chunkBytes m.toNat
     let bands := (bandsOf x u da).1 ++ (bandsOf x u db).1
     let row := fun r => joinAll [n.row r, nth [] (rowLabels x u da nb) r,
       joinAll ([piecesLabel x u false (allPieces db nb), bandLabel x u da, bandLabel x u db] ++ pairLabs ++ [x.w.wcl])]
     let rows := rowTable ((List.range 128).map row)
     Ready i (pairUses ra rb) 0 false s x → n.held = true → da.ks = db.ks → (n.tset = true → n.int = isInt) →
      pairOk qa m.toNat true = true → pairOk qb m.toNat true = true → OperandOk x u da nb false → OperandOk x u db nb false →
      BandsOk x u da → BandsOk x u db → (n.bset = true → n.bands = bands) →
      Unhindered x (operandPas x u da nb false ++ operandPas x u db nb false ++ bandPas x u da ++ bandPas x u db) →
      TileFits x u rows (joinAll (x.w.slab :: [] :: pairLabs)) →
      WindowGets i s x f (fun o => o.op = 0 ∧ o.fmt = m.toNat ∧ o.acc = d.toNat ∧ o.a = qa ∧ o.b = qb ∧ o.bands = bands)
        pairLabs (some (d.toNat, ⟨true, true, isInt, true, bands, rows⟩))) ∧
    (let i : Instr := .tzero z d f
     let rows := rowTable (List.replicate 128 x.w.wcl)
     Ready i {} 0 false s x → TileFits x (preIssue i s) rows (joinAll [x.w.slab, []]) →
      WindowGets i s x f (fun o => o.op = 1 ∧ o.acc = d.toNat) [] (some (d.toNat, ⟨true, false, false, false, [], rows⟩))) ∧
    (let i : Instr := .ttrn z a5 b5 m f
     let u := preIssue i s
     let dd := descOf qa
     let ds := descOf qb
     let nb := chunkBytes m.toNat
     let lab := joinAll (piecesLabel x u false (allPieces ds nb) :: [rb, rb + 1, ra, ra + 1].map q.labG ++ [x.w.wcl])
     Ready i (pairUses ra rb) 0 false s x → dd.ks = 2 → ds.ks = 2 → pairOk qb m.toNat false = true →
      pairOk qa m.toNat false = true → (m.toNat ≤ 1 → dd.blk ≠ ds.blk) → disjointAll (allPieces dd nb) = true →
      (∀ p ∈ allPieces dd nb, ∀ o ∈ allPieces ds nb, overlaps p o = false) → OperandOk x u ds nb false →
      OperandOk x u dd nb true → Unhindered x (operandPas x u dd nb true ++ operandPas x u ds nb false) →
      (∀ p ∈ allPieces dd nb, dominates (granLabel u.mem (piecePa x u true p)) lab = true) →
      BindsAll u x.asid [joinAll (x.w.slab :: [] :: pairLabs)] →
      WindowGets i s x f (fun o => o.op = 2 ∧ o.fmt = m.toNat ∧ o.a = qa ∧ o.b = qb) pairLabs none) ∧
    (let i : Instr := .tscl z d imm f
     let rows := rowTable ((List.range 128).map fun r => joinL (n.row r) x.w.wcl)
     Ready i {} 0 false s x → n.held = true → ¬ (n.tset = true ∧ n.int = true) →
      TileFits x (preIssue i s) rows (joinAll [x.w.slab, []]) →
      WindowGets i s x f (fun o => o.op = 3 ∧ o.acc = d.toNat ∧ o.imm = imm) [] (some (d.toNat, { n with rows := rows }))) ∧
    (let i : Instr := .tlda z d a f
     let u := preIssue i s
     let v := q.getG a.toNat
     let base := v.toNat % 2 ^ 32
     let rows := rowTable ((List.range 128).map fun r => joinAll [piecesLabel x u false
       ((List.range 8).map fun j => (base + 512 * r + 64 * j, 64)), q.labG a.toNat, x.w.wcl])
     Ready i { rg := [a.toNat] } 0 false s x → v.toNat < 2 ^ 33 → base % 64 = 0 →
      (∀ j, j < 1024 → (galPa x u (base + 64 * j) 64 false).isSome = true) →
      Unhindered x ((List.range 1024).map fun j => piecePa x u false (base + 64 * j, 64)) →
      TileFits x u rows (joinAll [x.w.slab, [], q.labG a.toNat]) →
      WindowGets i s x f (fun o => o.op = 4 ∧ o.acc = d.toNat ∧ o.addr = v) [q.labG a.toNat]
        (some (d.toNat, ⟨true, true, v.getLsbD 32, true, [0x3F80#16, 0x3F80#16, 0x3F80#16, 0x3F80#16], rows⟩))) ∧
    (∀ c ∈ [(Instr.tdrain z d a f, 5), (.tdrainAdd z d a f, 6)], ∀ pa : Nat,
      let u := preIssue c.1 s
      let v := q.getG a.toNat
      let blk := readBytes u.mem.gal pa 64
      let out := outDesc blk
      let nb := outBytes (numAt blk 0x14 1 % 16)
      let bias := (List.range 8).map fun j => (numAt blk 12 4 + 64 * j, 64)
      let biased := (numAt blk 0x16 1).testBit 1
      let cap := granLabel u.mem pa
      let q0 := joinAll [cap, q.labG a.toNat, x.w.wcl]
      let lab := fun r => joinL (n.row r) (if biased then joinL q0 (piecesLabel x u false bias) else q0)
      let name := if (numAt blk 0x16 1).testBit 2 then NameSt.free else n
      Ready c.1 { rg := [a.toNat] } 0 false s x → n.held = true → n.tset = true → v.toNat < 2 ^ 32 → v.toNat % 64 = 0 →
      galPa x u v.toNat 64 false = some pa → granDamaged u pa = false →
      Unhindered x (pa :: operandPas x u out nb true ++ if biased then bias.map (piecePa x u false) else []) →
      blockOk (c.2 == 6) blk = true → numAt blk 12 4 % 64 = 0 → OperandOk x u out nb true →
      (biased = true → ∀ p ∈ bias, (galPa x u p.1 p.2 false).isSome = true) → disjointAll (allPieces out nb) = true →
      (c.2 = 6 → ∀ p ∈ allPieces out nb, ∀ o ∈ allPieces out nb,
        piecePa x u true p / 2 ^ 20 = piecePa x u true o / 2 ^ 20) →
      (∀ t r, t < 2 → r < 128 → ∀ p ∈ pieces out nb t r,
        dominates (granLabel u.mem (piecePa x u true p)) (lab r) = true) →
      TileFits x u name.rows (joinAll [x.w.slab, cap, q.labG a.toNat]) →
      WindowGets c.1 s x f (fun o => o.op = c.2 ∧ o.acc = d.toNat ∧ o.addr = v ∧ o.blk = blk ∧ o.blkDmg = false)
        [cap, q.labG a.toNat] (some (d.toNat, name))) ∧
    (let i : Instr := .tstat z d6 d
     let u := preIssue i s
     Ready i { wg := [d6.toNat] } 0 false s x → x.w.pend.any (worksOn · d.toNat) = false → Binds u x.asid x.w.wcl →
      ((∀ p ∈ (u.core x.core).tiles, p.2.owner ≠ some (x.wk, d.toNat)) → WritesG i s x d6.toNat 0 [x.w.wcl]) ∧
      ∀ k T, (u.core x.core).tiles.find? (fun p => p.2.owner == some (x.wk, d.toNat)) = some (k, T) →
        aget Tile.free (u.core x.core).tiles k = T → T.dmgCount < 2 ^ 16 → T.dmgFirst < 2 ^ 43 →
        ∃ v : Word, WritesG i s x d6.toNat v [x.w.wcl] ∧ v.getLsbD 63 = true ∧ v.getLsbD 62 = T.tset ∧
          v.getLsbD 61 = T.int ∧ v.getLsbD 60 = T.bset ∧ (v.getLsbD 59 = true ↔ T.dsc ≠ 0x3F800000#32) ∧
          (v.extractLsb' 43 16).toNat = T.dmgCount ∧ (v.extractLsb' 0 43).toNat = T.dmgFirst)

/-- R277, R279, R292 to R295: RULELD and RULEOFF form a partition's next rule generation with the entries given
replaced, FLUSHW sends the window to the matrix engine, RULEQ reads an entry of the gang's generation or a counter. -/
def Sys2Proof.Machine.Claim.FlowstoneInstructions : Prop :=
  ∀ (z : Bool) (d a b : BitVec 6) (s : State) (x : Ctx),
    let q := x.w.regs
    let la := q.labG a.toNat
    let part := x.part s
    let formed := fun (i : Instr) (t : State) (first : Nat) (ds : List Word) =>
      let p := (preIssue i s).partOf part
      let r := t.partOf part
      r.gen = p.gen + 1 ∧
      (∀ k, aget 0 (aget [] r.gens r.gen) k =
        if 8 * first ≤ k ∧ k < 8 * first + ds.length then nth 0 ds (k - 8 * first) else aget 0 (aget [] p.gens p.gen) k) ∧
      (∀ g ∈ liveGens s part p.gens, g.1 ≠ p.gen + 1 → kget r.gens g.1 = kget (liveGens s part p.gens) g.1) ∧
      t.q = q ∧ t.mem = s.mem ∧ Kept i x.w t.w ∧ ∀ k, k ≠ s.cur → t.warp k = s.warp k
    let free := x.replicated = false ∧ x.la.rulesRight = true ∧ (liveGens s part (s.partOf part).gens).length < 4
    (∀ (pas : List Nat), let i : Instr := .ruleld z a b
      let u := preIssue i s
      let ga := (q.getG a.toNat).toNat
      let v := (q.getG b.toNat).toNat
      let ds := pas.flatMap fun pa => (List.range 8).map fun k => BitVec.ofNat 64 (readNum u.mem.gal (pa + 8 * k) 8)
      Ready i { rg := [a.toNat, b.toNat] } 0 false s x → free → ga % 64 = 0 → v < 2 ^ 16 → v % 256 + v / 256 ≤ 255 →
      galGranules x u ga (64 * (v / 256 + 1)) false = some pas → pas.length = v / 256 + 1 →
      (∀ pa ∈ pas, pa / 2 ^ 20 = x.core ∧ granLabel u.mem pa = []) →
      la = [] → q.labG b.toNat = [] → x.w.wcl = [] → Unhindered x pas →
      (∀ k, k ≤ v / 256 → ruleOk ((ds.drop (8 * k)).take 8) = true) →
      ∃ t, exec i s = .next t ∧ formed i t (v % 256) ds) ∧
    (let i : Instr := .ruleoff z a
     let v := (q.getG a.toNat).toNat
     Ready i { rg := [a.toNat] } 0 false s x → free → v < 2 ^ 16 → v % 256 + v / 256 ≤ 255 → la = [] → x.w.wcl = [] →
      ∃ t, exec i s = .next t ∧ formed i t (v % 256) (List.replicate (8 * (v / 256 + 1)) 0)) ∧
    (Ready (.flushw z) {} 0 false s x → ∃ t, exec (.flushw z) s = .next t ∧ t.w.window = [] ∧
      t.w.pend = s.w.pend ++ s.w.window ∧ t.q = s.q ∧ t.mem = s.mem ∧ Kept (.flushw z) x.w t.w ∧
      Beside (preIssue (.flushw z) s) t) ∧
    (let i : Instr := .ruleq z d a
     let u := preIssue i s
     let k := (q.getG a.toNat).toNat
     Ready i { rg := [a.toNat], wg := [d.toNat] } 0 false s x →
      (k ≤ 0xFF → Binds u x.asid (joinAll [la, x.w.wcl]) →
        WritesG i s x d.toNat (aget 0 (aget [] (u.partOf part).gens x.gang.gen) (8 * k)) [la, x.w.wcl]) ∧
      (0x100 ≤ k → k ≤ 0x104 → Binds u x.asid (joinL x.w.slab (joinAll [la, x.w.wcl])) →
        WritesG i s x d.toNat (aget 0 x.w.counters k) [x.w.slab, la, x.w.wcl]))

namespace Sys2Proof.Machine.Claim

/-! ## Launches and engines (R72 to R74, R298 to R329) -/

/-- An instruction completes without writing a register or a byte; the warps beside it stay. -/
def Completes (i : Instr) (s : State) (x : Ctx) (P : State → Prop) : Prop :=
  ∃ t, exec i s = .next t ∧ P t ∧ t.q = x.w.regs ∧ t.mem = s.mem

/-- Every granule lies in the issuing core's slice. -/
abbrev Local (x : Ctx) (pas : List Nat) : Prop := ∀ pa ∈ pas, pa / 2 ^ 20 = x.core

/-- A core's command engines serve its cluster (R298): the numbers of its group. -/
def engineGroup (core : Nat) : List Nat := (List.range 8).map fun k => core / 160 * 64 + core % 160 / 20 * 8 + k

/-- The chains bound to an engine, those of swapped-out blocks among them. -/
def boundTo (s : State) (e : Nat) : Nat :=
  (s.chains.filter fun p => p.2.engine == e).length +
    (s.contexts.map fun c => (c.chains.filter fun p => p.2.engine == e).length).sum

/-- The engine that a new chain of a core gets (R298). -/
abbrev Chosen (s : State) (core e : Nat) : Prop :=
  e ∈ engineGroup core ∧ boundTo s e < 32 ∧ ∀ e' ∈ engineGroup core, boundTo s e < boundTo s e' ∨ boundTo s e = boundTo s e' ∧ e ≤ e'

end Sys2Proof.Machine.Claim

/-- R59, R72 to R74: LAUNCH reads its record at issue and waits for a slot of an enabled queue of its ASID, a queue
that is not answering at once; LCANCEL cancels every launch it names that has not completed; LSTAT gives the verdict
on a record. -/
def Obligations.LaunchInstructions : Prop :=
  ∀ (z : Bool) (d a b : BitVec 6) (f : BitVec 1) (s : State) (x : Ctx) (pas : List Nat), x.replicated = false →
    let q := x.w.regs
    let va := q.getG a.toNat
    let vb := (q.getG b.toNat).toNat
    let la := q.labG a.toNat
    let lb := q.labG b.toNat
    Local x pas → Unhindered x pas →
    (let i : Instr := .launch z d a b f
     let u := preIssue i s
     let bs := pas.flatMap fun pa => readBytes u.mem.gal pa 64
     let src := joinL (joinAll [la, lb, x.w.wcl]) (joinAll (pas.map (granLabel u.mem)))
     let queue := aget Queue.zero u.hub.queues vb
     Ready i { rg := [a.toNat, b.toNat], wg := [d.toNat] } 0 false s x → va.toNat % 64 = 0 → vb < 4096 →
      galGranules x u va.toNat 512 false = some pas →
      (∃ L, setOf (x.labels u) (numAt bs 0x3C 4 % 4096) = some L ∧ dominates L src = true) → BindsAll u x.asid [src] →
      Quiet x u →
      (queue.en = true → queue.devq = true → queue.asid = x.asid →
        ∃ t p, exec i s = .next t ∧ t.w.pend = x.w.pend ++ [p] ∧ p.work = .launch d.toNat vb bs src ∧ p.stage = 0 ∧
          p.flag = x.flag f ∧ (aget Queue.zero t.hub.queues vb).waiting = queue.waiting ++ [(s.cur, x.w.issued)] ∧
          t.q = q ∧ t.mem = s.mem ∧ Kept i { x.w with pend := t.w.pend, issued := x.w.issued + 1 } t.w) ∧
      (queue.en = false ∨ queue.devq = false ∨ queue.asid ≠ x.asid →
        ∃ t p, exec i s = .next t ∧ t.w.pend = x.w.pend ++ [p] ∧ p.work = .launch d.toNat vb bs src ∧ p.stage = 1 ∧
          p.flag = x.flag f ∧ p.res = [⟨0, 0x8504, src, false⟩] ∧ t.hub.queues = u.hub.queues ∧ t.q = q ∧
          t.mem.gal = s.mem.gal)) ∧
    (let i : Instr := .lcancel z a
     let hit := fun (l : Launch) => l.queue = va.toNat % 4096 ∧ l.asid = x.asid ∧ l.completed = none ∧
       l.record.cseq = va.toNat / 2 ^ 16
     Ready i { rg := [a.toNat] } 0 false s x → va.toNat / 2 ^ 12 % 16 = 0 → la = [] → x.w.wcl = [] →
      (s.launches.map (·.1)).Nodup →
      Completes i s x fun t => ∀ k l, kget s.launches k = some l → ∃ l', kget t.launches k = some l' ∧
        (l'.cancelled = true ↔ l.cancelled = true ∨ hit l) ∧ l'.completed = l.completed ∧ l'.record = l.record) ∧
    (let i : Instr := .lstat z d a
     let u := preIssue i s
     let bs := pas.flatMap fun pa => readBytes u.mem.gal pa 64
     let v := verdict u (some x.asid) (va.toNat / 2 ^ 32) bs
     let lab := joinL (joinAll [la, x.w.wcl]) (joinAll (pas.map (granLabel u.mem)))
     Ready i { rg := [a.toNat], wg := [d.toNat] } 0 false s x → va.toNat < 2 ^ 44 → va.toNat % 64 = 0 →
      galGranules x u (va.toNat % 2 ^ 32) 512 false = some pas → Binds u x.asid lab →
      WritesG i s x d.toNat (BitVec.ofNat 64 (v.2 * 256 + v.1)) (la :: x.w.wcl :: pas.map (granLabel u.mem)))

/-- R298 to R301, R306, R318, R320, R323 to R329: ETAIL queues its sublist on the chain at its descriptor, binding one first
where none is bound; with no entries it resumes a halted chain and leaves another as it is; it is held where the queue is full or an earlier hand-over
waits there; WAITSEQ completes with an acquire once the word has reached its target and waits before; SEQR reads TAIL; COLL queues its rank's part and clears its completion object; COMMQ describes a communicator. -/
def Obligations.EngineInstructions : Prop :=
  ∀ (z : Bool) (d a b : BitVec 6) (s : State) (x : Ctx) (pa : Nat), x.replicated = false →
    let q := x.w.regs
    let va := (q.getG a.toNat).toNat
    let vb := (q.getG b.toNat).toNat
    let la := q.labG a.toNat
    let lb := q.labG b.toNat
    (let i : Instr := .etail z a b
     let u := preIssue i s
     let n := vb / 2 ^ 32
     let lab := joinAll [la, lb, x.w.wcl]
     let sub : SubList := ⟨vb % 2 ^ 32, n, lab, x.blk.launch, x.blk.b, x.w.index, x.w.events⟩
     let late := behind u pa (x.handover x.w.issued)
     Ready i { rg := [a.toNat, b.toNat] } 0 false s x → va % 64 = 0 → n ≤ 4096 → (n ≠ 0 → vb % 64 = 0) →
      galPa x u va 64 true = some pa → dominates (granLabel u.mem pa) lab = true → Quiet x u →
      (∀ c, kget s.chains pa = some c → c.detached = false → n = 0 → c.halt = 0 →
        Completes i s x fun t => t.chains = s.chains ∧ t.w.held = x.w.held) ∧
      (∀ c y, kget s.chains pa = some c → c.detached = false → n = 0 → c.halt ≠ 0 → commitCtx u c.launch c.b = some y →
        y.replicated = false → kget s.rings (c.cwordPa pa / 64 * 64) = none →
        ∃ t r, exec i s = .next t ∧ kget t.chains pa = some r ∧ r.halt = 0 ∧ r.seq = c.seq ∧ r.tail = c.tail ∧ r.subs = c.subs ∧
          r.entries.map (·.num) = c.entries.map (·.num) ∧
          (∀ e ∈ r.entries, e.code = 0 ∧ e.fresh = true ∨ (e.code = 1 ∨ e.code = 2) ∧ e ∈ c.entries) ∧
          readNum t.mem.gal (c.cwordPa pa) 8 = c.seq % 2 ^ 48 ∧ t.q = q) ∧
      (∀ c, kget s.chains pa = some c → c.detached = false → n ≠ 0 → c.subs.length < 16 → late = false →
        Completes i s x fun t => kget t.chains pa = some { c with subs := c.subs ++ [sub], tail := c.tail + n } ∧
          (∀ p, p ≠ pa → kget t.chains p = kget s.chains p) ∧ t.w.held = x.w.held) ∧
      (∀ c, kget s.chains pa = some c → c.detached = false → n ≠ 0 → 16 ≤ c.subs.length ∨ late = true →
        c.subs.length < 16 ∨ c.halt = 0 →
        ∃ t h l, exec i s = .next t ∧ t.w.held = x.w.held ++ [h] ∧ h.kind = 0 ∧ h.op.work = .etail l ∧ l.ga = va ∧ l.pa = pa ∧
          l.v = q.getG b.toNat ∧ IsJoin l.lab [la, lb, x.w.wcl] ∧ h.op.id = x.w.issued ∧
          (∃ r, t.hub.handovers = r ++ [x.handover x.w.issued]) ∧ t.chains = s.chains ∧ t.mem = s.mem ∧ t.q = q) ∧
      (∀ cw cp, kget s.chains pa = none → n ≠ 0 → readNum u.mem.gal pa 4 = 0 → readNum u.mem.gal (pa + 4) 4 = cw →
        readNum u.mem.gal (pa + 8) 56 = 0 → cw % 8 = 0 → galPa x u cw 8 true = some cp → cp / 2 ^ 20 = pa / 2 ^ 20 →
        cp / 64 ≠ pa / 64 → dominates (granLabel u.mem cp) (granLabel u.mem pa) = true →
        (∃ e ∈ engineGroup x.core, boundTo s e < 32) → late = false →
        ∃ t c, exec i s = .next t ∧ kget t.chains pa = some c ∧ Chosen s x.core c.engine ∧ c.ga = va ∧ c.cword = cw ∧
          c.launch = x.blk.launch ∧ c.b = x.blk.b ∧ c.tail = n ∧ c.seq = 0 ∧ c.halt = 0 ∧ c.subs = [sub] ∧
          readNum t.mem.gal cp 8 = 0 ∧ t.q = q)) ∧
    (let i : Instr := .waitseq a b
     let u := preIssue i s
     let word := readNum u.mem.gal pa 8
     Ready i { rg := [a.toNat, b.toNat] } 0 false s x → va % 8 = 0 → vb < 2 ^ 48 → galPa x u va 8 false = some pa →
      dominates x.w.wcl (joinAll [la, lb, granLabel u.mem pa]) = true → Unhindered x [pa] →
      (vb ≤ word % 2 ^ 48 → Completes i s x fun t => (t.core x.core).snapshot = [] ∧ Kept i x.w t.w) ∧
      (word % 2 ^ 48 < vb → word / 2 ^ 56 = 0 → ∃ t cap, exec i s = .next t ∧ IsJoin cap [la, lb] ∧
        t.w = { x.w with wait := .seq va pa vb cap } ∧ t.mem = s.mem)) ∧
    (let i : Instr := .seqr z d a
     let u := preIssue i s
     let lab := joinL (granLabel u.mem pa) (joinAll [la, x.w.wcl])
     Ready i { rg := [a.toNat], wg := [d.toNat] } 0 false s x → va % 64 = 0 → galPa x u va 64 false = some pa →
      Unhindered x [pa] → BindsAll u x.asid [lab] →
      WritesG i s x d.toNat (BitVec.ofNat 64 (match kget s.chains pa with
        | some c => c.tail
        | none => 0)) [granLabel u.mem pa, la, x.w.wcl]) ∧
    (∀ cp : Nat, let i : Instr := .coll z a
     let u := preIssue i s
     let ds := (List.range 8).map fun k => BitVec.ofNat 64 (readNum u.mem.gal (pa + 8 * k) 8)
     let lab := joinL (granLabel u.mem pa) (joinAll [la, x.w.wcl])
     let k := aget 0 u.hub.colls (collKey ds)
     let paused := decide (2 ≤ (u.partOf (x.part u)).state)
     Ready i { rg := [a.toNat] } 0 false s x → va % 64 = 0 → galPa x u va 64 false = some pa → pa / 2 ^ 20 = x.core →
      Unhindered x [pa] → commandOk ds = true → memberOk u x.asid ds = true → collCobj ds % 64 = 0 →
      galPa x u (collCobj ds) 64 true = some cp → dominates (granLabel u.mem cp) lab = true →
      ∃ t, exec i s = .next t ∧
        t.hub.parcels = u.hub.parcels ++
          [⟨collComm ds, collRank ds, k, ds, va, x.blk.launch, x.blk.b, lab, 0, paused, 0, x.core / 160,
            if beyondGang x cp then some cp else none⟩] ∧
        aget 0 t.hub.colls (collKey ds) = k + 1 ∧ readNum t.mem.gal cp 64 = (if paused then 2 * 2 ^ 96 else 0) ∧
        (∀ p, p < cp ∨ cp + 64 ≤ p → readByte t.mem.gal p = readByte s.mem.gal p) ∧ t.mem.glab = s.mem.glab ∧ t.q = q) ∧
    (let i : Instr := .commq z d a
     let u := preIssue i s
     let c := aget Comm.zero u.hub.comms va
     let mine := (List.range (bits c.dw 49 7)).find? fun r =>
       (nth 0 c.ranks r) / 2 ^ 24 % 256 == u.hub.moduleNumber && (nth 0 c.ranks r) / 2 ^ 11 % 2 ^ 13 == x.asid
     Ready i { rg := [a.toNat], wg := [d.toNat] } 0 false s x → va < 64 → bits c.dw 49 7 ≤ 64 →
      Binds u x.asid (joinAll [la, x.w.wcl]) →
      (c.dw.getLsbD 63 = false → WritesG i s x d.toNat 0 [la, x.w.wcl]) ∧
      (c.dw.getLsbD 63 = true → ∃ v : Word, WritesG i s x d.toNat v [la, x.w.wcl] ∧ v.getLsbD 63 = true ∧
        v.extractLsb' 49 14 = c.dw.extractLsb' 49 14 ∧ v.extractLsb' 26 16 = c.dw.extractLsb' 33 16 ∧
        v.extractLsb' 0 26 = 0 ∧ (mine = none → v.extractLsb' 42 7 = 0) ∧
        ∀ r, mine = some r → v.getLsbD 48 = true ∧ (v.extractLsb' 42 6).toNat = r % 64))

namespace Sys2Proof.Machine.Claim

/-! ## System, Echo and platform instructions (R353 to R356, R383 to R389, R412, R413) -/

/-- The system registers that SREAD reads to a G register (R383), those of the block's place apart: number, value,
label. -/
def systemRegisters (x : Ctx) (s : State) : List (Nat × Word × Label) :=
  [(0x02, BitVec.ofNat 64 x.w.index, x.w.wcl), (0x03, x.w.slim, x.w.wcl), (0x04, BitVec.ofNat 64 x.lr.ownact, x.w.wcl),
   (0x05, (s.core x.core).latec, x.w.wcl), (0x11, BitVec.ofNat 64 x.w.index, x.w.wcl)] ++
  (List.range 6).map (fun k => (0x12 + k, BitVec.ofNat 64 (x.lr.lvl x.blk.b (k + 2)), x.w.wcl)) ++
  (List.range 8).map (fun k => (0x20 + k, aget 0 x.w.tfw k, x.w.tfl)) ++
  (List.range 16).map fun k => (0x30 + k, BitVec.ofNat 64 (nth 0 x.lr.prins k % 2 ^ 24), x.w.wcl)

/-- The records a release at the widest scope would publish (R354). -/
def heldNow (x : Ctx) (s : State) : List (List Word) :=
  (x.w.phase.map entryRecord ++ x.w.items.map itemRecord).map (Record.image s x.asid)

/-- An instruction of the current warp ends in a trap (R357, R359): the warp stops with its registers and its lanes'
places as they are, the window flushed, and the trap goes to the core's arbiter. -/
def TakesTrap (i : Instr) (s : State) (x : Ctx) (P : Trap → Prop) : Prop :=
  ∃ t tr, exec i s = .next t ∧ t.w.trap = some tr ∧ P tr ∧ t.w.status = .trapped ∧ t.w.run = none ∧ t.w.window = [] ∧
    t.w.pc = x.w.pc ∧ t.w.exited = x.w.exited ∧ t.w.wcl = x.w.wcl ∧ t.q = x.w.regs ∧ t.mem = s.mem ∧
    (t.core x.core).notices = (s.core x.core).notices ++ [s.cur] ∧ ∀ k, k ≠ s.cur → t.warp k = s.warp k

/-- What a trap at an instruction reports of its place (R357, R360): POINT 0, the instruction and its header. -/
def AtInstr (x : Ctx) (tr : Trap) (code : Nat) : Prop :=
  tr.code = code ∧ tr.point = 0 ∧ tr.grp = x.grp ∧ tr.pc = x.pc ∧ tr.hdr = x.run.hdr ∧ tr.word = x.word

end Sys2Proof.Machine.Claim

/-- R383, R386 to R388: SREAD reads every system register, SWRITE writes SLIM, CLKR reads the core's cycle count,
which has moved on, RAND draws at issue and writes when its flag clears. -/
def Obligations.SystemInstructions : Prop :=
  ∀ (z : Bool) (d a : BitVec 6) (n : BitVec 11) (f : BitVec 1) (s : State) (x : Ctx), x.replicated = false →
    let q := x.w.regs
    (let i : Instr := .sread z d n
     let u := preIssue i s
     (n = 0x01 ∨ n = 0x10 → Ready i { wv := [d.toNat] } 0 false s x → GroupFits x u (fun _ => x.w.wcl) →
       WritesV i s x d.toNat x.grp (fun l r => r = BitVec.ofNat 64 l) (fun _ => [x.w.wcl])) ∧
     (∀ h, n = 0 → Ready i { wg := [d.toNat] } 0 false s x → handleIn (x.labels u) x.w.wcl = some h →
       WritesG i s x d.toNat (BitVec.ofNat 64 h) [x.w.wcl]) ∧
     (∀ r ∈ systemRegisters x u, n.toNat = r.1 → Ready i { wg := [d.toNat] } 0 false s x → Binds u x.asid r.2.2 →
       WritesG i s x d.toNat r.2.1 [r.2.2])) ∧
    (let i : Instr := .swrite z a 3
     let v := q.getG a.toNat
     Ready i { rg := [a.toNat, 0, 63] } 0 false s x → q.labG a.toNat = [] → x.w.wcl = [] → v.toNat % 16 = 0 →
      (q.getG 0).toNat ≤ v.toNat → v.toNat ≤ (q.getG 63).toNat → Changes i s x { x.w with slim := v }) ∧
    (let i : Instr := .clkr z d
     let u := preIssue i s
     Ready i { wg := [d.toNat] } 0 false s x → Binds u x.asid x.w.wcl →
      ∃ t n, exec i s = .next t ∧ t.q.getG d.toNat = (u.core x.core).clk + 1 + n ∧
        (t.core x.core).clk = (u.core x.core).clk + 1 + n ∧ IsJoin (t.q.labG d.toNat) [x.w.wcl] ∧ OnlyG q t.q d.toNat ∧
        Kept i x.w t.w ∧ t.mem = s.mem ∧ ∀ c, c ≠ x.core → t.core c = u.core c) ∧
    (let i : Instr := .rand z d f
     Ready i { wg := [d.toNat] } 0 false s x →
      ∃ t p, exec i s = .next t ∧ t.w.pend = x.w.pend ++ [p] ∧ p.flag = x.flag f ∧ p.work = .rand d.toNat ∧ p.stage = 1 ∧
        p.res.length ≤ 1 ∧ (∀ r ∈ p.res, r.lane = 0 ∧ r.lab = x.w.wcl ∧ r.dmg = false) ∧
        (p.res = [] → t.hub.rngOff = true) ∧ (s.hub.rngOff = true → p.res = []) ∧ t.q = q ∧ t.mem = s.mem ∧
        Kept i { x.w with pend := t.w.pend, issued := x.w.issued + 1 } t.w)

/-- R353 to R356, R412, R413: ERID, ESTAT and ESIG describe the block's replicas and what they hold; EINJ flips one
register bit of one replica; CAPR reads the capability list of the launch's placement; SLOG appends a record that the
log's label dominates, and nothing where the ASID has no log. -/
def Obligations.EchoAndPlatformInstructions : Prop :=
  ∀ (z : Bool) (d a b : BitVec 6) (d5 : BitVec 5) (s : State) (x : Ctx), x.replicated = false →
    let q := x.w.regs
    let va := q.getG a.toNat
    let vb := q.getG b.toNat
    let la := q.labG a.toNat
    let lb := q.labG b.toNat
    (let i : Instr := .erid z d
     Ready i { wg := [d.toNat] } 0 false s x → Binds (preIssue i s) x.asid x.w.wcl → x.core < 640 →
      ∃ v : Word, WritesG i s x d.toNat v [x.w.wcl] ∧ (v.extractLsb' 54 10).toNat = x.core ∧ v.extractLsb' 34 20 = 0 ∧
        (v.extractLsb' 32 2).toNat = x.gang.commit % 4 ∧ (v.extractLsb' 30 2).toNat = x.lr.repl ∧ v.extractLsb' 0 30 = 0) ∧
    (let i : Instr := .estat z d
     Ready i { wg := [d.toNat] } 0 false s x → Binds (preIssue i s) x.asid x.w.wcl →
      ∃ v : Word, WritesG i s x d.toNat v [x.w.wcl] ∧ (v.extractLsb' 62 2).toNat = x.lr.repl ∧
        (v.getLsbD 61 = true ↔ x.gang.live.length < x.lr.repl) ∧ v.getLsbD 60 = x.gang.echoAgain ∧
        (v.extractLsb' 52 8).toNat = min x.la.vloss 255 ∧ (v.extractLsb' 44 8).toNat = min x.la.recln 255 ∧
        (v.extractLsb' 36 8).toNat = min x.la.strag 255 ∧ v.extractLsb' 32 4 = 0 ∧
        (v.extractLsb' 0 32).toNat = x.w.commits % 2 ^ 32) ∧
    (let i : Instr := .esig z d5
     let u := preIssue i s
     let hs := (heldNow x u).map fun r => (rhash r).toNat
     let lab := joinAll (x.w.wcl :: (x.w.phase.map (·.lab) ++ x.w.items.map (·.l.lab)))
     let lo := 2 * d5.toNat
     Ready i { wg := [lo, lo + 1] } 0 false s x → Binds u x.asid lab →
      ∃ t, exec i s = .next t ∧ (t.q.getG lo).toNat = hs.sum % 2 ^ 64 ∧
        (t.q.getG (lo + 1)).toNat = hs.length % 2 ^ 32 * 2 ^ 32 + hs.foldl (fun y h => y ^^^ (h / 2 ^ 32 ^^^ h % 2 ^ 32)) 0 ∧
        t.q.labG lo = lab ∧ t.q.labG (lo + 1) = lab ∧
        (∀ r, r ≠ lo → r ≠ lo + 1 → t.q.getG r = q.getG r ∧ t.q.labG r = q.labG r) ∧ t.q.v = q.v ∧ t.q.p = q.p ∧
        t.q.m = q.m ∧ Kept i x.w t.w ∧ Beside u t) ∧
    (let i : Instr := .einj z a b
     let k := vb.toNat % 64
     let l := vb.toNat / 64
     let r := va.toNat / 8
     Ready i { rg := [a.toNat, b.toNat] } 0 false s x → s.hub.testFuse = true → s.hub.hubctl.getLsbD 1 = true →
      va.toNat < 2 ^ 9 → vb.toNat < 2 ^ 11 → va.toNat % 4 < x.lr.repl →
      ∃ t, exec i s = .next t ∧
        (∀ n, t.q.getG n = if va.toNat % 4 = x.blk.rep ∧ va.getLsbD 2 = true ∧ n = r then q.getG n ^^^ (1#64 <<< k)
          else q.getG n) ∧
        (∀ n m, m < 32 → t.q.getV n m = if va.toNat % 4 = x.blk.rep ∧ va.getLsbD 2 = false ∧ n = r ∧ m = l
          then q.getV n m ^^^ (1#64 <<< k) else q.getV n m) ∧
        t.q.vl = q.vl ∧ t.q.gl = q.gl ∧ t.q.p = q.p ∧ t.q.pl = q.pl ∧ t.q.m = q.m ∧ t.q.ml = q.ml ∧ Kept i x.w t.w ∧
        Beside (preIssue i s) t) ∧
    (let i : Instr := .capr z d a
     let u := preIssue i s
     Ready i { rg := [a.toNat], wg := [d.toNat] } 0 false s x → va.toNat < 2 ^ 16 → va.toNat % 8 = 0 →
      Binds u x.asid (joinAll [la, x.w.wcl]) →
      WritesG i s x d.toNat (((capDwords 0 (capRecords u x.la.caps))[va.toNat / 8]?).getD 0) [la, x.w.wcl]) ∧
    (let i : Instr := .slog z a b
     let u := preIssue i s
     let src := joinAll [la, lb, x.w.wcl]
     Ready i { rg := [a.toNat, b.toNat] } 0 false s x →
      (logDesc u x.asid = none → Completes i s x fun t => t.hub = u.hub ∧ Kept i x.w t.w) ∧
      (∀ bs, logDesc u x.asid = some bs → dominates (logLabel u x.asid bs) src = true →
        ∃ t, exec i s = .next t ∧ t.hub.hseq = u.hub.hseq + 1 ∧
          t.mem = (ringPut u x.asid (u.asidOf x.asid).slogd.toNat
            [BitVec.ofNat 64 (x.blk.b % 2 ^ 32 * 2 ^ 32 + x.w.index * 2 ^ 27 + x.asid), va, vb,
             BitVec.ofNat 64 u.hub.hseq]).mem ∧ t.q = q ∧ Kept i x.w t.w))

/-- R357, R359, R384, R385, R389, R398: TRAP takes SOFTWARE with its immediate and resumes after itself; TRET ends
handler mode, restores WCL and the group's places; HALT stops the warp where the ASID may be debugged and reports it.
-/
def Obligations.TrapReturnAndHalt : Prop :=
  ∀ (imm : BitVec 16) (s : State) (x : Ctx),
    (Ready (.trap imm) {} 0 true s x → TakesTrap (.trap imm) s x fun tr => AtInstr x tr 0x12 ∧ tr.mask = x.grp ∧
      tr.aux = imm.zeroExtend 64 ∧ tr.addr = 0 ∧ tr.run = none ∧ tr.resume = x.pc + 4) ∧
    (∀ h, Ready .tret {} 0 true s x → x.w.handler = some h → h.grp &&& x.w.live &&& ~~~x.grp = 0 →
      (∀ p ∈ x.w.j, ¬ (p.2.armed = true ∧ p.2.fresh = true)) → h.again = [] → h.rword = 0 →
      ∃ t, exec .tret s = .next t ∧
        t.w = evalRejoins { x.w with
          handler := none, wcl := if h.exited then x.w.wcl else h.wcl, pc := setPcs x.w.pc (h.grp &&& x.w.live) h.pc
          run := h.run.map fun r => { r with grp := r.grp &&& x.w.live }
          parked := x.w.parked.map fun p => { p with woken := true }
          yielded := x.w.yieldNew &&& x.w.live, yieldNew := 0, passed := [] } ∧ Beside (preIssue .tret s) t) ∧
    (let u := preIssue .halt s
     Ready .halt {} 0 true s x → (u.asidOf x.asid).dbg = true → x.replicated = false →
      ∃ t r, exec .halt s = .next t ∧ t.w.status = .halted ∧ t.w.haltPc = x.pc ∧ t.w.run = none ∧ t.q = x.w.regs ∧
        t.mem = s.mem ∧ t.hub.hseq = u.hub.hseq + 1 ∧
        (r : Word × Word).1.extractLsb' 51 13 = BitVec.ofNat 13 x.asid ∧ r.1.extractLsb' 46 5 = BitVec.ofNat 5 x.w.index ∧
        r.1.extractLsb' 36 10 = BitVec.ofNat 10 x.core ∧ r.1.extractLsb' 0 32 = BitVec.ofNat 32 x.blk.b ∧
        r.2.extractLsb' 0 52 = x.pc.extractLsb' 0 52 ∧
        (u.hub.debugBlock.halts.length < 64 → t.hub.debugBlock = { u.hub.debugBlock with halts := u.hub.debugBlock.halts ++ [r] }) ∧
        (64 ≤ u.hub.debugBlock.halts.length → t.hub.debugBlock = { u.hub.debugBlock with late := u.hub.debugBlock.late ++ [r] }))

/-- R29, R79, R80, R176, R198, R357 to R361, R369: an instruction traps, with its code, mask, address and detail, when
it names a pending register, reads a damaged one, is warp-wide outside convergence, gives a label no set can hold,
addresses outside what it may or misaligned, or stores under a label that its granule does not dominate. Where an instruction
meets several of these, which one it takes, a pending register before a damaged one and that before a label, is the model's
choice (log entry 10). -/
def Obligations.InstructionTraps : Prop :=
  ∀ (z : Bool) (g : BitVec 3) (d a b : BitVec 6) (i11 : BitVec 11) (i17 : BitVec 17) (i16 : BitVec 16) (sh : BitVec 2)
    (c : BitVec 5) (l : BitVec 3) (t : BitVec 6) (bb ix : BitVec 4) (dp : BitVec 5) (f : BitVec 1) (s : State) (x : Ctx),
    x.w.ord = none →
    (∀ p ∈ uniforms z d a b i11 i17 i16 sh c,
      let u := preIssue p.1 s
      let uses := gUses p.2.1 d.toNat
      issuerOf u = some x →
      (hazard x.w uses = true → TakesTrap p.1 s x fun tr => AtInstr x tr 0x02 ∧ tr.mask = x.grp) ∧
      (hazard x.w uses = false → markedRead x.w uses = none → damagedReads x.w.regs uses allLanes ≠ [] →
        decode x.word = some p.1 → TakesTrap p.1 s x fun tr => AtInstr x tr 0x0D ∧ tr.mask = x.grp ∧ tr.addr = 0) ∧
      (Ready p.1 uses allLanes false s x → ¬ Binds u x.asid (joinAll (gLabels x p.2.1)) →
        TakesTrap p.1 s x fun tr => AtInstr x tr 0x07 ∧ tr.mask = x.grp)) ∧
    (let i : Instr := .bara z l
     issuerOf (preIssue i s) = some x → x.w.live &&& ~~~x.grp ≠ 0 → TakesTrap i s x fun tr => AtInstr x tr 0x02) ∧
    (∀ p ∈ vlds z g t bb ix dp f,
      let u := preIssue p.1 s
      let lanes := activeLanes x g
      let addr := laneAddr x bb ix dp.toNat p.2.1
      Ready p.1 { rv := indexRegs ix, rg := [bb.toNat], rp := [g.toNat], wv := [t.toNat] } lanes false s x →
      ∀ k, lanes.getLsbD k = true →
        (addr k % p.2.1 ≠ 0 → (∀ j, j < k → lanes.getLsbD j = true → addr j % p.2.1 = 0) →
          TakesTrap p.1 s x fun tr => AtInstr x tr 0x0B ∧ tr.addr.toNat = addr k ∧
            ∀ j, j < 32 → (tr.mask.getLsbD j = true ↔ lanes.getLsbD j = true ∧ addr j % p.2.1 ≠ 0)) ∧
        ((∀ j, lanes.getLsbD j = true → addr j % p.2.1 = 0) → galPa x u (addr k) p.2.1 false = none →
          (∀ j, j < k → lanes.getLsbD j = true → (galPa x u (addr j) p.2.1 false).isSome = true) →
          TakesTrap p.1 s x fun tr => AtInstr x tr 0x08 ∧ tr.addr.toNat = addr k ∧
            ∀ j, j < 32 → (tr.mask.getLsbD j = true ↔
              lanes.getLsbD j = true ∧ galPa x u (addr j) p.2.1 false = none))) ∧
    (∀ pa : Nat, let i : Instr := .gst z d b 0
      let u := preIssue i s
      let va := x.w.regs.getG b.toNat
      Ready i { rg := [d.toNat, b.toNat] } 0 false s x → va.toNat % 8 = 0 → galPa x u va.toNat 8 true = some pa →
      pa / 2 ^ 20 = x.core → Unhindered x [pa] →
      dominates (granLabel u.mem pa) (joinAll [x.w.regs.labG d.toNat, x.w.regs.labG b.toNat, x.w.wcl]) = false →
        TakesTrap i s x fun tr => AtInstr x tr 0x03 ∧ tr.mask = x.grp ∧
          (∃ L, tr.srcl = some L ∧ IsJoin L [x.w.regs.labG d.toNat, x.w.regs.labG b.toNat, x.w.wcl]) ∧
          tr.dstl = some (granLabel u.mem pa))

/-- R23, R26, R27, R30, R45, R46, R143, R152, R155, R156, R357, R358: a clause of the current warp starts when it
decodes, no flag of its wait mask and no held request is pending, no mark is to be taken, it is not overdue, its live
descriptor covers the state and no active loop ends in it outside convergence, and then runs the words that were decoded; one
that is malformed or overdue traps before it starts.  The order of these checks, where a clause fails several, is the model's
reading (log entry 10): the decoding first, then the wait, the marks, the overdue count, the descriptor and the loops. -/
def Obligations.ClauseStarts : Prop :=
  ∀ (m : BitVec 12) (a b : BitVec 4) (sf : BitVec 1) (s : State) (w : Warp) (p : Word) (grp : Mask) (x : Ctx),
    s.warp s.cur = some w → w.group = some (p, grp) → ctxOf s s.cur ⟨p, p, grp, 15, 15, []⟩ 0 = some x →
    w.canIssue = true → w.run = none → w.request = .running → w.window = [] →
    let i : Instr := .clauseHeader m a b sf
    let traps := fun (code : Nat) (addr : Word) (gr : Mask) (t : State) =>
      (∃ tr, t.w.trap = some tr ∧ tr.code = code ∧ tr.point = 1 ∧ tr.grp = gr ∧ tr.mask = gr ∧ tr.pc = p ∧ tr.hdr = p ∧
        tr.addr = addr ∧ tr.resume = p) ∧ t.w.status = .trapped ∧ t.q = w.regs ∧ t.w.pc = w.pc ∧ t.mem = s.mem
    (∀ c addr, decodeFrom s x.asid p m a b sf = .error (c, addr) → ∃ t, exec i s = .next t ∧ traps c addr grp t) ∧
    (∀ c, decodeFrom s x.asid p m a b sf = .ok c →
      (flagsPending w c.wait = true ∨ w.held ≠ [] → exec i s = .next s) ∧
      (flagsPending w c.wait = false → w.held = [] → markAtStart w c.wait = none →
        (c.safe = false → 4096 ≤ w.overdue → ∃ t, exec i s = .next t ∧ traps 0x11 0 (clauseGroup w c p grp) t) ∧
        ((c.safe = true → (∀ n, n < 8 → (w.rejoin n).armed = true → c.desc.getLsbD (2 + n) = true) ∧
            ∀ k, k < 3 → (w.loop k).active = true → k < (c.desc.extractLsb' 0 2).toNat) →
          (c.safe = false → w.overdue < 4096) →
          (∀ k, k < 3 → (w.loop k).active = true → (∃ q ∈ c.instrs, q.1 = (w.loop k).last) →
            w.live &&& ~~~clauseGroup w c p grp = 0) →
          (c.safe = true → x.la.cancelled = false) →
          ∃ t, exec i s = .next t ∧
            t.w = { w with
              run := some ⟨p, if c.safe then p + 8 else p + 4, clauseGroup w c p grp, c.setA, c.setB, c.words⟩
              overdue := if c.safe then 0 else w.overdue + 1 } ∧
            (∀ k, k ≠ s.cur → t.warp k = s.warp k) ∧ t.mem = s.mem ∧ t.hub = s.hub ∧ t.launches = s.launches ∧
            ∀ k, { t.core k with last := (s.core k).last } = s.core k)))

namespace Sys2Proof.Machine.Claim

/-! ## Device steps: operations in flight -/

/-- A warp's context as the devices see it. -/
def dev (s : State) (w : Nat) : Option Ctx := ctxOf s w ⟨0, 0, 0, 15, 15, []⟩ 0

/-- A step leaves every warp but one alone. -/
def OtherWarps (s t : State) (w : Nat) : Prop := ∀ k, k ≠ w → t.warp k = s.warp k

/-- A step changes no register of any warp. -/
def RegsSame (s t : State) : Prop := ∀ k, (t.warp k).map (·.regs) = (s.warp k).map (·.regs)

/-- Some lane of a warp has not exited. -/
abbrev Alive (x : Ctx) : Prop := x.w.exited ≠ 0xFFFFFFFF#32

/-- The new value of a location of `w` bits (R234): old and operands below 2^w; 11 is ATOM.XADD, 12 XCLR. -/
def newNumber (op w old v n r : Nat) : Prop :=
  r < 2 ^ w ∧ (op = 0 → r = (old + v) % 2 ^ w) ∧ (op = 1 → r = old &&& v) ∧ (op = 2 → r = old ||| v) ∧
    (op = 3 → r = old ^^^ v) ∧ (op = 4 → sval w r = min (sval w old) (sval w v)) ∧
    (op = 5 → sval w r = max (sval w old) (sval w v)) ∧ (op = 6 → r = min old v) ∧ (op = 7 → r = max old v) ∧
    (op = 8 → r = v) ∧ (op = 9 → r = if old = v then n else old) ∧ (op = 10 → r = if v ≤ old then 0 else old + 1)

/-- An exact-sum cell after one addition (R116, R117): VALUE gains x * 2^160 modulo 2^320, COUNT one, and the flags
mark a NaN, an infinity or a full count. -/
def cellAdds (old v r : Nat) : Prop :=
  let f := r / 2 ^ 384
  let g := old / 2 ^ 384 % 16
  let count := (old / 2 ^ 320 + 1) % 2 ^ 64
  r / 2 ^ 320 % 2 ^ 64 = count ∧ f < 16 ∧ (f.testBit 3 ↔ g.testBit 3 ∨ 2 ^ 31 < count ∨ count = 0) ∧
    match val fp32 (v % 2 ^ 32) with
    | .nan => r % 2 ^ 320 = old % 2 ^ 320 ∧ (f.testBit 0 ∧ (f.testBit 1 ↔ g.testBit 1) ∧ (f.testBit 2 ↔ g.testBit 2))
    | .inf s => r % 2 ^ 320 = old % 2 ^ 320 ∧ (f.testBit 0 ↔ g.testBit 0) ∧ (f.testBit 1 ↔ g.testBit 1 ∨ s = false) ∧
        (f.testBit 2 ↔ g.testBit 2 ∨ s = true)
    | .fin s q => (∃ k : Int, ((r % 2 ^ 320 : Nat) : ℚ) = (old % 2 ^ 320 : Nat) + signed s q * 2 ^ 160 + k * 2 ^ 320) ∧
        (f.testBit 0 ↔ g.testBit 0) ∧ (f.testBit 1 ↔ g.testBit 1) ∧ (f.testBit 2 ↔ g.testBit 2)

end Sys2Proof.Machine.Claim

/-- R27, R29, R147, R153, R166, R184, R212, R243, R247, R326: a completed operation writes its destination with the captured
labels, each joined with WCL, but in the lanes that have exited, and leaves the pending ones; a woken group is eligible again and rejoins are evaluated; a barrier's wait ends
once its phase has completed, with an acquire; a WAITSEQ ends its clause once its word has reached the target. -/
def Sys2Proof.Machine.Claim.CompletionSteps : Prop :=
  ∀ (w n : Nat) (s : State) (x : Ctx), dev s w = some x →
    (∀ p v d, findPend x.w n = some p → p.stage ≠ 0 → destOf p.work = some (v, d) → Alive x →
      BindsAll s x.asid ((p.res.filter fun r => !(v && x.w.exited.getLsbD r.lane)).map fun r => joinL r.lab x.w.wcl) →
      (∀ r ∈ p.res, r.dmg = false ∧ r.lane < 32) → (p.res.map (·.lane)).Nodup →
      (∀ ret op size ls, p.work = .atomic ret op size ls → ls = []) → (∀ r, p.work = .rand r → p.res ≠ []) →
      ∃ t w', exec (.longLatencyComplete w n) s = .next t ∧ t.warp w = some w' ∧
        w'.pend = x.w.pend.filter (·.id != n) ∧ w'.marks = x.w.marks ∧ w'.pc = x.w.pc ∧ w'.run = x.w.run ∧
        (v = true → (∀ r ∈ p.res, x.w.exited.getLsbD r.lane = false →
            w'.regs.getV d r.lane = r.val ∧ w'.regs.labV d r.lane = joinL r.lab x.w.wcl) ∧
          (∀ e l, l < 32 → ¬ (e = d ∧ l ∈ p.res.map (·.lane) ∧ x.w.exited.getLsbD l = false) →
            w'.regs.getV e l = x.w.regs.getV e l ∧ w'.regs.labV e l = x.w.regs.labV e l) ∧
          w'.regs.g = x.w.regs.g ∧ w'.regs.gl = x.w.regs.gl) ∧
        (v = false → (∀ r ∈ p.res, w'.regs.getG (d + r.lane) = r.val ∧
            w'.regs.labG (d + r.lane) = joinL r.lab x.w.wcl) ∧
          (∀ e, (∀ r ∈ p.res, e ≠ d + r.lane) → w'.regs.getG e = x.w.regs.getG e ∧ w'.regs.labG e = x.w.regs.labG e) ∧
          w'.regs.v = x.w.regs.v ∧ w'.regs.vl = x.w.regs.vl) ∧
        w'.regs.p = x.w.regs.p ∧ w'.regs.m = x.w.regs.m ∧ t.mem = s.mem ∧ OtherWarps s t w) ∧
    ((∃ p ∈ x.w.parked, p.woken = true ∧ p.lanes ≠ 0) → x.la.cancelled = false →
      ∃ t, exec (.parkWake w) s = .next t ∧
        t.warp w = some (evalRejoins { x.w with
          parked := x.w.parked.filter fun p => !(p.woken && decide (p.lanes ≠ 0)) }) ∧ OtherWarps s t w ∧
        t.mem = s.mem ∧ t.cores = s.cores ∧ t.hub = s.hub) ∧
    (∀ l p, x.w.wait = .bar l p → p < barPhase x.la (x.lr.unitOf x.blk.b l) l x.blk.rep → x.la.cancelled = false →
      ∃ t w', exec (.barrierWaitEnd w) s = .next t ∧ t.warp w = some w' ∧ w'.wait = .none ∧ kget w'.arrived l = none ∧
        (∀ m, m ≠ l → kget w'.arrived m = kget x.w.arrived m) ∧
        { w' with wait := x.w.wait, arrived := x.w.arrived } = x.w ∧
        (∀ g, kget (t.core x.core).snapshot g =
          if l = x.lr.top ∨ inScope x.core (x.lr.scope l) (g * 64) = true then none else kget (s.core x.core).snapshot g) ∧
        OtherWarps s t w ∧ t.mem = s.mem ∧ t.hub = s.hub) ∧
    (∀ ga pa target cap r, x.w.wait = .seq ga pa target cap → x.w.run = some r → x.replicated = false →
      x.la.cancelled = false →
      let word := readNum s.mem.gal pa 8
      (target ≤ word % 2 ^ 48 →
        ∃ t w', exec (.waitseqObserve w) s = .next t ∧ t.warp w = some w' ∧ w'.wait = .none ∧ w'.run = none ∧
          w'.regs = x.w.regs ∧ (t.core x.core).snapshot = [] ∧ OtherWarps s t w ∧ t.mem = s.mem) ∧
      (word % 2 ^ 48 < target → word / 2 ^ 56 ≠ 0 →
        ∃ t w' tr, exec (.waitseqObserve w) s = .next t ∧ t.warp w = some w' ∧ w'.trap = some tr ∧ w'.status = .trapped ∧
          tr.point = 0 ∧ tr.pc = r.pos ∧ tr.addr = BitVec.ofNat 64 ga ∧
          tr.code = (if word / 2 ^ 56 = 0x12 then 0x05 else if word / 2 ^ 56 = 0x15 then 0x0D
            else if word / 2 ^ 56 = 0x17 then 0x07 else 0x0C) ∧ w'.regs = x.w.regs ∧ t.mem = s.mem))

/-- R27, R147, R153, R184, R242 to R247, R326: barrier arrivals and waits, and how waits and operations end. -/
def Obligations.BarriersAndCompletions : Prop :=
  Sys2Proof.Machine.Claim.BarrierInstructions ∧ Sys2Proof.Machine.Claim.CompletionSteps

/-- R116, R117, R213, R231, R232, R234, R244, R245: an issued atomic whose granules are whole and still dominate is
performed lane by lane at the home banks: each location gets the new value that R234 gives from the one it had; the
old value, with the join of the granule's label and WCL, is the result of ATOMR; no register changes yet. -/
def Sys2Proof.Machine.Claim.AtomicPerformed : Prop :=
  ∀ (w n : Nat) (s : State) (x : Ctx) (p : Pend) (ret : Option Nat) (op size : Nat) (ls : List LaneOp),
    dev s w = some x → findPend x.w n = some p → p.work = .atomic ret op size ls → p.stage = 0 →
    op ≤ 12 → (op ≤ 10 → size = 4 ∨ size = 8) → (11 ≤ op → size = 64) → Alive x → earlierAtomic x.w x.core n ls = false →
    (∀ l ∈ ls, granDamaged s l.pa = false ∧ dominates (granLabel s.mem l.pa) l.lab = true ∧ l.pa % size = 0 ∧
      (op ≤ 10 → l.v.toNat < 2 ^ (8 * size) ∧ l.n.toNat < 2 ^ (8 * size))) →
    ∃ (t : State) (f : Nat → LaneOp → Nat), exec (.atomicPerform w n) s = .next t ∧
      (∀ old l, l ∈ ls → old < 2 ^ (8 * size) → (op ≤ 10 → newNumber op (8 * size) old l.v.toNat l.n.toNat (f old l)) ∧
        (op = 11 → cellAdds old l.v.toNat (f old l)) ∧ (op = 12 → f old l = 0)) ∧
      t.mem.gal = ls.foldl (fun m l => writeBytes m l.pa (toBytes size (f (readNum m l.pa size) l))) s.mem.gal ∧
      t.mem.glab = s.mem.glab ∧ t.mem.dram = s.mem.dram ∧ RegsSame s t ∧
      (∀ l ∈ ls, kget (t.core x.core).snapshot (l.pa / 64) = none) ∧
      (ret = none → ∃ w', t.warp w = some w' ∧ findPend w' n = none) ∧
      (∀ reg l, ret = some reg → ls = [l] →
        ∃ w' q, t.warp w = some w' ∧ findPend w' n = some q ∧ q.stage = 1 ∧ q.flag = p.flag ∧
          q.res = [⟨l.lane, BitVec.ofNat 64 (readNum s.mem.gal l.pa size), joinL (granLabel s.mem l.pa) x.w.wcl, false⟩])

/-- R116, R117, R227 to R236: atomics at their issue, and their performance at the home bank. -/
def Obligations.Atomics : Prop := Sys2Proof.Machine.Claim.AtomicsIssue ∧ Sys2Proof.Machine.Claim.AtomicPerformed

/-- R193, R237 to R239, R249: the first waiting push that R238 admits writes its word to slot PUT, which becomes full,
and completes; a waiting pop takes slot TAKE when it is full and acquires; the .T forms are answered when they cannot.
-/
def Sys2Proof.Machine.Claim.RingSteps : Prop :=
  ∀ (w n : Nat) (s : State) (x : Ctx) (p : Pend) (l : LaneOp) (r : Ring), dev s w = some x → findPend x.w n = some p →
    p.stage = 0 → x.replicated = false → Alive x → x.w.status ≠ .preempted → kget s.rings l.pa = some r →
    let me := x.producer
    let mine := (r.owner.filter (·.2 == me)).length
    let admitted := r.slots.length < r.count ∧ mine < r.allow ∧ (0 < mine ∨ (r.owner.map (·.2)).dedup.length < 8)
    let same := fun (t : State) => RegsSame s t ∧ t.mem.glab = s.mem.glab ∧ t.mem.dram = s.mem.dram
    (∀ ret, p.work = .push ret l → r.waiting.head? = some (w, n) →
      (admitted → (r.basePa + r.put * 2 ^ r.lsize) / 64 ≠ l.pa / 64 →
        ∃ t w' r', exec (.ringPushAdmit w n) s = .next t ∧ t.warp w = some w' ∧ kget t.rings l.pa = some r' ∧
          t.mem.gal = writeBytes s.mem.gal (r.basePa + r.put * 2 ^ r.lsize) (toBytes 8 l.v.toNat) ∧
          kget r'.slots r.put = some 2 ∧ (∀ k, k ≠ r.put → kget r'.slots k = kget r.slots k) ∧
          kget r'.owner r.put = some me ∧ r'.put = (r.put + 1) % r.count ∧ r'.take = r.take ∧ r'.taken = r.taken ∧
          r'.waiting = r.waiting.filter (· != (w, n)) ∧ (ret = none → findPend w' n = none) ∧
          (∀ d, ret = some d →
            findPend w' n = some { p with res := [⟨0, 1, joinL r.lab l.lab, false⟩], stage := 1 }) ∧ same t) ∧
      (¬ admitted → ret = none → exec (.ringPushAdmit w n) s = .next s) ∧
      (∀ d, ¬ admitted → ret = some d → ∃ t w', exec (.ringPushAdmit w n) s = .next t ∧ t.warp w = some w' ∧
        findPend w' n = some { p with res := [⟨0, 0, joinL r.lab l.lab, false⟩], stage := 1 } ∧ t.mem = s.mem ∧ same t)) ∧
    (∀ d tf, p.work = .pop d tf l → earlierPop x.w n l.pa = false → slotAtomic s x n l = false →
      let lab := joinL r.lab l.lab
      (kget r.slots r.take = some 2 → granDamaged s (r.basePa + r.take * 2 ^ r.lsize) = false →
        let v := if r.kind = 0 then readNum s.mem.gal (r.basePa + r.take * 2 ^ r.lsize) 8 else r.base + r.take * 2 ^ r.lsize
        ∃ t w' r', exec (.ringPopTake w n) s = .next t ∧ t.warp w = some w' ∧ kget t.rings l.pa = some r' ∧
          findPend w' n = some { p with
            res := ⟨0, BitVec.ofNat 64 v, lab, false⟩ :: (if tf then [⟨1, 1, lab, false⟩] else []), stage := 1 } ∧
          kget r'.slots r.take = (if r.kind = 0 then none else some 3) ∧ r'.take = (r.take + 1) % r.count ∧
          r'.taken = r.taken + 1 ∧ r'.put = r.put ∧ (t.core x.core).snapshot = [] ∧ t.mem = s.mem ∧ same t) ∧
      (aget 0 r.slots r.take ≠ 2 → tf = false → exec (.ringPopTake w n) s = .next s) ∧
      (aget 0 r.slots r.take ≠ 2 → tf = true → ∃ t w', exec (.ringPopTake w n) s = .next t ∧ t.warp w = some w' ∧
        findPend w' n = some { p with res := [⟨0, 0, lab, false⟩, ⟨1, 0, lab, false⟩], stage := 1 } ∧ t.mem = s.mem ∧
        t.rings = s.rings ∧ same t))

/-- R237 to R241: the ring instructions, and the admission of pushes and pops. -/
def Obligations.Rings : Prop := Sys2Proof.Machine.Claim.RingInstructions ∧ Sys2Proof.Machine.Claim.RingSteps

namespace Sys2Proof.Machine.Claim

/-! ## Device steps: launches (R55 to R67, R365 to R368) -/

/-- A queue's registers. -/
def hubQueue (s : State) (q : Nat) : Queue := aget Queue.zero s.hub.queues q

/-- Only one queue of the hub's queues changes. -/
def OnlyQueue (s t : State) (q : Nat) : Prop := ∀ k, k ≠ q → hubQueue t k = hubQueue s k

/-- A launch's record stands in a slot of its queue: it has not completed, and HEAD has not passed the slot (R55). -/
abbrev InSlot (u : Queue) (la : Launch) : Prop :=
  la.completed = none ∧ ∃ k, la.slot = some k ∧ u.head ≤ k ∧ k ∉ u.consumed

/-- Which core holds block `i` of a gang whose lead cores are `cores`, in replica `k` (R9, R332). -/
def placeOf (cores : List Nat) (i k : Nat) : Option Nat :=
  (cores[i]?).map fun c => (c / 160 ^^^ k) * 160 + c % 160

/-- No chain of some has a delivery into a ring slot that has begun. -/
abbrev NoDelivery (s : State) (mine : Chain → Prop) : Prop :=
  ∀ p ∈ s.chains, mine p.2 → p.2.entries.all (fun e => !e.filling) = true

/-- The lines that staging reads for a block: DRAM address and window offset (R54, R61). -/
def stagedLines (la : Launch) (b : Nat) : List (Nat × Nat) :=
  (la.record.used.filter fun g => regDir g % 2 == 1).flatMap fun g =>
    (List.range (regLen g)).map fun i => (regBase g + 64 * regStride g * b + 64 * i, regOff g + 64 * i)

/-- Staging's line lies in the window, translates, and PRIN0 may read its page (R61, R220). -/
abbrev LineOk (s : State) (la : Launch) (p : Nat × Nat) : Prop :=
  p.2 % 64 = 0 ∧ p.2 + 64 ≤ 4096 * la.record.win ∧ (translate s la.asid p.1).isSome = true

/-- A line that PRIN0 may not read by its page's ACL (R61, R221). -/
def lineDenied (s : State) (la : Launch) (p : Nat × Nat) : Bool :=
  (translate s la.asid p.1).any fun q => !aclAllows s la.asid (nth 0 la.record.prins 0 % 2 ^ 24) q.2.tag

end Sys2Proof.Machine.Claim

/-- R55, R56, R59, R60, R72: a doorbell carries TAIL; the driver's write gives a queue its fields, and enabling it clears it
and discards the records in its slots; the next record of a queue gets its verdict, an accepted one waiting and a refused one
complete at once; a head whose dependences are met is eligible; a waiting LAUNCH's record is copied into slot TAIL and its
verdict stands as its result, but for one whose warp was stopped for a pre-emption.  That the placed blocks of a discarded record run on is the model's choice (log entry 13). -/
def Obligations.QueueSteps : Prop :=
  ∀ (n : Nat) (v ring ctl : Word) (cm : BitVec 640) (s : State), n < 4096 →
    let u := hubQueue s n
    (u.devq = false → u.head ≤ v.toNat → v.toNat ≤ u.head + 2 ^ u.logn → ∃ t, exec (.doorbellWrite n v) s = .next t ∧
      hubQueue t n = { u with tail := max u.tail v.toNat } ∧ OnlyQueue s t n ∧ t.mem = s.mem ∧ t.launches = s.launches ∧
      t.warps = s.warps) ∧
    (u.devq = true → ∃ t, exec (.doorbellWrite n v) s = .next t ∧ hubQueue t n = { u with dbdrop := true } ∧ OnlyQueue s t n ∧
      t.mem = s.mem ∧ t.launches = s.launches) ∧
    (u.devq = false → v.toNat < u.head ∨ u.head + 2 ^ u.logn < v.toNat → ∃ t, exec (.doorbellWrite n v) s = .next t ∧
      hubQueue t n = { u with ovf := true } ∧ OnlyQueue s t n ∧ t.mem = s.mem ∧ t.launches = s.launches) ∧
    (let written : Queue := { u with
        ring := ring, devq := ctl.getLsbD 33, en := ctl.getLsbD 32, asid := (ctl.extractLsb' 19 13).toNat
        prio := (ctl.extractLsb' 16 3).toNat, logn := (ctl.extractLsb' 0 16).toNat, coreMask := cm }
      ∃ t, exec (.queueEnableWrite n ring ctl cm) s = .next t ∧ OnlyQueue s t n ∧ t.mem = s.mem ∧ t.warps = s.warps ∧
        (u.en = true ∨ ctl.getLsbD 32 = false → hubQueue t n = written ∧ t.launches = s.launches) ∧
        (u.en = false → ctl.getLsbD 32 = true →
          hubQueue t n =
            { written with head := 0, tail := 0, seen := 0, dbdrop := false, ovf := false, consumed := [] } ∧
          ∀ p, p ∈ t.launches ↔ ∃ q ∈ s.launches, p.1 = q.1 ∧
            ((q.2.queue ≠ n ∧ p.2 = q.2) ∨
              (q.2.queue = n ∧ ¬ InSlot u q.2 ∧ p.2 = { q.2 with slot := none }) ∨
              (q.2.queue = n ∧ InSlot u q.2 ∧ q.2.gangs ≠ [] ∧ p.2 = { q.2 with queue := 4096, slot := none })))) ∧
    (s.hub.hubctl.getLsbD 0 = true → u.ovf = false → u.devq = false → u.seen < u.tail →
      let bs := (readVa s u.asid (u.ring.toNat + 512 * (u.seen % 2 ^ u.logn)) 512).getD (List.replicate 512 0)
      let d := verdict s none n bs
      ∃ t la, exec (.enqueueVerdict n) s = .next t ∧ kget t.launches s.nextLaunch = some la ∧
        t.nextLaunch = s.nextLaunch + 1 ∧ la.record = recordFields bs ∧ la.queue = n ∧ la.slot = some u.seen ∧
        la.asid = u.asid ∧ la.cwordAsid = u.asid ∧ (hubQueue t n).seen = u.seen + 1 ∧ (d = (0, 0) → la.completed = none ∧ t.mem = s.mem) ∧
        (d ≠ (0, 0) → la.completed = some d) ∧ (∀ k, k ≠ s.nextLaunch → kget t.launches k = kget s.launches k) ∧
        t.warps = s.warps ∧ t.mem.gal = s.mem.gal) ∧
    (∀ l la, s.hub.hubctl.getLsbD 0 = true → u.ovf = false → headOf s n = some (l, la) → s.launchOf l = some la →
      la.eligible = false → la.cancelled = false →
      ((∀ d ∈ la.record.deps, d.1 = 0 ∨ d.1.toNat % 8 = 0 ∧ ∃ m, readVaNum s la.asid d.1.toNat 8 = some m ∧ d.2.toNat ≤ m) →
        ∃ t, exec (.launchEligible n) s = .next t ∧ t.launchOf l = some { la with eligible := true } ∧ t.mem = s.mem ∧
          (∀ k, k ≠ l → t.launchOf k = s.launchOf k) ∧ t.hub = s.hub) ∧
      ((∃ d ∈ la.record.deps, d.1 ≠ 0 ∧ (d.1.toNat % 8 ≠ 0 ∨ readVaNum s la.asid d.1.toNat 8 = none)) →
        ∃ t, exec (.launchEligible n) s = .next t ∧ t.launchOf l = some { la with completed := some (4, 0x88) })) ∧
    (∀ w k x p d bs lab rest, dev s w = some x → findPend x.w k = some p → p.work = .launch d n bs lab → x.replicated = false →
      kget s.launches s.nextLaunch = none → u.waiting = (w, k) :: rest → u.tail - u.head < 2 ^ u.logn → s.hub.hubctl.getLsbD 0 = true →
      (x.w.status = .preempted → exec (.launchRecordCopy w k) s = .next s) ∧
      (x.w.status ≠ .preempted →
      let c := verdict s (some x.asid) n bs
      ∃ t w' la, exec (.launchRecordCopy w k) s = .next t ∧ t.warp w = some w' ∧
        findPend w' k = some { p with res := [⟨0, BitVec.ofNat 64 (c.2 * 256 + c.1), lab, false⟩], stage := 1 } ∧
        (hubQueue t n).tail = u.tail + 1 ∧ (hubQueue t n).waiting = rest ∧ kget t.launches s.nextLaunch = some la ∧
        la.record = recordFields bs ∧ la.slot = some u.tail ∧ RegsSame s t ∧
        la.cwordAsid = (if c = (4, 0x85) then x.asid else u.asid) ∧ (c ≠ (0, 0) → la.completed = some c) ∧
        (c = (0, 0) → la.completed = none ∧
          t.mem = (writeVa s u.asid (u.ring.toNat + 512 * (u.tail % 2 ^ u.logn)) bs).mem)))

/-- R57, R58, R61, R62, R332, R333, R392: a launch that waits at its queue's head is placed on cores that suit it, one gang, or
with COSIDE all at once, when no launch before it could use them, and its capability snapshot is taken with its first block; a
placed gang is staged, each line with its page's label, a denied one zero and public with a sump record, and the rest of the window
zero and public, and its warps start with R62's state.  That a launch before it which cannot be placed yet does not hold a core
is the model's choice (log entry 25). -/
def Sys2Proof.Machine.Claim.PlacementStepsPart : Prop :=
  ∀ (l : Nat) (s : State) (la : Launch), s.launchOf l = some la →
    let r := la.record
    (∀ cores : List Nat, s.hub.hubctl.getLsbD 0 = true → waitsCores s la = true → (headOf s la.queue).map (·.1) = some l →
      coresSuit s la cores = true → nobodyBefore s la cores = true → 1 ≤ r.gangBlocks →
      let n := if r.coside then r.blocks / r.gangBlocks else 1
      ∃ t la', exec (.blockPlace l cores) s = .next t ∧ t.launchOf l = some la' ∧ la'.placed = la.placed + n ∧
        la'.record = r ∧ la'.caps = (if la.placed = 0 then capNow s else la.caps) ∧
        (∀ j, j < n → ∃ g, kget la'.gangs (la.placed + j) = some g ∧ g.live = List.range r.repl ∧ g.commit = 0 ∧
          g.staged = false ∧ g.gen = (s.partOf (s.asidOf la.asid).part).gen ∧
          ∀ k i, k < r.repl → i < r.gangBlocks → ∃ c, placeOf cores (j * r.gangBlocks + i) k = some c ∧
            (nth [] g.cores k)[i]? = some c ∧ (t.core c).block = some ⟨l, (la.placed + j) * r.gangBlocks + i, k, false⟩) ∧
        (∀ c, (∀ k i, k < r.repl → i < n * r.gangBlocks → placeOf cores i k ≠ some c) → t.core c = s.core c) ∧
        t.warps = s.warps ∧ t.mem = s.mem) ∧
    (∀ gi g, kget la.gangs gi = some g → g.staged = false → g.ended = false → g.failed = false → la.stagingFault = false →
      la.cancelled = false → g.kill = none → gangHere s l la gi g = true → (s.partOf (s.asidOf la.asid).part).state < 2 →
      r.win ≤ 256 → lvlCount (r.level 2) ≤ 32 → g.cores.flatten.Nodup →
      g.live.Nodup → (∀ k ∈ g.live, (nth [] g.cores k).length = r.gangBlocks) →
      (∀ p ∈ s.chains, p.1 / 2 ^ 20 ∉ g.cores.flatten) →
      let lines := (List.range r.gangBlocks).flatMap fun i => stagedLines la (gi * r.gangBlocks + i)
      (∀ p ∈ lines, LineOk s la p) →
      ∃ t la' g', exec (.windowStaging l gi) s = .next t ∧ t.launchOf l = some la' ∧ kget la'.gangs gi = some g' ∧
        g'.staged = true ∧ la'.stagingFault = false ∧ t.hub.hseq = s.hub.hseq + lines.countP (lineDenied s la) ∧
        ((∀ p ∈ lines, lineDenied s la p = false) → t.mem.dram = s.mem.dram) ∧
        ∀ k ∈ g.live, ∀ i, i < r.gangBlocks → ∃ c, (nth [] g.cores k)[i]? = some c ∧ (t.core c).snapshot = [] ∧
          (∀ w, w < lvlCount (r.level 2) →
            t.warp (c * 32 + slotOfWarp w) = some (startWarp la (gi * r.gangBlocks + i) k w)) ∧
          (∀ o, o < 4096 * r.win → (∀ p ∈ stagedLines la (gi * r.gangBlocks + i), p.2 ≠ o / 64 * 64) →
            readByte t.mem.gal (c * 2 ^ 20 + o) = 0 ∧ granLabel t.mem (c * 2 ^ 20 + o) = []) ∧
          (∀ p q, stagedLines la (gi * r.gangBlocks + i) = p → ∀ e ∈ p, (∀ f ∈ p, f.2 = e.2 → f = e) →
            translate s la.asid e.1 = some q →
              ((∀ p ∈ lines, lineDenied s la p = false) →
                readBytes t.mem.gal (c * 2 ^ 20 + e.2) 64 = dramBytes s q.1 64 ∧
                granDamaged t (c * 2 ^ 20 + e.2) = contained s q.1 ∧
                granLabel t.mem (c * 2 ^ 20 + e.2) = tagLabel s la.asid q.2.tag) ∧
              (lineDenied s la e = true → (∀ o, o < 64 → readByte t.mem.gal (c * 2 ^ 20 + e.2 + o) = 0) ∧
                granDamaged t (c * 2 ^ 20 + e.2) = false ∧ granLabel t.mem (c * 2 ^ 20 + e.2) = [])))

/-- R62: the state of a warp at its first instruction: G0 the window's base, G1 the argument, G62 and G63 the top of
its stack, SLIM its limit, every other register zero and public, WCL the launch's label, the lanes beyond LANES
exited. -/
def Sys2Proof.Machine.Claim.FirstInstruction : Prop :=
  ∀ (la : Launch) (b k w : Nat),
    let r := la.record
    let u := startWarp la b k w
    let q := u.regs
    let g0 := if r.clustered then r.lvl b 2 * 2 ^ 20 else 0
    let top := BitVec.ofNat 64 (g0 + 4096 * r.win - 16 * r.stk * w)
    q.getG 0 = BitVec.ofNat 64 g0 ∧ q.getG 1 = r.arg ∧ q.labG 1 = la.label ∧ q.getG 62 = top ∧ q.getG 63 = top ∧
      u.slim = BitVec.ofNat 64 (g0 + 4096 * r.win - 16 * r.stk * w - 16 * r.stk) ∧
      u.wcl = la.label ∧ (∀ k, k ≠ 0 → k ≠ 1 → k ≠ 62 → k ≠ 63 → q.getG k = 0) ∧
      (∀ k, k ≠ 1 → q.labG k = []) ∧ (∀ k l, q.getV k l = 0 ∧ q.labV k l = []) ∧
      (∀ k l, l < 32 → k ≠ 7 → (q.getP k).getLsbD l = false ∧ q.labP k l = []) ∧ (∀ k, q.getM k = 0 ∧ q.labM k = []) ∧
      (∀ l, l < 32 → u.pcOf l = r.entry ∧ (r.lanes ≤ 32 → (u.exited.getLsbD l = true ↔ r.lanes ≤ l))) ∧
      u.handler = none ∧ u.phase = [] ∧ u.pend = [] ∧ u.arrived = [] ∧ u.j = [] ∧ u.lc = []

/-- R57, R58, R61, R62, R332, R333: placement, of one gang or with COSIDE of all, staging, and the state at a warp's first
instruction.  That a launch before it which cannot be placed yet does not hold a core is the model's choice (log entry 25). -/
def Obligations.PlacementSteps : Prop :=
  Sys2Proof.Machine.Claim.PlacementStepsPart ∧ Sys2Proof.Machine.Claim.FirstInstruction

namespace Sys2Proof.Machine.Claim

/-- No bound chain's and no armed ring's descriptor lies in a granule. -/
abbrev NoneBoundAt (s : State) (pa : Nat) : Prop := kget s.chains (pa / 64 * 64) = none ∧ kget s.rings (pa / 64 * 64) = none

/-- Where the status of an entry of the chain at `ch` goes, at an address that the block may write, and its completion word, in
the descriptor's slice (R299). -/
abbrev StatusAt (s : State) (ch : Nat) (e : Entry) (c : Chain) (x : Ctx) (pe pc : Nat) : Prop :=
  galPa x s (e.ga + 0x30) 16 true = some pe ∧ c.cwordPa ch = pc ∧ pe / 64 ≠ pc / 64 ∧
    pe % 64 = 0x30 ∧ pc % 8 = 0 ∧ NoneBoundAt s pe ∧ NoneBoundAt s pc

end Sys2Proof.Machine.Claim

/-- R63, R65 to R67, R308, R348, R366, R368: a block whose warps have done retires; with its gang's last one the regions of all
its blocks are written back and its cores are free, and nothing is before; a gang that is over leaves them at rest, and an
outstanding entry of a cancelled one ends with CANCEL; a killed gang that has not published starts again; a launch of which
nothing runs completes with the status of R366 and its completion word.  That a gang of several blocks is written back at its end follows from R67 (log entry 25). -/
def Obligations.RetirementSteps : Prop :=
  ∀ (l b : Nat) (s : State) (la : Launch) (g : Gang), s.launchOf l = some la →
    let r := la.record
    let gi := b / r.gangBlocks
    let noDelivery := NoDelivery s fun q => gangChain l la gi q = true
    (kget la.gangs gi = some g → g.ended = false → gangOver la g = false → g.kill = none → g.echoFail = none → g.stop = [] →
      g.staged = true → b ∉ g.done → blockDone s l la g b = true → (∀ p ∈ liveWarps s la g b, p.2.marks = []) → noDelivery →
      (g.done.length + 1 ≠ r.gangBlocks →
        ∃ t la' g', exec (.blockRetire l b) s = .next t ∧ t.launchOf l = some la' ∧ kget la'.gangs gi = some g' ∧
          g' = { g with done := g'.done } ∧ (∀ k, k ∈ g'.done ↔ k = b ∨ k ∈ g.done) ∧ t.mem = s.mem ∧ t.warps = s.warps ∧
          (∀ c, { t.core c with shadow := (s.core c).shadow } = s.core c) ∧
          (∀ p, p ∈ t.chains ↔ p ∈ s.chains ∧ ¬ (p.2.launch = l ∧ p.2.b = b)) ∧
          ∀ c ∈ t.contexts, ∀ p ∈ c.chains, ¬ (p.2.launch = l ∧ p.2.b = b)) ∧
      (g.done.length + 1 = r.gangBlocks → g.live.length < 2 → gangHere s l la gi g = true →
        (∀ p ∈ s.warps, p.1 / 32 ∈ g.cores.flatten → p.2.status ≠ .trapped) →
        ∃ t la' g', exec (.blockRetire l b) s = .next t ∧ t.launchOf l = some la' ∧ kget la'.gangs gi = some g' ∧
          g'.ended = true ∧ (∀ k, k ∈ g'.done ↔ k = b ∨ k ∈ g.done) ∧ t.mem.gal = s.mem.gal ∧
          t.mem.dram = (writeBackAll la g s ((List.range r.gangBlocks).map (gi * r.gangBlocks + ·))).1.mem.dram ∧
          ∀ c ∈ hereCores s l la gi g, (t.core c).block = none ∧ ∀ k, k / 32 = c → t.warp k = none)) ∧
    (kget la.gangs gi = some g → g.ended = false → gangOver la g = true → gangAtRest s l la gi g = true → noDelivery →
      ∃ t la' g', exec (.blockRetire l b) s = .next t ∧ t.launchOf l = some la' ∧ kget la'.gangs gi = some g' ∧
        g' = { g with ended := true, published := g'.published } ∧ t.mem.dram = s.mem.dram ∧
        (la.cancelled = false → g'.published = g.published ∧ t.mem = s.mem) ∧
        (∀ c ∈ hereCores s l la gi g, (t.core c).block = none ∧ ∀ k, k / 32 = c → t.warp k = none) ∧
        (∀ p ∈ t.chains, gangChain l la gi p.2 = false) ∧
        ∀ ch c e x pe pc, la.cancelled = true → s.chains.filter (fun p => gangChain l la gi p.2) = [(ch, c)] → kget s.chains ch = some c →
          c.halt = 0 → c.entries = [e] → e.code = 0 → e.ga < 2 ^ 52 → commitCtx s c.launch c.b = some x → x.replicated = false →
          commitCtx s e.sub.launch e.sub.b = some x → StatusAt s ch e c x pe pc →
          readNum t.mem.gal pc 8 = 0x19 * 2 ^ 56 + c.seq % 2 ^ 48 ∧ readNum t.mem.gal pe 8 = e.ga ∧
          readNum t.mem.gal (pe + 8) 8 = 0x19 * 2 ^ 56 + min e.denied 0xFFFFFF * 2 ^ 32 + e.chunks % 2 ^ 32) ∧
    (∀ gj, kget la.gangs gj = some g → g.ended = false → la.cancelled = false → (g.kill ≠ none ∨ g.echoFail ≠ none) →
      g.published = false → g.relaunched = false → gangAtRest s l la gj g = true → gangHere s l la gj g = true →
      (s.partOf (s.asidOf la.asid).part).state < 2 →
      ∃ t la' g', exec (.gangRelaunch l gj) s = .next t ∧ t.launchOf l = some la' ∧ kget la'.gangs gj = some g' ∧
        g'.relaunched = true ∧ g'.kill = none ∧ g'.echoFail = none ∧ g'.stop = [] ∧ g'.done = [] ∧ g'.cores = g.cores ∧
        g'.live = g.live ∧ g'.echoPast = g.echoFail) ∧
    (launchOver la = true → la.queue < 4096 →
      let st := launchStatus la
      let va := la.record.cword.toNat
      let v := la.record.cseq * 65536 + st.2 * 256 + st.1
      ∃ t la', exec (.launchComplete l) s = .next t ∧ t.launchOf l = some la' ∧ la' = { la with completed := some st } ∧
        t.warps = s.warps ∧ t.mem.gal = s.mem.gal ∧
        (∀ old, va % 8 = 0 → writableVa s la.cwordAsid va = true → readVaNum s la.cwordAsid va 8 = some old → old < v →
          v < 2 ^ 64 → s.hub.migrations = [] → (∀ p, translate s la.cwordAsid va = some p → contained s p.1 = false) →
          readVaNum t la.cwordAsid va 8 = some v) ∧
        (∀ old, va % 8 = 0 → writableVa s la.cwordAsid va = true → readVaNum s la.cwordAsid va 8 = some old → v ≤ old →
          t.mem = s.mem))

namespace Sys2Proof.Machine.Claim

/-! ## Device steps: the monitor and pre-emption (R359 to R382) -/

/-- A notice reaches the supervisor (R374). -/
def Notified (s t : State) (kind : Nat) : Prop := ∃ n, t.hub.notices = s.hub.notices ++ [n] ∧ n.kind = kind

/-- The first word of a trap frame (R360). -/
def frameZ (tr : Trap) : Nat :=
  tr.mask.toNat * 2 ^ 32 + tr.rword * 2 ^ 24 + (match tr.rule with
    | some r => r * 2 ^ 16 + 2 ^ 15
    | none => 0) + tr.point * 2 ^ 10 + tr.code

/-- A place of a core holds a damaged word from now on (R369). -/
def DamagedPlace (t : State) (c : Nat) : Store → Prop
  | .v slot r l => ∀ w, t.warp (c * 32 + slot) = some w → dmgKeyV r l ∈ w.regs.dmg
  | .g slot r => ∀ w, t.warp (c * 32 + slot) = some w → dmgKeyG r ∈ w.regs.dmg
  | .p slot r => ∀ w, t.warp (c * 32 + slot) = some w → dmgKeyP r ∈ w.regs.dmg
  | .m slot r => ∀ w, t.warp (c * 32 + slot) = some w → dmgKeyM r ∈ w.regs.dmg
  | .tile k e => ∀ T, kget (t.core c).tiles k = some T → e ∈ T.dmg
  | .granule n => granDamaged t (c * 2 ^ 20 + n * 64) = true
  | .phase slot g => ∀ w, t.warp (c * 32 + slot) = some w → ∀ e ∈ w.phase, e.gran = g → e.dmg = true
  | .snap g => ∀ d, kget (t.core c).snapshot g = some d → d.dmg = true

/-- The trap frame stands in a warp's registers (R360, R362). -/
def FrameOf (tr : Trap) (w : Warp) : Prop :=
  aget 0 w.tfw 0 = BitVec.ofNat 64 (frameZ tr) ∧ aget 0 w.tfw 1 = tr.pc ∧ aget 0 w.tfw 2 = tr.hdr ∧
    aget 0 w.tfw 3 = tr.addr ∧ aget 0 w.tfw 4 = tr.aux ∧
    aget 0 w.tfw 7 = (if tr.point = 1 then 0 else tr.word.zeroExtend 64) ∧ w.tfl = tr.tfl

/-- The codes that a launch's handler may receive (R363). -/
abbrev handled (code : Nat) : Prop := code ≤ 0x0C ∨ code = 0x11 ∨ code = 0x12 ∨ code = 0x13

/-- A gang whose warps are to stop whatever they do (R65, R365, R367). -/
abbrev Ending (x : Ctx) : Prop :=
  x.la.cancelled = true ∨ x.gang.kill ≠ none ∨ x.gang.echoFail ≠ none ∨ kget x.gang.stop x.blk.rep ≠ none ∨
    x.blk.rep ∉ x.gang.live

end Sys2Proof.Machine.Claim

/-- R359, R360, R362 to R365, R370: the monitor serves a core's first trap notice: the frame is written; a trap the
launch handles is delivered to TRAPENT in handler mode with WCL raised by the frame's label; one that it does not
stops the gang; damage freezes the cluster. -/
def Obligations.TrapServed : Prop :=
  ∀ (c k : Nat) (rest : List Nat) (s : State) (x : Ctx) (tr : Trap), (s.core c).notices = k :: rest →
    nextNotice s c = some c → dev s k = some x → x.w.trap = some tr →
    ∃ t w', exec (.trapNotice c) s = .next t ∧ t.warp k = some w' ∧ FrameOf tr w' ∧ (t.core c).notices = rest ∧
      w'.regs = x.w.regs ∧ (NoDelivery s (fun q => gangChain x.blk.launch x.la x.gi q = true) → t.mem = s.mem) ∧
      (¬ Ending x → handled tr.code → x.lr.trapv = true → x.w.handler = none → tr.tfl.length ≤ 8 → x.w.live ≠ 0 →
        w'.handler = some ⟨tr.grp, x.w.wcl, false, tr.run, tr.resume, tr.rword, tr.again, []⟩ ∧
        IsJoin w'.wcl [x.w.wcl, tr.tfl] ∧
        w'.status = (if (s.core (k / 32)).frozen then .frozen else if x.w.request = .preempted then .preempted else .running) ∧
        w'.trap = none ∧ w'.overdue = 0 ∧
        (∀ l, l < 32 → w'.pcOf l = if (tr.grp &&& x.w.live).getLsbD l then x.lr.trapent else x.w.pcOf l) ∧
        OtherWarps s t k) ∧
      (¬ Ending x → tr.code ≠ 0x0D → tr.code < 0x0E ∨ 0x10 < tr.code →
        ¬ (handled tr.code ∧ x.lr.trapv = true ∧ x.w.handler = none ∧ tr.tfl.length ≤ 8 ∧ x.w.live ≠ 0) →
        w'.status = .stopped ∧ ∃ la g, t.launchOf x.blk.launch = some la ∧ kget la.gangs x.gi = some g ∧
          kget g.stop x.blk.rep = some ((x.blk.b % x.lr.gangBlocks * 32 + x.w.index) * 256 + tr.code)) ∧
      (tr.code = 0x0D → ∀ j, j / 4 = c / 4 → k / 128 = c / 4 → (t.core j).frozen = true)

/-- R368 to R371, R373: a frozen cluster's consumed damage kills its gang and the other warps go on, but for those of a core that
waits for a test; a failed self-test fences its core, as does a mismatch that no test explains; a corrected error is counted and
logged, and a word that cannot be corrected is damaged; a late transition is counted, and a second one stops the core for a test.
That a core whose test passes goes on, once its cluster is not frozen for damage, is the model's choice (log entry 15). -/
def Obligations.ContainmentSteps : Prop :=
  ∀ (c : Nat) (s : State), c < 640 →
    (∀ k w x tr, k = c / 4 → let cs := (List.range 4).map (4 * k + ·)
      ((s.warps.filter fun p => cs.contains (p.1 / 32)).filter (consuming s)).map (·.1) = [w] → (s.core c).frozen = true →
      (∀ p ∈ s.warps, p.1 / 32 ∈ cs → stoodStill s p = true) → dev s w = some x → x.w.trap = some tr →
      x.gang.live.length < 3 → x.blk.rep ∈ x.gang.live → x.gang.ended = false → x.gang.kill = none →
      NoDelivery s (fun q => gangChain x.blk.launch x.la x.gi q = true) →
      ∃ t la g w', exec (.damageSnapshot k) s = .next t ∧ t.launchOf x.blk.launch = some la ∧ kget la.gangs x.gi = some g ∧
        g.kill = some 0x0D ∧ t.warp w = some w' ∧ w'.status = .stopped ∧
        (∀ j ∈ cs, (t.core j).frozen = (awaitsTest s j && (s.core j).frozen)) ∧
        t.mem = s.mem) ∧
    (∀ ps f why failed, s.hub.tests = [⟨[c], ps, f, why⟩] → ∃ t, exec (.coreSelfTest c failed) s = .next t ∧
      t.hub.tests = [] ∧ (NoDelivery s (fun _ => True) → t.mem = s.mem) ∧ (failed = true → (t.core c).fenced = true) ∧
      (failed = false → why = 1 → f = false → ∀ k ∈ ps ++ [c], (t.core k).fenced = true) ∧
      (failed = false → why = 2 → (∀ k, (t.core k).fenced = (s.core k).fenced) ∧
        ((∀ p ∈ s.warps, p.1 / 128 = c / 4 → consuming s p = false) → (t.core c).frozen = false) ∧
        ((∃ p ∈ s.warps, p.1 / 128 = c / 4 ∧ consuming s p = true) → (t.core c).frozen = (s.core c).frozen)) ∧
      (failed = false → why = 0 → t.cores = s.cores ∧ t.warps = s.warps)) ∧
    (∀ loc, placeOk loc = true →
      (∃ t, exec (.eccCorrect c ⟨loc, false⟩) s = .next t ∧
        (t.core c).corrected.lookup loc = some (((s.core c).corrected.lookup loc).getD 0 + 1) ∧
        (∀ q, q ≠ loc → (t.core c).corrected.lookup q = (s.core c).corrected.lookup q) ∧
        { t.core c with corrected := (s.core c).corrected } = s.core c ∧ (∀ k, k ≠ c → t.core k = s.core k) ∧
        Notified s t 10 ∧ t.warps = s.warps ∧ t.mem = s.mem) ∧
      ∃ t, exec (.eccCorrect c ⟨loc, true⟩) s = .next t ∧ DamagedPlace t c loc ∧ t.mem = s.mem ∧ t.hub = s.hub ∧
        (∀ k, k ≠ c → t.core k = s.core k) ∧ ∀ k, k / 32 ≠ c → t.warp k = s.warp k) ∧
    (∃ t, exec (.lateTransitionReplay c false) s = .next t ∧ (t.core c).latec = (s.core c).latec + 1 ∧
      { t.core c with latec := (s.core c).latec } = s.core c ∧ (∀ k, k ≠ c → t.core k = s.core k) ∧ t.warps = s.warps ∧
      t.hub = s.hub ∧ t.mem = s.mem) ∧
    (∃ t, exec (.lateTransitionReplay c true) s = .next t ∧ (t.core c).latec = (s.core c).latec + 1 ∧
      (t.core c).frozen = true ∧ t.hub.tests = s.hub.tests ++ [⟨[c], [], false, 2⟩] ∧ RegsSame s t ∧ t.mem = s.mem ∧
      ∀ k w, k / 32 = c → s.warp k = some w → w.status = .running → w.live ≠ 0 →
        t.warp k = some { w with status := .frozen })

/-- R308, R324, R375 to R382, R396, R397, R410: a partition asked to stop is stopping, its quiescent warps stopped; a
stopped core's context leaves its planes, with what a safe point's descriptor names of its registers or all of them, and its
slice is empty; it reaches the save area; a saved partition asked to
resume loads each context where it stood, and one whose tag differs is not loaded. -/
def Obligations.PreemptionSteps : Prop :=
  ∀ (p : Nat) (s : State), p < 64 →
    let q := s.partOf p
    (q.state ≤ 1 → q.req = 0 →
      (partCores s p ≠ [] → ∃ t, exec (.preemptRequest p) s = .next t ∧ (t.partOf p).state = 2 ∧ (t.partOf p).req = 1 ∧
        (∀ k w, s.warp k = some w → k / 32 ∈ partCores s p → w.status = .running → w.live ≠ 0 → quiescent s k w = true →
          ∃ w', t.warp k = some w' ∧ w'.status = .preempted ∧ w'.regs = w.regs) ∧
        (∀ k w, s.warp k = some w → k / 32 ∈ partCores s p → w.status = .running → w.request = .running →
          quiescent s k w = false → ∃ w', t.warp k = some w' ∧ w'.status = .running ∧ w'.request = .preempted)) ∧
      (partCores s p = [] → partMoving s p = false → ∃ t, exec (.preemptRequest p) s = .next t ∧ (t.partOf p).state = 3 ∧
        (t.partOf p).req = 0)) ∧
    (q.state = 4 → ∃ t, exec (.preemptRequest p) s = .next t ∧ (t.partOf p).pend = true ∧ (t.partOf p).state = 4 ∧
      t.warps = s.warps ∧ t.mem = s.mem) ∧
    (q.state = 2 → q.req ≠ 0 → ∃ t, exec (.preemptRequest p) s = .next t ∧ t.partOf p = { q with rej := true } ∧
      t.warps = s.warps ∧ t.mem = s.mem) ∧
    (q.state = 3 → q.req = 0 → q.saved ≠ [] → ∃ t, exec (.resumeRequest p) s = .next t ∧
      t.partOf p = { q with state := 4, req := 2, rej := false } ∧ Notified s t 6 ∧ t.warps = s.warps ∧ t.mem = s.mem) ∧
    (q.state ≠ 3 ∨ q.req ≠ 0 → ∃ t, exec (.resumeRequest p) s = .next t ∧ t.partOf p = { q with rej := true } ∧
      t.warps = s.warps ∧ t.mem = s.mem) ∧
    (∀ c, partOn s c = some p → q.state = 2 → (∀ k ∈ s.warps, k.1 / 32 = c → k.2.window = []) → maySwap s p c = true →
      ∃ t x, exec (.coreSwap c) s = .next t ∧ (t.core c).shadow = some x ∧ (t.core c).moving = true ∧
        (t.core c).block = none ∧ (t.core c).snapshot = [] ∧ x.part = p ∧ x.block = (s.core c).block ∧
        x.tiles = (s.core c).tiles ∧ x.dmg = (s.core c).dmg ∧ x.sealedBy = none ∧
        (∀ a, a / 2 ^ 20 = c → readByte t.mem.gal a = 0 ∧ readByte x.gal a = readByte s.mem.gal a) ∧
        (∀ a, a / 2 ^ 20 ≠ c → readByte t.mem.gal a = readByte s.mem.gal a) ∧
        (∀ g, g * 64 / 2 ^ 20 = c → aget [] t.mem.glab g = [] ∧ aget [] x.glab g = aget [] s.mem.glab g) ∧
        (∀ k, k / 32 = c → t.warp k = none) ∧ (∀ k, k / 32 ≠ c → t.warp k = s.warp k) ∧
        (∀ k w, k / 32 = c → kget s.warps k = some w → ∃ w', kget x.warps k = some w' ∧ (w.atSafe = false → w'.regs = w.regs) ∧
          ∀ d, w.atSafe = true → w.status = .preempted → nextDesc s (k, w) = some d →
            (∀ r, r < (field d 18 7).toNat → w'.regs.getG r = w.regs.getG r ∧ w'.regs.labG r = w.regs.labG r) ∧
            (∀ r l, l < 32 → r < (field d 25 7).toNat →
              w'.regs.getV r l = w.regs.getV r l ∧ w'.regs.labV r l = w.regs.labV r l) ∧
            ∀ r l, l < 32 → r < 7 → d.getLsbD (10 + r) = true →
              w'.regs.getP r = w.regs.getP r ∧ w'.regs.labP r l = w.regs.labP r l) ∧
        t.mem.dram = s.mem.dram) ∧
    (∀ c x, (s.core c).shadow = some x → (s.core c).moving = true → x.part = p →
      let a := contextAsid s x
      let k := (s.asidOf a).key.isSome
      ∃ t, exec (.contextSaveMove c) s = .next t ∧ (t.core c).shadow = none ∧ (t.core c).moving = false ∧
        kget (t.partOf p).saved c = some { x with sealedBy := if k then some (s.asidOf a).saves else none } ∧
        (t.asidOf a).saves = (if k then ((s.asidOf a).saves + 1) % 2 ^ 64 else (s.asidOf a).saves) ∧
        t.warps = s.warps ∧ t.mem = s.mem) ∧
    (∀ c x ok, q.state = 4 → kget q.saved c = some x → (s.core c).block = none → (s.core c).shadow = none →
      (s.core c).fenced = false → stillSaving s c = false → s.hub.parcels = [] →
      ((x.sealedBy = none ∨ ok = true) → (x.gal.map (·.1)).Nodup → (x.glab.map (·.1)).Nodup →
        ∃ t, exec (.contextResumeLoad p c ok) s = .next t ∧ kget (t.partOf p).saved c = none ∧
          (t.core c).block = x.block ∧ (t.core c).tiles = x.tiles ∧ (t.core c).dmg = x.dmg ∧
          (∀ a v, kget x.gal a = some v → readByte t.mem.gal a = v) ∧
          (∀ g v, kget x.glab g = some v → aget [] t.mem.glab g = v) ∧ t.mem.dram = s.mem.dram) ∧
      (x.sealedBy ≠ none → ok = false → NoDelivery s (fun _ => True) → ∃ t, exec (.contextResumeLoad p c ok) s = .next t ∧
        kget (t.partOf p).saved c = none ∧ (t.core c).block = none ∧ t.mem = s.mem ∧
        ∃ n ∈ t.hub.notices, n.kind = 9))

namespace Sys2Proof.Machine.Claim

/-! ## Device steps: the matrix engine and held requests (R255, R258, R264 to R273, R283, R289, R290, R377) -/

/-- The exact values of row `r` of a K-step of an operand (R262, R266). -/
def operandRow (x : Ctx) (s : State) (d : Desc) (fmt k r : Nat) : List FVal :=
  rowValues fmt d.blk ((List.range 128).map fun i => (chunkRead x s d (chunkBytes fmt) k i).1) r

/-- No byte of an operand is damaged (R264). -/
abbrev SoundOperand (x : Ctx) (s : State) (d : Desc) (fmt : Nat) : Prop :=
  ∀ k r, k < d.ks → r < 128 → (chunkRead x s d (chunkBytes fmt) k r).2.any id = false

/-- The bytes of a chunk as they stand in memory. -/
def chunkStored (x : Ctx) (s t : State) (d : Desc) (nb k r : Nat) : List Byte :=
  (pieces d nb k r).flatMap fun p => readBytes t.mem.gal (piecePa x s true p) p.2

/-- The pieces of an operand lie in different bytes of the Gallery. -/
abbrev Apart (x : Ctx) (s : State) (d : Desc) (nb : Nat) : Prop :=
  disjointAll ((allPieces d nb).map fun p => (piecePa x s true p, p.2)) = true

/-- Some tile instructions of a warp have completed without a mark: their flags are clear, and no register changes. -/
def TilesEnd (t : State) (x : Ctx) (ps : List Pend) : Prop :=
  ∃ w', t.warp x.wk = some w' ∧ (∀ z ∈ w'.pend, z ∈ x.w.pend ∧ ∀ p ∈ ps, z.id ≠ p.id) ∧ w'.regs = x.w.regs

/-- Memory holds the bytes of some stores, and is as before elsewhere. -/
def GalleryGets (s t : State) (ws : List (Nat × List Byte)) : Prop :=
  (∀ a, readByte t.mem.gal a = (lastStore ws a).getD (readByte s.mem.gal a)) ∧ t.mem.glab = s.mem.glab ∧
    t.mem.dram = s.mem.dram

end Sys2Proof.Machine.Claim

/-- R255, R258, R264, R266 to R273, R289, R290: a waiting allocation binds the lowest free tile; the engine's next
instruction executes from its captured operands, TZERO, TMMA, TSCL and TLDA on their tile, TTRN and drains to the
Gallery; a rewritten group executes as one, and one that is stopped binds nothing and replays its originals. -/
def Obligations.TileSteps : Prop :=
  ∀ (c : Nat) (s : State),
    let k := s.core c
    (∀ w rest u n ns i, k.allocs = w :: rest → k.engine.find? (·.warp == w) = some u → unbound k u = n :: ns →
      freeTile k = some i →
      ∃ t, exec (.tileAllocate c) s = .next t ∧ kget (t.core c).tiles i = some (zeroedTile (w, n)) ∧
        (∀ j, j ≠ i → kget (t.core c).tiles j = kget k.tiles j) ∧
        (t.core c).allocs = (if ns = [] then rest else w :: rest) ∧ (t.core c).engine = k.engine ∧
        (∀ j, j ≠ c → t.core j = s.core j) ∧ t.warps = s.warps ∧ t.mem = s.mem) ∧
    (∀ q u p o x k', nextUnit k = some (q, u) → u.repl = [] → u.orig = [p] → u.failed = none → tileOf p = some o →
      o.lost = none → o.ext = [] → dev s u.warp = some x → u.warp / 32 = c → bindUnit k u = some k' → Alive x → x.replicated = false →
      (unbound k u = [] → k' = k) ∧
      (o.op = 1 → unbound k u = [o.acc] → ∀ i, freeTile k = some i →
        ∃ t, exec (.tileExecute c) s = .next t ∧ kget (t.core c).tiles i = some (zeroedTile (u.warp, o.acc)) ∧
          (∀ j, j ≠ i → kget (t.core c).tiles j = kget k.tiles j) ∧ (t.core c).engine = k.engine.erase u ∧
          TilesEnd t x [p] ∧ OtherWarps s t u.warp ∧ t.mem = s.mem) ∧
      ∀ i, tileIx k' u.warp o.acc = some i →
        let T := aget Tile.free k'.tiles i
        let done := fun (ok : Tile → Prop) => ∃ t T', exec (.tileExecute c) s = .next t ∧
          kget (t.core c).tiles i = some T' ∧ ok T' ∧ (∀ j, j ≠ i → kget (t.core c).tiles j = kget k'.tiles j) ∧
          (t.core c).engine = k'.engine.erase u ∧ TilesEnd t x [p] ∧ OtherWarps s t u.warp ∧ t.mem = s.mem
        (o.op = 1 → done fun T' => T' = zeroedTile (u.warp, o.acc)) ∧
        (o.op = 0 → T.dmg = [] → o.bandDmg = 0 → SoundOperand x s (descOf o.a) o.fmt →
          SoundOperand x s { descOf o.b with ks := (descOf o.a).ks } o.fmt →
          done fun T' => T'.int = (o.fmt == 5) ∧ T'.tset = true ∧ T'.bset = true ∧ T'.bands = o.bands ∧
            T'.dsc = T.dsc ∧ T'.owner = T.owner ∧
            ∀ m n, m < 128 → n < 128 → nth 0 T'.dense (128 * m + n) =
              (List.range (descOf o.a).ks).foldl (fun v j => addOnce (o.fmt == 5) v
                (kstepSum (operandRow x s (descOf o.a) o.fmt j m) (operandRow x s (descOf o.b) o.fmt j n)))
                (nth 0 T.dense (128 * m + n))) ∧
        (o.op = 3 → T.dmg = [] → done fun T' => { T' with elems := T.elems } = T ∧ T'.dense = T.dense.map fun v =>
          BitVec.ofNat 32 (encodeF fp32 .rn (mulV (decodeF fp32 v.toNat) (decodeF bf16 o.imm.toNat)))) ∧
        (o.op = 4 → (∀ j, j < 1024 → let pa := piecePa x s false (o.addr.toNat % 2 ^ 32 + 64 * j, 64)
            pa / 2 ^ 20 = c ∧ granDamaged s pa = false) →
          done fun T' => T'.int = o.addr.getLsbD 32 ∧ T'.tset = true ∧ T'.bset = true ∧
            ∀ j e, j < 1024 → e < 16 → nth 0 T'.dense (16 * j + e) = BitVec.ofNat 32
              (readNum s.mem.gal (piecePa x s false (o.addr.toNat % 2 ^ 32 + 64 * j, 64) + 4 * e) 4)) ∧
        (o.op = 5 ∨ o.op = 6 → o.blkDmg = false → (runTileOp x s o T).dmg = false → (runTileOp x s o T).writes ≠ [] →
          (∀ e ∈ x.w.phase, ∀ w ∈ (runTileOp x s o T).writes, e.gran ≠ w.1 / 64) →
          ∃ t, exec (.tileExecute c) s = .next t ∧ GalleryGets s t (runTileOp x s o T).writes ∧ TilesEnd t x [p] ∧
            (freesTile o = true → ∀ p ∈ (t.core c).tiles, p.2.owner ≠ some (u.warp, o.acc)) ∧
            (freesTile o = false → ∀ j, kget (t.core c).tiles j = kget k'.tiles j) ∧
            let d := outDesc o.blk
            let nb := outBytes (blkOfmt o)
            blkOfmt o < 8 → Apart x s d nb → ∀ m j, m < 128 → j < 2 →
              let bias := if blkBiasen o then biasOf x s o else []
              let half := ((drainRow o T ((T.dense.drop (128 * m)).take 128) bias m).drop (64 * j)).take 64
              (o.op = 5 → chunkStored x s t d nb j m = outChunk (blkOfmt o) half) ∧
              (o.op = 6 → nb = 256 → chunkStored x s t d nb j m = (addChunk x s d (blkOfmt o) j m half).1))) ∧
    (∀ q u p o x, nextUnit k = some (q, u) → u.repl = [] → u.orig = [p] → u.failed = none → tileOf p = some o → o.op = 2 →
      o.lost = none → o.ext = [] → dev s u.warp = some x → u.warp / 32 = c → x.replicated = false →
      let dd := descOf o.a
      let ds := descOf o.b
      let nb := chunkBytes o.fmt
      let ws := (runTileOp x s o Tile.free).writes
      o.fmt ≤ 4 → (runTileOp x s o Tile.free).dmg = false → (∀ e ∈ x.w.phase, ∀ w ∈ ws, e.gran ≠ w.1 / 64) →
      ∃ t, exec (.tileExecute c) s = .next t ∧ GalleryGets s t ws ∧ TilesEnd t x [p] ∧
        (Apart x s { dd with ks := 2 } nb → ∀ j r e, j < 2 → r < 128 → e < 64 →
          elemCode o.fmt (chunkStored x s t dd nb j r) e =
            elemCode o.fmt (chunkRead x s ds nb (r / 64) (64 * j + e)).1 (r % 64))) ∧
    (∀ q u x k', nextUnit k = some (q, u) → u.repl ≠ [] → dev s u.warp = some x → u.warp / 32 = c → bindUnit k u = some k' →
      x.replicated = false → (∀ o ∈ u.orig.filterMap tileOf, o.lost = none ∧ o.ext = []) →
      let s1 := takeUnit s c q u
      let s2 := s1.modCore c fun j => { j with tiles := k'.tiles }
      let held := heldNames k u.warp
      (∀ t1 ws, groupSteps x held s2 (unitOps u) = .ok (t1, ws) → (∀ e ∈ x.w.phase, ∀ w ∈ ws, e.gran ≠ w.1 / 64) →
        ∃ t, exec (.flowstoneGroupExecute c) s = .next t ∧ GalleryGets s t ws ∧ TilesEnd t x u.orig ∧
          (Alive x → (∀ o ∈ unitOps u, freesTile o = false) → (t.core c).tiles = (t1.core c).tiles)) ∧
      (∀ o, groupSteps x held s2 (unitOps u) = .error o →
        ∃ t w', exec (.flowstoneGroupExecute c) s = .next t ∧ t.mem = s.mem ∧
          (t.core c).engine = replayUnits u none (damageMet x s1 u) ++ k.engine.erase u ∧ (t.core c).tiles = k.tiles ∧
          t.warp u.warp = some w' ∧ { w' with counters := x.w.counters } = x.w ∧
          w'.counters = addCounter x.w.counters 0x103 1 ∧ OtherWarps s t u.warp))

/-- R279, R301, R325, R377: a held ETAIL is accepted once the chain's queue has room and no hand-over received before it waits
there, and a held RULELD or RULEOFF once the oldest generation has gone; one that still waits stays held; a hand-over that the
chain's halt gave up leaves ILLEGAL-STATE at the ETAIL and queues nothing. -/
def Sys2Proof.Machine.Claim.HeldRequests : Prop :=
  ∀ (w : Nat) (s : State) (x : Ctx) (h : HeldReq) (rest : List HeldReq), dev s w = some x → x.w.held = h :: rest →
    x.replicated = false →
    (∀ l y pa ch, h.kind = 0 → h.op.work = .etail l → commitCtx s x.blk.launch x.blk.b = some y →
      galPa { y with w := x.w } s l.ga 64 true = some pa → kget s.chains pa = some ch → ch.detached = false →
      let n := (l.v.extractLsb' 32 16).toNat
      let me := x.handover h.op.id
      (s.hub.handovers.any fun r => r.up && r.same me) = false →
      (1 ≤ n → ch.subs.length < 16 → behind s pa me = false → ∃ t w', exec (.heldRequestAccept w) s = .next t ∧ t.warp w = some w' ∧
        w' = { x.w with held := rest } ∧ kget t.chains pa = some { ch with
          subs := ch.subs ++ [⟨(l.v.extractLsb' 0 32).toNat, n, l.lab, x.blk.launch, x.blk.b, x.w.index, l.n.toNat⟩]
          tail := ch.tail + n } ∧ OtherWarps s t w ∧ t.mem = s.mem) ∧
      (1 ≤ n → 16 ≤ ch.subs.length ∨ behind s pa me = true → ch.subs.length < 16 ∨ ch.halt = 0 →
        exec (.heldRequestAccept w) s = .next s)) ∧
    (∀ l, h.kind = 0 → h.op.work = .etail l → (s.hub.handovers.any fun r => r.up && r.same (x.handover h.op.id)) = true →
      ∃ t w', exec (.heldRequestAccept w) s = .next t ∧ t.warp w = some w' ∧ w'.held = rest ∧ w'.regs = x.w.regs ∧
        (∃ m, w'.marks = x.w.marks ++ [m] ∧ m.code = 0x02 ∧ m.op = h.op) ∧ t.chains = s.chains ∧ OtherWarps s t w ∧
        t.mem = s.mem) ∧
    (h.kind ≠ 0 →
      let part := x.part s
      let p := s.partOf part
      ((liveGens s part p.gens).length < 4 → ∃ t, exec (.heldRequestAccept w) s = .next t ∧
        t.warp w = some { x.w with held := rest } ∧ (t.partOf part).gen = p.gen + 1 ∧
        (∀ j, aget 0 (aget [] (t.partOf part).gens (p.gen + 1)) j =
          if 8 * h.first ≤ j ∧ j < 8 * h.first + h.ds.length then nth 0 h.ds (j - 8 * h.first)
          else aget 0 (aget [] p.gens p.gen) j) ∧ OtherWarps s t w ∧ t.mem = s.mem) ∧
      (4 ≤ (liveGens s part p.gens).length → exec (.heldRequestAccept w) s = .next s))

/-- R277, R279, R292 to R295, R325, R377: rule tables, flushes and counters, and requests that were held. -/
def Obligations.Flowstone : Prop := Sys2Proof.Machine.Claim.FlowstoneInstructions ∧ Sys2Proof.Machine.Claim.HeldRequests

namespace Sys2Proof.Machine.Claim

/-! ## Device steps: Echo (R333, R341, R343, R345, R348 to R351) -/

/-- What a party's release publishes (R183), where it waits at one. -/
def partyEntries (s : State) (p : Party) : List PhaseEntry :=
  match waitingCtx s p.key, p.sent with
  | some x, some e => published x x.w e.level
  | _, _ => []

/-- A party waits at a release with no held atomic, and every entry that it publishes is private, its label dominated
by its home's (R183, R334, R341). -/
def QuietRelease (s : State) (p : Party) : Prop :=
  ∃ x e, waitingCtx s p.key = some x ∧ p.sent = some e ∧ e.release = true ∧ x.w.items = [] ∧
    ∀ q ∈ published x x.w e.level, externalEntry x q.gran = false ∧ dominates (granLabel s.mem (q.gran * 64)) q.lab = true

/-- A gang of a launch. -/
def HasGang (s : State) (l gi : Nat) (la : Launch) (g : Gang) : Prop :=
  s.launchOf l = some la ∧ kget la.gangs gi = some g

end Sys2Proof.Machine.Claim

/-- R333, R341, R343, R345, R348 to R352: an event on which the live replicas agree commits, each replica's release
publishing its entries, or the committing replica alone performing; a replica that loses the vote or comes too late
leaves; without a majority the gang stops with its detail; a re-clone copies registers and window to the lost replica's cores,
and is swapped in, and the replica is live again; events that commit meanwhile are kept, 1,024 of a warp at most, and the
replica that catches up receives the kept results where its signature is the kept one, and has lost a vote again where it is
not. -/
def Sys2Proof.Machine.Claim.EchoStepsPart : Prop :=
  ∀ (l b w : Nat) (s : State) (la : Launch) (g : Gang),
    let gi := b / la.record.gangBlocks
    let ps := parties s la g b w
    let part := (s.partOf (s.asidOf la.asid).part).state
    let noDelivery := NoDelivery s fun q => gangChain l la gi q = true
    HasGang s l gi la g → g.ended = false → g.kill = none → g.echoFail = none → 2 ≤ la.record.repl → ps ≠ [] →
    (g.clone = none → (ps.map (·.key)).Nodup → (ps.map (·.rep)).Nodup → judge (sentSigs (bindSublists s ps) ps) = .agree →
      ((∀ p ∈ ps, QuietRelease s p) → ((ps.flatMap (partyEntries s)).map (·.gran)).Nodup →
        ∃ t, exec (.echoCompare l b w) s = .next t ∧
          (∀ a, readByte t.mem.gal a = (bufferedByte (ps.flatMap (partyEntries s)) a).getD (readByte s.mem.gal a)) ∧
          t.mem.glab = s.mem.glab ∧ t.mem.dram = s.mem.dram ∧
          ∀ p ∈ ps, ∀ e, p.sent = some e → ∃ w', t.warp p.key = some w' ∧
            w'.echo = some { e with granted := true, failed := none } ∧
            (∀ q ∈ w'.phase, q ∉ partyEntries s p) ∧ (t.warp p.key).map (·.regs) = (s.warp p.key).map (·.regs)) ∧
      ((∀ p ∈ ps, ∃ e, p.sent = some e ∧ e.release = false) →
        ∃ t, exec (.onceOpRendezvous l b w) s = .next t ∧ t.mem = s.mem ∧
          (∀ p ∈ ps, ∀ e v, p.sent = some e → s.warp p.key = some v →
            t.warp p.key = some { v with echo := some { e with granted := true } }) ∧
          ∀ k, (∀ p ∈ ps, k ≠ p.key) → t.warp k = s.warp k)) ∧
    (g.clone = none → allSent ps = true → anyRelease ps = true →
      (∀ r, judge (sentSigs (bindSublists s ps) ps) = .dissent r →
        ∃ t la' g', exec (.echoCompare l b w) s = .next t ∧ HasGang t l gi la' g' ∧
        la'.vloss = la.vloss + 1 ∧ g'.live = g.live.filter (· != r) ∧ (g.live.length = 3 → g'.commit ≠ r) ∧
        g'.echoFail = none) ∧
      (judge (sentSigs (bindSublists s ps) ps) = .differ → noDelivery →
        ∃ t la' g', exec (.echoCompare l b w) s = .next t ∧ HasGang t l gi la' g' ∧
        g'.echoFail = some 0x0E ∧ g'.live = g.live ∧ RegsSame s t ∧ t.mem = s.mem)) ∧
    (g.clone = none → ∀ here late, here = ps.filter (·.sent.isSome) → late = ps.filter (·.sent.isNone) → here ≠ [] → part < 2 →
      (∀ p q r, here = [p, q] → late = [r] → judge (sentSigs (bindSublists s here) here) = .agree →
        ∃ t la' g', exec (.echoStraggler l b w) s = .next t ∧ HasGang t l gi la' g' ∧ la'.strag = la.strag + 1 ∧
          la'.vloss = la.vloss + 1 ∧ g'.live = g.live.filter (· != r.rep)) ∧
      (∀ p q, here = [p] → late = [q] → noDelivery → ∃ t la' g', exec (.echoStraggler l b w) s = .next t ∧ HasGang t l gi la' g' ∧
        la'.strag = la.strag + 1 ∧ g'.echoFail = some 0x10 ∧ RegsSame s t ∧ t.mem = s.mem)) ∧
    (∀ r, let src := g.coresOf g.commit
      let dst := g.coresOf r
      lostReplica s la g r = true → part < 2 → (∀ p ∈ s.warps, p.1 / 32 ∈ src → copyable s p = true) →
      (∀ p ∈ s.warps, p.1 / 32 ∈ dst → standsStill s p = true) →
      (∀ c ∈ src, (s.core c).engine = []) → (src ++ dst).Nodup → src.length = dst.length → la.record.win ≤ 256 →
      (s.warps.map (·.1)).Nodup → memoryOk s →
      ∃ t la' g', exec (.reclone l gi r) s = .next t ∧ HasGang t l gi la' g' ∧ la'.recln = la.recln ∧ g'.live = g.live ∧
        g'.clone = some (r, false) ∧ g'.kept = [] ∧ ∀ j, j < src.length →
          let a := nth 0 src j
          let c := nth 0 dst j
          (∀ i, i < 32 → (t.warp (c * 32 + i)).map (fun v => (v.regs, v.pc, v.exited)) =
            (s.warp (a * 32 + i)).map fun v => (v.regs, v.pc, v.exited)) ∧
          (∀ o, o < 4096 * la.record.win → readByte t.mem.gal (c * 2 ^ 20 + o) = readByte s.mem.gal (a * 2 ^ 20 + o)) ∧
          ∀ o, o < 64 * la.record.win → aget [] t.mem.glab (c * 16384 + o) = aget [] s.mem.glab (a * 16384 + o)) ∧
    (∀ r, crossing s la g r = true → ∃ t la' g', exec (.reclone l gi r) s = .next t ∧ HasGang t l gi la' g' ∧
      la'.recln = la.recln + 1 ∧ (∀ k, k ∈ g'.live ↔ k = r ∨ k ∈ g.live) ∧
      g'.clone = (if g.kept = [] then none else some (r, true)) ∧ g'.kept = g.kept ∧ t.mem = s.mem ∧ RegsSame s t)

/-- R351: an event that commits while a copy is on its way is kept with its signature, and a copy that would be more than 1,024
events behind is abandoned; a replica that has swapped in is compared with the events kept of a warp, from the first, and
receives their results. -/
def Sys2Proof.Machine.Claim.CatchingUp : Prop :=
  ∀ (l b w r : Nat) (s : State) (la : Launch) (g : Gang),
    let gi := b / la.record.gangBlocks
    let ps := parties s la g b w
    HasGang s l gi la g → g.ended = false → g.kill = none → g.echoFail = none → 2 ≤ la.record.repl →
    (∀ p ∈ ps, ∀ x e, g.clone = some (r, false) → 2 ≤ ps.length → (∀ q ∈ ps, ∃ e, q.sent = some e ∧ e.release = false) →
      judge (sentSigs (bindSublists s ps) ps) = .agree → ps.find? (·.rep == g.commit) = some p → waitingCtx s p.key = some x → x.w.echo = some e →
      let mine := g.kept.filter fun k => k.b == x.blk.b && k.w == x.w.index
      ∃ t la' g', exec (.onceOpRendezvous l b w) s = .next t ∧ HasGang t l gi la' g' ∧ t.mem = s.mem ∧
        (mine.length < 1024 → g'.clone = g.clone ∧ g'.live = g.live ∧
          g'.kept = g.kept ++ [⟨x.blk.b, x.w.index, e.event, partySig (bindSublists s ps) p e, e.once, [], [], [], [], []⟩]) ∧
        (1024 ≤ mine.length → g'.clone = none ∧ g'.live = g.live.filter (· != r) ∧ g'.kept = [])) ∧
    (∀ p e k, g.clone = some (r, true) → partyOf s la g b w r = some p → p.sent = some e →
      g.kept.find? (fun k => k.b == b && k.w == w) = some k →
      (k.event ≠ e.event ∨ partySig s p e ≠ k.sig → ∃ t la' g',
        exec (if e.release then .echoCompare l b w else .onceOpRendezvous l b w) s = .next t ∧ HasGang t l gi la' g' ∧
        la'.vloss = la.vloss + 1 ∧ g'.live = g.live.filter (· != r) ∧ g'.clone = none ∧ g'.kept = []) ∧
      (k.event = e.event → partySig s p e = k.sig → k.once = false → e.release = false → k.writes = [] → k.marks = [] →
        ∃ t la' g', exec (.onceOpRendezvous l b w) s = .next t ∧ HasGang t l gi la' g' ∧ t.mem = s.mem ∧ g'.live = g.live ∧
          g'.kept = g.kept.erase k ∧
          (∀ v, s.warp p.key = some v → t.warp p.key = some { v with
            echo := some { e with granted := true, once := false, failed := none, vals := k.vals, labs := k.labs } }) ∧
          ∀ j, j ≠ p.key → t.warp j = s.warp j))

/-- R343, R345: in a replicated launch ERID and ESTAT post a once-performed event with their record and wait; the
answer delivers the committing replica's value to the others. -/
def Sys2Proof.Machine.Claim.ReplicaWaits : Prop :=
  ∀ (z : Bool) (d : BitVec 6) (s : State) (x : Ctx), ∀ i ∈ [Instr.erid z d, .estat z d],
    Ready i { wg := [d.toNat] } 0 false s x → x.replicated = true →
    let rs := [opRecord x x.w.wcl 0 []]
    (x.w.echo = none → ∃ t e, exec i s = .next t ∧ t.w.events = x.w.events + 1 ∧ t.w.echo = some e ∧
      e.event = x.w.events + 1 ∧ e.release = false ∧ e.once = true ∧ e.granted = false ∧ e.ops = rs ∧
      e.sig = signature t x.asid rs ∧ t.q = x.w.regs ∧ t.w.run = x.w.run ∧ t.mem = s.mem ∧ OtherWarps s t s.cur) ∧
    (∀ e, x.w.echo = some e → e.granted = false → exec i s = .next (preIssue i s)) ∧
    (∀ e, x.w.echo = some e → e.granted = true → e.once = true → x.commits = false → exec i s = .next (preIssue i s)) ∧
    (∀ e v rest, x.w.echo = some e → e.granted = true → e.once = false → e.vals = v :: rest →
      Binds (preIssue i s) x.asid x.w.wcl →
      ∃ t, exec i s = .next t ∧ t.q.getG d.toNat = v ∧ IsJoin (t.q.labG d.toNat) [x.w.wcl] ∧ OnlyG x.w.regs t.q d.toNat ∧
        t.w.echo = none ∧ t.w.commits = x.w.commits + 1 ∧ t.mem = s.mem ∧ OtherWarps s t s.cur)

/-- R333, R341, R343, R345, R348 to R352: replicas wait for Echo, and Echo commits, votes, stops or re-clones, and keeps what a
re-cloned replica has yet to pass. -/
def Obligations.EchoSteps : Prop :=
  Sys2Proof.Machine.Claim.EchoStepsPart ∧ Sys2Proof.Machine.Claim.CatchingUp ∧ Sys2Proof.Machine.Claim.ReplicaWaits

namespace Sys2Proof.Machine.Claim

/-! ## Device steps: siphon engines, tiers and collectives (R302 to R324, R399 to R401) -/

/-- The stores of bytes laid over some pieces: physical address and bytes of each. -/
def overPieces : List (Nat × Nat) → List Byte → List (Nat × List Byte)
  | [], _ => []
  | p :: t, bs => (p.1, bs.take p.2) :: overPieces t (bs.drop p.2)

/-- The stores of a move whose source bytes stand in a memory. -/
def moveStores (m : List Host.Cell) (q : Move) : List (Nat × List Byte) :=
  overPieces q.dst (q.src.flatMap fun p => readBytes m p.1 p.2)

/-- A chain may take a chunk of a started entry (R306, R308): its partition runs, it has not halted, detached or been
cancelled, and no lower entry holds the chunk back. -/
structure ChunkDue (s : State) (ch : Nat) (c : Chain) (e : Entry) (x : Ctx) : Prop where
  chain : kget s.chains ch = some c
  ctx : commitCtx s c.launch c.b = some x
  entry : c.entries.find? (·.num == e.num) = some e
  same : commitCtx s e.sub.launch e.sub.b = some x
  runs : chainPaused s c = false
  going : c.detached = false ∧ c.halt = 0 ∧ x.la.cancelled = false ∧ x.replicated = false
  started : e.code = 0 ∧ e.fresh = false ∧ e.disarmed = false ∧ e.ring = none ∧ e.slot = none
  whole : ∀ d ∈ c.entries, d.num = e.num → d.filling = false
  moves : entKind e.dw = 1 ∨ entKind e.dw = 2 ∨ entKind e.dw = 3
  first : mayRun x s ch c e.num = true
  free : migrating s ch e.num = false

/-- A chunk passes every check of R305 to R307 and R311, no row of it is denied, and none of its destinations is a
bound descriptor or a granule that its sources lie in. -/
structure ChunkSound (s : State) (e : Entry) (x : Ctx) (ms : List Move) (dram : Bool) : Prop where
  moves : chunkMoves x s e.dw (nth 0 x.lr.prins (entPidx e.dw) % 2 ^ 24) e.chunks = .ok ms
  labels : checkMoves e.ga e.ctl none ms = .ok ()
  sound : ms.find? (moveDamaged s) = none
  allowed : ∀ m ∈ ms, m.deny = none
  space : ∀ m ∈ ms, m.gal = dram ∧ m.dsp = (if dram then 1 else 0)
  apart : dram = false → ∀ m ∈ ms, ∀ p ∈ m.dst, NoneBoundAt s p.1
  still : dram = true → s.hub.migrations = [] ∧ ∀ m ∈ ms, ∀ p ∈ m.dst, contained s p.1 = false

/-- The tables of an address space lead from level 2 at `t` to level 3 at `u` for an address, whose level-3 entry is none of the
entries on the way (R395). -/
structure WalkTo (s : State) (asid va t u : Nat) : Prop where
  up : table2 s asid va = some t
  down : s.below t (ix2 va) = some u
  apart : s.rootOf asid / 16 + ix1 va ≠ u / 16 + ix3 va ∧ t / 16 + ix2 va ≠ u / 16 + ix3 va

/-- A step of the hub or of a memory controller leaves warps, cores, launches and the Gallery alone. -/
def Outside (s t : State) : Prop :=
  t.warps = s.warps ∧ t.cores = s.cores ∧ t.launches = s.launches ∧ t.mem.gal = s.mem.gal ∧ t.mem.glab = s.mem.glab

end Sys2Proof.Machine.Claim

/-- R302, R303, R305, R306, R309, R311: a chunk of a COPY, GATH or SCAT moves its rows from main memory to the Gallery
or back; the last chunk of a chain's first entry writes its status and SEQ; a failed check halts the entry and the
chain with its code; a detached chain unbinds. -/
def Obligations.EngineSteps : Prop :=
  ∀ (ch f : Nat) (s : State) (c : Chain) (e : Entry) (x : Ctx), ChunkDue s ch c e x →
    (∀ ms dram, ChunkSound s e x ms dram → f = 0 → e.chunks + 1 < chunkCount e.dw → (∀ d ∈ c.entries, d.code < 0x10) →
      ∃ t, exec (.engineChunk ch e.num f) s = .next t ∧
        kget t.chains ch = some (c.put { e with chunks := e.chunks + 1 }) ∧ RegsSame s t ∧ t.mem.glab = s.mem.glab ∧
        (dram = false → t.mem.dram = s.mem.dram ∧ ∀ a, readByte t.mem.gal a =
          (lastStore (ms.flatMap (moveStores s.mem.dram)) a).getD (readByte s.mem.gal a)) ∧
        (dram = true → t.mem.gal = s.mem.gal ∧ ∀ a, readByte t.mem.dram a =
          (lastStore (ms.flatMap (moveStores s.mem.gal)) a).getD (readByte s.mem.dram a))) ∧
    (∀ ms dram pe pc rest, ChunkSound s e x ms dram → f = 0 → chunkCount e.dw ≤ e.chunks + 1 → c.entries = e :: rest →
      (∀ d ∈ rest, d.num ≠ e.num ∧ d.code = 0) → StatusAt s ch e c x pe pc →
      ∃ t, exec (.engineChunk ch e.num f) s = .next t ∧
        kget t.chains ch = some { c with seq := c.seq + 1, entries := rest } ∧
        readNum t.mem.gal pc 8 = (c.seq + 1) % 2 ^ 48 ∧ readNum t.mem.gal pe 8 = e.fva % 2 ^ 52 ∧
        readNum t.mem.gal (pe + 8) 8 = 2 ^ 56 + min e.denied 0xFFFFFF * 2 ^ 32 + (e.chunks + 1) % 2 ^ 32 ∧ RegsSame s t) ∧
    (∀ h pe pc rest, chunkMoves x s e.dw (nth 0 x.lr.prins (entPidx e.dw) % 2 ^ 24) e.chunks = .error h →
      0x10 ≤ h.code → h.code < 256 → h.fva < 2 ^ 52 → c.entries = e :: rest → rest = [] → StatusAt s ch e c x pe pc →
      ∃ t, exec (.engineChunk ch e.num f) s = .next t ∧ kget t.chains ch = some { c with
          halt := h.code, entries := [{ e with code := h.code, fva := h.fva, bad := h.bad }] } ∧
        readNum t.mem.gal pc 8 = h.code * 2 ^ 56 + c.seq % 2 ^ 48 ∧ readNum t.mem.gal pe 8 = h.fva ∧
        readNum t.mem.gal (pe + 8) 8 = h.code * 2 ^ 56 + min e.denied 0xFFFFFF * 2 ^ 32 + e.chunks % 2 ^ 32 ∧
        t.mem.dram = s.mem.dram ∧ RegsSame s t) ∧
    (∀ s' : State, s' = s.setChain ch { c with detached := true } →
      ∃ t, exec (.engineChunk ch e.num f) s' = .next t ∧ kget t.chains ch = none ∧ RegsSame s t)

/-- R314 to R317, R399 to R401: a migration sets MLOCK and takes a frame, copies 256 bytes at a time, and switches the
page's leaf; an epoch's end proposes only moves that wait to begin; a throttle changes no value; a parity alert is
counted, a second one contains its controller. Access counts and the start of a refresh window are free values (log
entry 1). -/
def Obligations.TierSteps : Prop :=
  ∀ (m row : Nat) (s : State), m < 16 →
    (∀ g lf f rest a b, s.hub.migrations[m]? = some g → smallLeaf s g.asid g.page = some lf →
      WalkTo s g.asid (g.page * 2 ^ 19) a b →
      (g.begun = false → g.pieces ≠ 2048 → mayMigrate s g.asid g.page g.tier = true → s.hub.pool g.tier = f :: rest →
        ∃ t, exec (.migr m) s = .next t ∧ t.hub.pool g.tier = rest ∧
          t.hub.migrations[m]? = some { g with old := lf.frame, new := f, pieces := 0, begun := true } ∧
          smallLeaf t g.asid g.page = some { lf with tag := lf.tag ||| 1#64 <<< 34 } ∧ Outside s t ∧
          t.mem.dram = s.mem.dram) ∧
      (g.begun = true → lf.frame = g.old → lf.tag.getLsbD 34 = true → g.old ≠ g.new → g.pieces < 2048 →
        contained s (g.old * 2 ^ 19) = false → (∀ o, o < 2 ^ 19 → contained s (g.new * 2 ^ 19 + o) = false) →
        ∃ t, exec (.migr m) s = .next t ∧ t.hub.migrations[m]? = some { g with pieces := g.pieces + 1 } ∧
          (∀ a, readByte t.mem.dram a = if g.new * 2 ^ 19 + 256 * g.pieces ≤ a ∧ a < g.new * 2 ^ 19 + 256 * g.pieces + 256
            then readByte s.mem.dram (g.old * 2 ^ 19 + (a - g.new * 2 ^ 19)) else readByte s.mem.dram a) ∧ Outside s t) ∧
      (g.begun = true → lf.frame = g.old → lf.tag.getLsbD 34 = true → 2048 ≤ g.pieces → g.entry = none → g.new < 2 ^ 33 →
        g.tier < 2 →
        ∃ t lf', exec (.migr m) s = .next t ∧ smallLeaf t g.asid g.page = some lf' ∧ lf'.frame = g.new ∧
          lf'.tag.extractLsb' 35 2 = BitVec.ofNat 2 g.tier ∧ lf'.tag.getLsbD 34 = false ∧
          lf'.tag.extractLsb' 0 34 = lf.tag.extractLsb' 0 34 ∧ lf'.dw.extractLsb' 0 19 = lf.dw.extractLsb' 0 19 ∧
          g.old ∈ t.hub.pool lf.tier ∧ t.hub.migrations = s.hub.migrations.eraseIdx m ∧
          (t.ctrl g.mc).migrated = (s.ctrl g.mc).migrated + 1 ∧ Outside s t ∧ t.mem.dram = s.mem.dram)) ∧
    (∃ t ps, exec (.hptEpochEnd m) s = .next t ∧ t.hub.migrations = s.hub.migrations ++ ps ∧
      (∀ p ∈ ps, p.begun = false ∧ p.mc = m ∧ p.tier ≤ 1 ∧ p.entry = none ∧ p.pieces = 0) ∧
      ((s.ctrl m).hptc.getLsbD 0 = false → ps = []) ∧
      (t.ctrl m).proposed = (s.ctrl m).proposed + BitVec.ofNat 64 ps.length ∧
      (∀ k, k ≠ m → t.ctrl k = s.ctrl k) ∧ Outside s t ∧ t.mem.dram = s.mem.dram) ∧
    (∃ t, exec (.rowHammerThrottle m row) s = .next t ∧
      kget (t.ctrl m).rows row = some (max 256 ((s.ctrl m).rhcfg.extractLsb' 16 16).toNat) ∧
      { t.ctrl m with rows := (s.ctrl m).rows } = s.ctrl m ∧ (∀ k, k ≠ m → t.ctrl k = s.ctrl k) ∧ Outside s t ∧
      t.mem.dram = s.mem.dram) ∧
    (m < 12 → (s.ctrl m).contained = false →
      (∃ t, exec (.caParityAlert m false) s = .next t ∧ t.ctrl m = { s.ctrl m with careplay := (s.ctrl m).careplay + 1 } ∧
        Notified s t 10 ∧ Outside s t ∧ t.mem.dram = s.mem.dram) ∧
      (∃ t, exec (.caParityAlert m true) s = .next t ∧ (t.ctrl m).contained = true ∧ Notified s t 7 ∧
        (∀ k f, f ∈ t.hub.pool k → f ∈ s.hub.pool k ∧ Config.controllerOf (f * 2 ^ 19) ≠ m) ∧ Outside s t ∧
        t.mem.dram = s.mem.dram))

namespace Sys2Proof.Machine.Claim

/-! ## Device steps: collectives (R320 to R324) -/

/-- A part after a chunk (R322, R323): one chunk further, complete after the last, or ended by its own failed check. -/
def afterChunk (q : Part) : Except Halt (List (List (Nat × Nat) × List Byte)) → Part
  | .error h => { q with code := h.code }
  | .ok _ => { q with chunks := q.chunks + 1, code := if q.chunks + 1 < collChunks q.dw then 0 else 1 }

/-- The stores that a chunk makes to a part's DST. -/
def chunkStores : Except Halt (List (List (Nat × Nat) × List Byte)) → List (Nat × List Byte)
  | .error _ => []
  | .ok ws => ws.flatMap fun w => overPieces w.1 w.2

/-- The completion object of a part, given as it is after a step (R300, R323): word 0 is CSEQ on completion, the HALT code with
SEQ 0 on another end and untouched before, then STATE and CHUNKS. -/
def ObjectSays (s t : State) (r : Part) : Prop :=
  ∀ pa ∈ cobjPas s r,
    readNum t.mem.gal pa 8 = (if r.code = 0 then readNum s.mem.gal pa 8 else if r.code = 1 then collCseq r.dw % 2 ^ 48
      else r.code * 2 ^ 56) ∧
    readNum t.mem.gal (pa + 8) 8 = (if r.code = 0 then 1 else 3) * 2 ^ 32 + r.chunks % 2 ^ 32

/-- The completion objects of some parts are granules apart. -/
abbrev ObjectsApart (s : State) (qs : List Part) : Prop :=
  (qs.flatMap (cobjPas s)).Nodup ∧ ∀ pa ∈ qs.flatMap (cobjPas s), pa % 64 = 0

/-- Gallery bytes outside some parts' completion objects are as before. -/
def ObjectsOnly (s t : State) (qs : List Part) : Prop :=
  ∀ a, (∀ pa ∈ qs.flatMap (cobjPas s), a < pa ∨ pa + 16 ≤ a) → readByte t.mem.gal a = readByte s.mem.gal a

/-- Some parts have all ended with one code: their collective has left the engines, nothing is delivered, and their objects
say so. -/
def AllEnd (s t : State) (gone qs : List Part) (code : Nat) : Prop :=
  t.hub.parcels = gone ∧ RegsSame s t ∧ (ObjectsApart s qs → ObjectsOnly s t qs ∧ ∀ q ∈ qs, ObjectSays s t { q with code := code })

end Sys2Proof.Machine.Claim

/-- R320 to R324: the collective that some dies' engines serve next takes one chunk there: every rank's lines are read before
any is written, and a rank that receives gets its bytes and its object counts the chunk or, after the last, takes CSEQ. Parts that
disagree all end with MISMATCH, a join over eight owners ends all with EXHAUST, a cancellation with CANCEL, and their objects say
so. What a rank's failure means for the others is the model's choice (log entry 18): one whose DST fails a check ends alone, and a
failed read of SRC ends every part with its code. -/
def Obligations.CollectiveSteps : Prop :=
  ∀ (n : Nat) (s : State),
    let qs := currentParts s n
    let k := (qs.map (·.index)).headD 0
    let mineAll := fun q : Part => q.comm == n && q.index == k
    let gone := s.hub.parcels.filter fun q => !mineAll q
    let live := qs.filter (·.code == 0)
    let mine := live.filter fun q => (serving s n).contains q.die
    (∀ q0 rest s1 in_, cancelParts s n = [] → serving s n ≠ [] → (∀ q ∈ qs, partsAgree (qs.headD Part.zero).dw q.dw = true) →
      (qs.map (·.rank)).Nodup → mine = q0 :: rest → (∀ q ∈ mine, q.chunks = q0.chunks) → takeInput s q0 qs = (s1, in_) →
      (∀ srcs, in_ = .ok srcs →
        let plan := planOf s1 (delivered (collOp q0.dw) q0.dw q0.chunks srcs)
        ((∀ q ∈ live, exhausted (plan q) = false) → (∀ q ∈ mine, ∀ h, plan q = .error h → 0x10 ≤ h.code ∧ h.code < 256) →
          s.hub.migrations = [] →
          (∀ q ∈ mine, ∀ ws, plan q = .ok ws → ∀ w ∈ ws, ∀ p ∈ w.1, contained s p.1 = false) →
          let after := s.hub.parcels.map fun q => if q ∈ mine then afterChunk q (plan q) else q
          ∃ t, exec (.collectiveChunk n) s = .next t ∧
            (∀ a, readByte t.mem.dram a = (lastStore (mine.flatMap fun q => chunkStores (plan q)) a).getD
              (readByte s1.mem.dram a)) ∧
            t.hub.parcels = (if (after.filter mineAll).all (·.code != 0) then after.filter fun q => !mineAll q else after) ∧
            (ObjectsApart s mine → ObjectsOnly s t mine ∧ ∀ q ∈ mine, ObjectSays s t (afterChunk q (plan q))) ∧
            RegsSame s t) ∧
        ((∃ q ∈ live, exhausted (plan q) = true) →
          ∃ t, exec (.collectiveChunk n) s = .next t ∧ AllEnd s t gone live 0x17 ∧ t.mem.dram = s1.mem.dram)) ∧
      (∀ code, in_ = .error code → code = 0x10 ∨ code = 0x15 →
        ∃ t, exec (.collectiveChunk n) s = .next t ∧ AllEnd s t gone live code ∧ t.mem.dram = s1.mem.dram)) ∧
    (cancelParts s n = [] → serving s n ≠ [] → (∃ q ∈ qs, partsAgree (qs.headD Part.zero).dw q.dw = false) →
      ∃ t, exec (.collectiveChunk n) s = .next t ∧ AllEnd s t gone qs 0x18 ∧ t.mem.dram = s.mem.dram) ∧
    (cancelParts s n ≠ [] → ∃ t, exec (.collectiveChunk n) s = .next t ∧ t.mem.dram = s.mem.dram ∧ RegsSame s t ∧
      (∀ q ∈ cancelParts s n, ∀ r ∈ t.hub.parcels, r.comm = q.comm → r.rank = q.rank → r.index = q.index → r.code = 0x19) ∧
      (ObjectsApart s (cancelParts s n) → ObjectsOnly s t (cancelParts s n) ∧
        ∀ q ∈ cancelParts s n, ObjectSays s t { q with code := 0x19 }))

namespace Sys2Proof.Machine.Claim

/-! ## Device steps: ports, link keys, SPDM (R402 to R408) and the driver (R318, R393 to R399, R411) -/

/-- A step changes one port, to what is given, and nothing outside the hub. -/
def PortGets (i : Instr) (s : State) (k : Nat) (p : Port) : Prop :=
  ∃ t, exec i s = .next t ∧ t.port k = p ∧ (∀ j, j ≠ k → t.port j = s.port j) ∧ t.mem = s.mem ∧ t.warps = s.warps ∧
    t.cores = s.cores ∧ t.launches = s.launches ∧ t.hub.asids = s.hub.asids

/-- A flit arrives whole at a port (R224, R407): delivered with its label's and its ACL's handles here, the label's set bound if
it has none (R209); dropped with LABEL-EXHAUSTED where it cannot be (log entry 29). -/
def Delivers (k : Nat) (s : State) (q : Port) : Prop :=
  ∀ asid h acl,
    (q.setOf asid h = none → PortGets (.flitReceive k true ⟨true, asid, h, acl⟩) s k { q with status := 7 }) ∧
    ∀ L, q.setOf asid h = some L →
      (¬ Binds s asid L → PortGets (.flitReceive k true ⟨true, asid, h, acl⟩) s k { q with status := 7 }) ∧
      (Binds s asid L → ∃ t hd, exec (.flitReceive k true ⟨true, asid, h, acl⟩) s = .next t ∧
        ((hd, L) ∈ (t.asidOf asid).labels ∨ hd = 0 ∧ L = []) ∧ LabelsGrow s t ∧
        t.port k = { q with
          delivered := q.delivered + 1
          arrived := some (asid, hd, if acl = 0 then some 0 else kget q.acls (asid * 2 ^ 20 + acl)) } ∧
        (∀ j, j ≠ k → t.port j = s.port j) ∧ t.mem = s.mem ∧ t.warps = s.warps ∧ t.cores = s.cores ∧
        t.launches = s.launches)

/-- A step changes the hub as given, and nothing else. -/
def HubGets (i : Instr) (s : State) (h : Hub) : Prop := exec i s = .next { s with hub := h }

/-- A step changes one partition block, to what is given, and nothing else of the machine. -/
def PartGets (i : Instr) (s : State) (p : Nat) (q : Partition) : Prop :=
  ∃ t, exec i s = .next t ∧ t.partOf p = q ∧ (∀ j, j ≠ p → t.partOf j = s.partOf j) ∧
    { t with hub := { t.hub with parts := s.hub.parts } } = s

/-- A step changes one address space's entry, to what is given, and nothing else of the machine. -/
def AsidGets (i : Instr) (s : State) (a : Nat) (q : Asid) : Prop :=
  ∃ t, exec i s = .next t ∧ t.asidOf a = q ∧ (∀ j, j ≠ a → t.asidOf j = s.asidOf j) ∧
    { t with hub := { t.hub with asids := s.hub.asids } } = s

end Sys2Proof.Machine.Claim

/-- R224, R402 to R405, R407, R408: a port delivers a flit with the handles of its label and ACL translated, retries once and
then is quarantined; its key asks for another at 2^40 invocations, stalls at 2^44, and is installed; a port attests, exchanging
the handle tables, before it comes up and trains again after quarantine; SPDM gives the measurements, opens sessions and programs
keys.  What the model chooses of ports is in log entries 27 and 29. -/
def Obligations.PortSteps : Prop :=
  ∀ (k peer : Nat) (s : State), k < 18 →
    let p := s.port k
    let open' := p.state = 3 ∧ p.stalled = false
    (open' → p.invocations < 2 ^ 44 →
      (p.retrying = false → Delivers k s { p with invocations := p.invocations + 1 }) ∧
      (p.retrying = true →
        Delivers k s { p with invocations := p.invocations + 1, retries := p.retries + 1, retrying := false }) ∧
      ∀ a h c,
        (p.retrying = false → PortGets (.flitReceive k true ⟨false, a, h, c⟩) s k
          { p with invocations := p.invocations + 1, macfail := p.macfail + 1, retrying := true }) ∧
        (p.retrying = true → PortGets (.flitReceive k true ⟨false, a, h, c⟩) s k
          { p with invocations := p.invocations + 1, state := 4, retrying := false }) ∧
        ∀ m, (p.retrying = false → PortGets (.flitReceive k false ⟨m, a, h, c⟩) s k { p with retrying := true }) ∧
          (p.retrying = true → PortGets (.flitReceive k false ⟨m, a, h, c⟩) s k { p with state := 4, retrying := false })) ∧
    (open' → p.requested = false → PortGets (.linkKeyUpdateRequest k) s k
      { p with invocations := max p.invocations (2 ^ 40), requested := true }) ∧
    (open' → p.requested = true → PortGets (.linkKeyStall k) s k
      { p with invocations := max p.invocations (2 ^ 44), stalled := true }) ∧
    (p.stalled = true → ∀ e m a h c, exec (.flitReceive k e ⟨m, a, h, c⟩) s = .next s) ∧
    (p.requested = true → PortGets (.linkKeyInstall k) s k
      { p with invocations := 0, requested := false, stalled := false }) ∧
    (∀ ls as,
      (p.state ≤ 1 → ∀ ok, PortGets (.portAttest k peer ⟨ok, ls, as⟩) s k { p with state := 2, peer := peer % 256 }) ∧
      (p.state = 2 → PortGets (.portAttest k peer ⟨true, ls, as⟩) s k { p with
        state := 3, peer := peer % 256, invocations := 0, requested := false, stalled := false, retrying := false
        labels := tabOf ls, acls := tabOf as }) ∧
      (p.state = 2 → exec (.portAttest k peer ⟨false, ls, as⟩) s = .next s)) ∧
    (p.state = 4 → PortGets (.portRetrain k) s k { p with state := 1, retrying := false }) ∧
    (∀ arg, HubGets (.spdmRequest 0 arg) s { s.hub with spdm := [Config.measurement 0, Config.measurement 1,
      Config.measurement 2, Config.measurement (if s.hub.testFuse then 4 else 3)] }) ∧
    (∀ a, a < 8192 → (s.asidOf a).valid = true → AsidGets (.spdmRequest 1 a) s a { s.asidOf a with session := true }) ∧
    (∀ a, 8192 ≤ a → HubGets (.spdmRequest 1 a) s { s.hub with hostSession := true }) ∧
    (∀ a, a ≤ 8 → s.hub.hostSession = true → HubGets (.spdmRequest 2 a) s { s.hub with ideKeys := insNat a s.hub.ideKeys }) ∧
    (∀ a, s.hub.hostSession = false → exec (.spdmRequest 2 a) s = .next s)

/-- R318, R314, R390, R392 to R394, R396 to R399: a write of a communicator's dwords is taken when the entry keeps to R318 and
has no collective outstanding, else it sets COMMERR; each register of the driver's blocks takes its writable bits; the host reads
capability space with its current values, and 0 at an offset with no register.  The model chooses that the ASID table is written
beside BAR0 (log entry 19), that a changed entry is a new communicator whose collectives are numbered from 0 (log entry 18), and
what else log entries 5 and 26 say of the driver's steps. -/
def Obligations.DriverWrites : Prop :=
  ∀ (v : Word) (s : State),
    (∀ n, n < 64 →
      let c := aget Comm.zero s.hub.comms n
      let bad := fun o => HubGets (.commTableWrite (512 * n + o) v) s { s.hub with commerr := s.hub.commerr ||| 1 }
      let nrank := (v.extractLsb' 49 7).toNat
      let resv := (v.extractLsb' 33 16).toNat
      (commBusy s n = true → ∀ o, o < 512 → o % 8 = 0 → bad o) ∧
      (commBusy s n = false →
        (v.extractLsb' 0 33 ≠ 0 → bad 0) ∧
        (v.getLsbD 63 = true → nrank = 0 ∨ 64 < nrank ∨ resv < 2 ∨ 256 < reserved s n + resv → bad 0) ∧
        (v.extractLsb' 0 33 = 0 → (v.getLsbD 63 = true → 1 ≤ nrank ∧ nrank ≤ 64 ∧ 2 ≤ resv ∧ reserved s n + resv ≤ 256) →
          ∃ t, exec (.commTableWrite (512 * n) v) s = .next t ∧ aget Comm.zero t.hub.comms n = { c with dw := v } ∧
            (∀ k, k ≠ n → aget Comm.zero t.hub.comms k = aget Comm.zero s.hub.comms k) ∧
            (∀ p, p ∈ t.hub.colls ↔ p ∈ s.hub.colls ∧ p.1 / 64 ≠ n) ∧
            { t with hub := { t.hub with comms := s.hub.comms, colls := s.hub.colls } } = s) ∧
        (∀ j, j < 32 → v.extractLsb' 0 11 = 0 → v.extractLsb' 32 11 = 0 → c.ranks.length ≤ 64 →
          ∃ t, exec (.commTableWrite (512 * n + 8 + 8 * j) v) s = .next t ∧
            (let d := aget Comm.zero t.hub.comms n
             d.dw = c.dw ∧ nth 0 d.ranks (2 * j) = (v.extractLsb' 0 32).toNat ∧
              nth 0 d.ranks (2 * j + 1) = (v.extractLsb' 32 32).toNat ∧
              ∀ i, i ≠ 2 * j → i ≠ 2 * j + 1 → nth 0 d.ranks i = nth 0 c.ranks i) ∧
            (∀ p, p ∈ t.hub.colls ↔ p ∈ s.hub.colls ∧ p.1 / 64 ≠ n) ∧
            { t with hub := { t.hub with comms := s.hub.comms, colls := s.hub.colls } } = s))) ∧
    readBar0 s 0 = s.hub.hubctl ∧ readBar0 s 0x20 = BitVec.ofNat 64 (s.hub.pool1.length * 2 ^ 32 + s.hub.pool0.length) ∧
    (∀ o, o < 0x10000 → o % 8 = 0 → (0x20 < o → readBar0 s o = 0) ∧
      readBar0 s (0x10000 + o) = capDword s (capNow s) o) ∧
    HubGets (.registerWrite 0 v) s { s.hub with hubctl := v &&& (if s.hub.testFuse then 3 else 1) } ∧
    (s.hub.hubctl.getLsbD 0 = false →
      HubGets (.registerWrite 8 v) s { s.hub with qtbase := v &&& 0x000FFFFFFFF80000#64 } ∧
      HubGets (.registerWrite 0x10 v) s { s.hub with astbase := v &&& 0x000FFFFFFFF80000#64 }) ∧
    (s.hub.hubctl.getLsbD 0 = true → exec (.registerWrite 8 v) s = .next s ∧ exec (.registerWrite 0x10 v) s = .next s) ∧
    HubGets (.registerWrite 0x18 v) s { s.hub with poolwm := v &&& 0xFFFFFFFF#64 } ∧
    (v.getLsbD 0 = true → HubGets (.registerWrite 0x78000 v) s { s.hub with commerr := 0 }) ∧
    (∀ p, p < 64 →
      let q := s.partOf p
      let at_ := fun o => Instr.registerWrite (0x20000 + 0x1000 * p + o) v
      (v.extractLsb' 0 2 = 0 → PartGets (at_ 0) s p { q with rej := false }) ∧
      (v.extractLsb' 0 2 = 3 → PartGets (at_ 0) s p { q with rej := true }) ∧
      PartGets (at_ 0x10) s p { q with csa := v &&& 0x000FFFFFFFC00000#64 } ∧
      (partBusy s p = false → (v.extractLsb' 0 10).toNat ≤ 640 →
        PartGets (at_ 0x18) s p { q with maplen := (v.extractLsb' 0 10).toNat }) ∧
      (partBusy s p = true → PartGets (at_ 0x18) s p { q with rej := true }) ∧
      ∀ g, g < 640 → (partBusy s p = false → (v.extractLsb' 0 10).toNat < 640 →
          PartGets (at_ (0x400 + 2 * g)) s p { q with smap := aset 0 q.smap g (v.extractLsb' 0 10).toNat }) ∧
        (partBusy s p = true → PartGets (at_ (0x400 + 2 * g)) s p { q with rej := true })) ∧
    (∀ m, m < 16 → ∃ t u, exec (.registerWrite (0x60000 + 0x100 * m) v) s = .next t ∧
      t.ctrl m = { s.ctrl m with hptc := v &&& 0xFFFFFFFFFFFF0001#64 } ∧ (∀ k, k ≠ m → t.ctrl k = s.ctrl k) ∧
      exec (.registerWrite (0x60000 + 0x100 * m + 0x20) v) s = .next u ∧
      u.ctrl m = { s.ctrl m with rhcfg := v &&& 0xFFFFFFFF#64 } ∧ (∀ k, k ≠ m → u.ctrl k = s.ctrl k) ∧
      { t with hub := { t.hub with ctrls := s.hub.ctrls } } = s ∧ { u with hub := { u.hub with ctrls := s.hub.ctrls } } = s) ∧
    (∀ j, j < 8 → HubGets (.registerWrite (0x80000 + 8 * j) v) s { s.hub with
      mailbox := { s.hub.mailbox with request := aset 0 s.hub.mailbox.request j v } }) ∧
    (v.getLsbD 0 = true →
      let cmd := ((reqDw s 0).extractLsb' 0 8).toNat
      (1 ≤ cmd → cmd ≤ 0x0B → HubGets (.registerWrite 0x80080 v) s { s.hub with mailbox := { s.hub.mailbox with go := true } }) ∧
      (cmd = 0 ∨ 0x0B < cmd → HubGets (.registerWrite 0x80080 v) s { s.hub with
        mailbox := { s.hub.mailbox with go := false, status := 5, response := [] } })) ∧
    (let d := s.hub.debugBlock
     HubGets (.registerWrite 0xA0020 v) s { s.hub with debugBlock := { d with dsel := v &&& 0x7FFF#64 } } ∧
     HubGets (.registerWrite 0xA0028 v) s { s.hub with debugBlock := { d with dreg := v &&& 0xFFDF#64 } } ∧
     HubGets (.registerWrite 0xA0030 v) s { s.hub with debugBlock := { d with ddata := v } }) ∧
    (∀ a, a < 8192 →
      let q := s.asidOf a
      let at_ := fun o => Instr.registerWrite (0x100000 + 64 * a + o) v
      (asidBusy s a = true → ∀ o, o < 64 → exec (at_ o) s = .next s) ∧
      (asidBusy s a = false →
        AsidGets (at_ 0) s a { q with dbg := v.getLsbD 62, part := (v.extractLsb' 0 6).toNat } ∧
        AsidGets (at_ 8) s a { q with ptroot := v &&& 0x000FFFFFFFFF0000#64 } ∧
        AsidGets (at_ 0x10) s a { q with sumpd := v } ∧ AsidGets (at_ 0x18) s a { q with slogd := v }))

/-- R411: after a module reset everything but the fuses stands as State.reset (log entry 3 for the values the specification does
not give); after the thermal stop the host link is down and no step but a module reset changes anything, which is the model's
reading (log entry 27). -/
def Obligations.ResetAndThermalStop : Prop :=
  ∀ (s : State),
    (∃ t, exec .moduleReset s = .next t ∧ t.hub.testFuse = s.hub.testFuse ∧ t.hub.moduleNumber = s.hub.moduleNumber ∧
      { t with
        free := State.reset.free, agenda := State.reset.agenda
        hub := { t.hub with testFuse := State.reset.hub.testFuse, moduleNumber := State.reset.hub.moduleNumber } } =
          State.reset) ∧
    (∃ t, exec .thermalStop s = .next t ∧ t = { s with
      hub := { s.hub with thermal := true, hostSession := false, ideKeys := [] } }) ∧
    (s.hub.thermal = true → s.agenda.head? ≠ some (.device .moduleReset) → ∃ t, step s = .next t ∧ t.hub = s.hub ∧ t.mem = s.mem ∧
      t.warps = s.warps ∧ t.cores = s.cores ∧ t.launches = s.launches ∧ t.rings = s.rings ∧ t.chains = s.chains)

namespace Sys2Proof.Machine.Claim

/-! ## Device steps: the Lantern mailbox (R401, R405, R410) and the debug block (R398) -/

/-- A mailbox request waits with this command, for an address space where the command names one (R405). -/
abbrev Asks (s : State) (cmd : Nat) : Prop := s.hub.mailbox.go = true ∧ ((reqDw s 0).extractLsb' 0 8).toNat = cmd

/-- A request is answered: GO reads 0 again, STATUS and the response stand, and nothing changes but the hub. -/
def Answered (i : Instr) (s : State) (status : Nat) (ok : State → Prop) : Prop :=
  ∃ t, exec i s = .next t ∧ t.hub.mailbox = { s.hub.mailbox with
      go := false, status := status, response := t.hub.mailbox.response } ∧
    ok t ∧ t.mem = s.mem ∧ t.warps = s.warps ∧ t.cores = s.cores ∧ t.launches = s.launches ∧ t.hub.parts = s.hub.parts

/-- One address space of the table changes, to what is given, and no other. -/
def OnlyAsid (s : State) (a : Nat) (q : Asid) (t : State) : Prop :=
  t.asidOf a = q ∧ ∀ j, j ≠ a → t.asidOf j = s.asidOf j

/-- A request is answered and the address spaces stay as they are. -/
def AsidsSame (s t : State) : Prop := t.hub.asids = s.hub.asids

/-- Entry `e` of the page tables (R395). -/
def tableEntry (s : State) (e : Nat) : Leaf := aget Leaf.zero s.hub.ptes e

/-- Entry `e` is one of those that hold the leaf of the page of 2^`sh` bytes at `va` (R395): 64 for a page of 32 MiB. -/
def PageEntry (s : State) (a va sh e : Nat) : Prop :=
  ∃ t, table2 s a va = some t ∧
    if sh = 30 then e = t / 16 + ix2 va
    else ∃ u, s.below t (ix2 va) = some u ∧ u / 16 + ix3 va ≤ e ∧ e < u / 16 + ix3 va + 2 ^ (sh - 19)

/-- None of a page's entries is one of the pointers that lead to it. -/
def PageApart (s : State) (a va sh : Nat) : Prop :=
  ∀ e, PageEntry s a va sh e → e ≠ s.rootOf a / 16 + ix1 va ∧
    (sh ≠ 30 → ∀ t, table2 s a va = some t → e ≠ t / 16 + ix2 va)

end Sys2Proof.Machine.Claim

/-- R209, R219, R220, R292, R394, R395, R401, R405, R410: each mailbox command's effect, and its refusals: FORM for an
address space that does not exist, DENIED outside the secured session of a SECURE one, BUSY while a launch exists,
EXHAUSTED for a full label table or without a place for a page table, ENTROPY without a random source. The layouts of ACL, CRED
and the answer of LHANDLE, and where a new page table stands, are the model's choice (log entry 5). -/
def Sys2Proof.Machine.Claim.MailboxCommands : Prop :=
  ∀ (s : State),
    let a := ((reqDw s 0).extractLsb' 8 13).toNat
    let q := s.asidOf a
    let va := (reqDw s 1).toNat
    let head := (reqDw s 0).extractLsb' 21 43 = 0
    let lawful := head ∧ q.valid = true ∧ (q.secure = true → q.session = true)
    (∀ c ∈ [(Instr.asidDestroy, 2), (.lhandle, 3), (.map, 4), (.unmap, 5), (.settag, 6), (.acl, 7), (.cred, 8), (.ctxkey, 9)],
      Asks s c.2 → (¬ head ∨ q.valid = false → Answered c.1 s 5 (AsidsSame s)) ∧
        (head → q.valid = true → 3 ≤ c.2 → c.2 ≤ 8 → q.secure = true → q.session = false →
          Answered c.1 s 1 (AsidsSame s))) ∧
    (Asks s 1 → head → q.valid = false → (reqDw s 1).extractLsb' 1 63 = 0 →
      Answered .asidCreate s 0 (OnlyAsid s a { q with
        valid := true, secure := (reqDw s 1).getLsbD 0, session := false, labels := [], endorse := [], acls := []
        creds := [], key := none, saves := 0 })) ∧
    (Asks s 1 → q.valid = true → Answered .asidCreate s 5 (AsidsSame s)) ∧
    (Asks s 2 → head → q.valid = true →
      (asidBusy s a = true → Answered .asidDestroy s 3 (AsidsSame s)) ∧
      (asidBusy s a = false → Answered .asidDestroy s 0 fun t => (t.asidOf a).valid = false ∧ (t.asidOf a).labels = [] ∧
        (t.asidOf a).key = none ∧ ∀ j, j ≠ a → t.asidOf j = s.asidOf j)) ∧
    (Asks s 3 → lawful →
      (∀ l, reqOwners s = some l → Binds s a l → Answered .lhandle s 0 fun t =>
        setOf (t.asidOf a).labels (aget 0 t.hub.mailbox.response 0).toNat = some l ∨
          ((t.asidOf a).labels = q.labels ∧
            aget 0 t.hub.mailbox.response 0 = BitVec.ofNat 64 ((handleIn q.labels l).getD 0))) ∧
      (∀ l, reqOwners s = some l → l ≠ [] → bindIn q.labels l = none → Answered .lhandle s 2 (AsidsSame s)) ∧
      (reqOwners s = none → Answered .lhandle s 5 (AsidsSame s))) ∧
    (Asks s 4 → lawful →
      let lf : Leaf := ⟨reqDw s 2, reqDw s 3⟩
      ∀ c ∈ [(1, 19), (2, 25), (3, 30)], (lf.dw.extractLsb' 3 2).toNat = c.1 → leafOk lf c.1 c.2 = true → va < 2 ^ 52 →
        va % 2 ^ c.2 = 0 → otherSize s a va c.2 = false → lf.tag.getLsbD 34 = false →
        setOf q.labels (lf.tag.extractLsb' 0 12).toNat ≠ none → (∀ f ∈ pageFrames lf.frame c.2, frameHeld s f = false) →
        PageApart s a va c.2 →
        (putLeaf s a va c.2 lf ≠ none → Answered .map s 0 fun t => leafAt t a va = some (lf, c.2) ∧
          (∀ e, PageEntry t a va c.2 e → tableEntry t e = lf) ∧
          (∀ e, ¬ PageEntry t a va c.2 e → pointerOk (tableEntry s e) = true → tableEntry t e = tableEntry s e) ∧
          AsidsSame s t) ∧
        (putLeaf s a va c.2 lf = none → Answered .map s 2 fun t => t.hub.ptes = s.hub.ptes ∧ AsidsSame s t)) ∧
    (∀ lf sh, lawful → leafAt s a va = some (lf, sh) → va < 2 ^ 52 → va % 2 ^ sh = 0 → PageApart s a va sh →
      (Asks s 5 → Answered .unmap s 0 fun t => leafAt t a va = none ∧ AsidsSame s t ∧
        ∀ e, (PageEntry s a va sh e → tableEntry t e = Leaf.zero) ∧
          (¬ PageEntry s a va sh e → tableEntry t e = tableEntry s e)) ∧
      (Asks s 6 → (reqDw s 3).extractLsb' 37 27 = 0 → setOf q.labels ((reqDw s 3).extractLsb' 0 12).toNat ≠ none →
        Answered .settag s 0 fun t => ∃ lf', leafAt t a va = some (lf', sh) ∧ lf'.dw = lf.dw ∧
          lf'.tag.extractLsb' 0 34 = (reqDw s 3).extractLsb' 0 34 ∧ lf'.tag.extractLsb' 34 30 = lf.tag.extractLsb' 34 30 ∧
          AsidsSame s t ∧ ∀ e, (PageEntry s a va sh e → tableEntry t e = lf') ∧
            (¬ PageEntry s a va sh e → tableEntry t e = tableEntry s e))) ∧
    (lawful → leafAt s a va = none → (Asks s 5 → Answered .unmap s 5 (AsidsSame s)) ∧
      (Asks s 6 → Answered .settag s 5 (AsidsSame s))) ∧
    (Asks s 7 → lawful →
      let h := ((reqDw s 1).extractLsb' 0 20).toNat
      let n := ((reqDw s 1).extractLsb' 32 5).toNat
      let ps := (List.range n).map fun k => reqBits s (128 + 24 * k) 24
      h ≠ 0 → n ≤ 16 → (reqDw s 1).extractLsb' 20 12 = 0 → (reqDw s 1).extractLsb' 37 27 = 0 → 0 ∉ ps →
      Answered .acl s 0 (OnlyAsid s a { q with acls := kset q.acls h ps })) ∧
    (Asks s 8 → lawful →
      let d := reqDw s 1
      let n := (d.extractLsb' 4 5).toNat
      let m := (d.extractLsb' 16 5).toNat
      let os := (List.range n).map fun k => reqBits s (192 + 20 * k) 20
      let ps := (List.range m).map fun k => reqBits s (192 + 20 * n + 24 * k) 24
      reqDw s 2 ≠ 0 → 20 * n + 24 * m ≤ 320 → 0 ∉ os → 0 ∉ ps → d.extractLsb' 1 3 = 0 → d.extractLsb' 9 7 = 0 →
      d.extractLsb' 21 43 = 0 →
      Answered .cred s 0 (OnlyAsid s a { q with creds := kset q.creds (reqDw s 2).toNat ⟨os, ps, d.getLsbD 0⟩ })) ∧
    (Asks s 9 → head → q.valid = true →
      (asidBusy s a = true → Answered .ctxkey s 3 (AsidsSame s)) ∧
      (asidBusy s a = false → s.hub.rngOff = true → Answered .ctxkey s 4 (AsidsSame s)) ∧
      (asidBusy s a = false → s.hub.rngOff = false → (∃ key, Answered .ctxkey s 0 (OnlyAsid s a { q with key := some key })) ∨
        Answered .ctxkey s 4 fun t => AsidsSame s t ∧ t.hub.rngOff = true)) ∧
    (let d := reqDw s 1
     let tier := (d.extractLsb' 0 2).toNat
     let f := (d.extractLsb' 19 33).toNat
     let formed := d.extractLsb' 52 12 = 0 ∧ d.extractLsb' 2 17 = 0 ∧ tier < 2
     (Asks s 0x0A → formed →
      (frameMapped s f = false → frameHeld s f = false → Answered .pooladd s 0 fun t =>
        (∀ g, g ∈ t.hub.pool tier ↔ g = f ∨ g ∈ s.hub.pool tier) ∧ t.hub.pool (1 - tier) = s.hub.pool (1 - tier)) ∧
      (frameMapped s f = true ∨ frameHeld s f = true → Answered .pooladd s 5 fun t => ∀ k, t.hub.pool k = s.hub.pool k)) ∧
     (Asks s 0x0B → formed →
      let used := ∃ m ∈ s.hub.migrations, m.begun = true ∧ (m.new = f ∨ m.old = f)
      (used → Answered .pooldel s 3 fun t => ∀ k, t.hub.pool k = s.hub.pool k) ∧
      (¬ used → f ∈ s.hub.pool tier → Answered .pooldel s 0 fun t =>
        (∀ g, g ∈ t.hub.pool tier ↔ g ≠ f ∧ g ∈ s.hub.pool tier) ∧ t.hub.pool (1 - tier) = s.hub.pool (1 - tier))) ∧
     (¬ formed → (Asks s 0x0A → Answered .pooladd s 5 fun t => ∀ k, t.hub.pool k = s.hub.pool k) ∧
      (Asks s 0x0B → Answered .pooldel s 5 fun t => ∀ k, t.hub.pool k = s.hub.pool k)))

/-- R398: the debug commands on a warp that HALT stopped, in an address space with DBG: reading a V, G, P, M or system
register or a lane's PC, writing a V or G register whose label stays, and resuming; on any other warp a command is
refused; DPOP takes the head record of the halt queue. -/
def Sys2Proof.Machine.Claim.DebugCommands : Prop :=
  ∀ (s : State) (x : Ctx),
    let w := ((s.hub.debugBlock.dsel.extractLsb' 5 10).toNat) * 32 + (s.hub.debugBlock.dsel.extractLsb' 0 5).toNat
    let d := s.hub.debugBlock
    let item := (d.dreg.extractLsb' 12 4).toNat
    let r := (d.dreg.extractLsb' 6 6).toNat
    let l := (d.dreg.extractLsb' 0 5).toNat
    (dev s w = some x → x.w.status = .halted → (s.asidOf x.asid).dbg = true →
      let q := x.w.regs
      let reads := fun (v : Word) (lab : Label) => exec .debugRead s = .next { s with hub := { s.hub with debugBlock := { d with
        ddata := v, dlabel := BitVec.ofNat 64 (handleOf s x.asid lab), dstat := 1 } } }
      (item = 0 → reads (q.getV r l) (q.labV r l)) ∧ (item = 1 → reads (q.getG r) (q.labG r)) ∧
      (item = 2 → r < 8 → reads (if (q.getP r).getLsbD l then 1 else 0) (q.labP r l)) ∧
      (item = 3 → r < 8 → reads ((q.getM r).zeroExtend 64) (q.labM r)) ∧
      (item = 4 → sysNamed r = true → perLane r = false → reads (sysValue x s r).1 (sysValue x s r).2) ∧
      (item = 5 → reads (x.w.pcOf l) []) ∧
      (item = 0 → ∃ t w', exec .debugWrite s = .next t ∧ t.warp w = some w' ∧ w'.regs.getV r l = d.ddata ∧
        w'.regs.labV r l = q.labV r l ∧ (∀ e k, k < 32 → ¬ (e = r ∧ k = l) → w'.regs.getV e k = q.getV e k) ∧
        w'.regs.g = q.g ∧ t.hub.debugBlock = { d with dstat := 1 } ∧ OtherWarps s t w ∧ t.mem = s.mem) ∧
      (item = 1 → ∃ t w', exec .debugWrite s = .next t ∧ t.warp w = some w' ∧ w'.regs.getG r = d.ddata ∧
        w'.regs.labG r = q.labG r ∧ (∀ e, e ≠ r → w'.regs.getG e = q.getG e) ∧ w'.regs.v = q.v ∧
        t.hub.debugBlock = { d with dstat := 1 } ∧ OtherWarps s t w ∧ t.mem = s.mem) ∧
      (2 ≤ item → exec .debugWrite s = .next { s with hub := { s.hub with debugBlock := { d with dstat := 2 } } }) ∧
      (∃ t w', exec .debugResume s = .next t ∧ t.warp w = some w' ∧
        w'.status = (if 2 ≤ (s.partOf (x.part s)).state then .preempted
          else if (s.core x.core).frozen then .frozen else .running) ∧
        w'.haltPc = 0 ∧ w'.regs = q ∧ w'.pc = x.w.pc ∧ t.hub.debugBlock = { d with dstat := 1 } ∧ OtherWarps s t w ∧
        t.mem = s.mem)) ∧
    ((∀ x, dev s w = some x → x.w.status ≠ .halted ∨ (s.asidOf x.asid).dbg = false) →
      ∀ i ∈ [Instr.debugRead, .debugWrite, .debugResume],
        exec i s = .next { s with hub := { s.hub with debugBlock := { d with dstat := 2 } } }) ∧
    (∀ h rest, d.halts = h :: rest → exec .dpop s = .next { s with hub := { s.hub with debugBlock := { d with
      halts := rest ++ d.late.take 1, late := d.late.drop 1 } } })

/-- R398, R405: the mailbox commands of the Lantern pair and the commands of the debug block.  What the model chooses in them is
in log entries 5 and 29. -/
def Obligations.MailboxAndDebug : Prop := Sys2Proof.Machine.Claim.MailboxCommands ∧ Sys2Proof.Machine.Claim.DebugCommands

namespace Sys2Proof.Machine.Claim

/-! ## The whole machine: decoding, the step, reset, the memories -/

/-- Every saved context's slice stands in the memories' canonical form. -/
abbrev ContextOk (x : Context) : Prop := tabOk emptyByte 0 x.gal = true ∧ tabOk emptyLabel 0 x.glab = true

/-- The memories stand in their canonical form, and so does the slice of every context that a core's shadow planes or
the save area hold. -/
def MemoryInv (s : State) : Prop :=
  memoryOk s ∧ (∀ c ∈ s.cores, ∀ x, c.2.shadow = some x → ContextOk x) ∧
    ∀ p ∈ s.hub.parts, ∀ x ∈ p.2.saved, ContextOk x.2

end Sys2Proof.Machine.Claim

/-- R12 to R37: decoding the word of a well-formed instruction gives it back, with every operand; and every word that
decodes is the word of its instruction, so that no two words mean the same and no reserved encoding falls to a
neighbour. -/
def Obligations.DecodeEncode : Prop :=
  (∀ i w, wellFormed i = true → encode i = some w → decode w = some i) ∧
    ∀ w i, decode w = some i → wellFormed i = true ∧ encode i = some w

/-- R12 to R37: words that the specification's examples write out decode to the instructions they stand for. -/
def Obligations.ExampleWords : Prop :=
  ∀ p ∈ [(0xBF804894#32, Instr.clauseHeader 0x009#12 1#4 2#4 1#1), (0xBF800278#32, .clauseHeader 0#12 4#4 15#4 0#1),
    (0x0071461E#32, .vadd false 7#3 5#6 6#6 7#6 2#2), (0x00B08211#32, .vaddsS false 3#3 2#6 2#6 4#6 1#2),
    (0x51F28B31#32, .vfma true 7#3 10#6 11#6 12#6 1#2), (0x0C72820E#32, .vcmp false 7#3 1#3 2#3 2#6 3#6 2#2),
    (0x1A724848#32, .vld32 false 7#3 9#6 2#4 1#4 4#5 0#1), (0x80021060#32, .gadd false 1#6 2#6 3#6),
    (0x8109FFFF#32, .gmovi false 4#6 0x1FFFF#17), (0xC8510006#32, .bra 1#1 2#3 1#3 6#16),
    (0xE1807C01#32, .tscl true 0#3 0x3E00#16 1#1), (0x1E711580#32, .atomXadd false 7#3 4#6 5#4 6#4),
    (0x958020A0#32, .lclear false 4#6 5#6), (0x9B1A4000#32, .rstat false 13#6 8#6),
    (0xA58C3800#32, .ruleq false 6#6 7#6), (0xA8004120#32, .etail false 8#6 9#6), (0xAD8020A0#32, .einj false 4#6 5#6),
    (0xF0800000#32, .tret)], decode p.1 = some p.2

/-- R26, R46, R73, R376, log entries 2 and 8: a warp whose turn it is in its quadrant runs the instruction whose word, as it was
decoded before the clause started, stands at the warp's place in its clause, or, between clauses, the header that stands in memory
at its lane group's PC; a warp whose turn it is not does nothing; a device's turn runs that device's step. After each the quiescent
warps of a stopping partition and of a cancelled launch stop, and where there is neither the step adds nothing. -/
def Obligations.StepRunsDecoded : Prop :=
  ∀ (s : State) (rest : List Sel), s.hub.thermal = false →
    (∀ c n w x pa lf, s.agenda = .issue c n :: rest →
      let u := { s with agenda := rest, cur := c * 32 + n }
      let word := BitVec.ofNat 32 (readNum s.mem.dram pa 4)
      u.warp u.cur = some w → dev u u.cur = some x → w.canIssue = true →
      (quadPick s c (n / 8) ≠ some n → step s = .next { s with agenda := rest }) ∧
      (quadPick s c (n / 8) = some n →
        (∀ r v i, w.run = some r → r.words[(r.pos - r.hdr).toNat / 4]? = some v → decode v = some i →
          (∀ a b d f, i ≠ .clauseHeader a b d f) → step s = settled (exec i u)) ∧
        ∀ p g a b d f, w.run = none → w.group = some (p, g) → translate s x.asid p.toNat = some (pa, lf) →
          leafX lf = true → contained s pa = false → decode word = some (.clauseHeader a b d f) →
          step s = settled (exec (.clauseHeader a b d f) u))) ∧
    (∀ i, s.agenda = .device i :: rest → step s = settled (exec i { s with agenda := rest })) ∧
    (∀ t : State, (∀ p ∈ t.hub.parts, p.2.state ≠ 2) → (∀ p ∈ t.launches, p.2.cancelled = true → p.2.completed ≠ none) →
      settled (.next t) = .next t) ∧
    (∀ t : State, ∃ v, settled (.next t) = .next v ∧ { v with warps := t.warps } = t ∧
      ∀ k, v.warp k = t.warp k ∨ ∃ w w', t.warp k = some w ∧ v.warp k = some w' ∧ quiescent t k w = true ∧ w.live ≠ 0 ∧
        (w'.status = .stopped ∨ w'.status = .preempted) ∧ w'.regs = w.regs ∧ w'.pc = w.pc) ∧
    (∀ f, settled (.fault f) = .fault f) ∧ ∀ r, settled (.refused r) = .refused r

/-- R387, R393, R394, R396, R399, R411: at reset no launch, warp or address space exists, every register that the
specification gives a reset value holds it, and every byte and label reads as log entry 3 says; the memories stand in
canonical form. -/
def Obligations.ResetState : Prop :=
  let s := State.reset
  s.launches = [] ∧ (∀ k, s.warp k = none) ∧ s.rings = [] ∧ s.chains = [] ∧
    (∀ c, let k := s.core c
      k.block = none ∧ k.fenced = false ∧ k.frozen = false ∧ k.latec = 0 ∧ k.clk = 0 ∧ k.shadow = none ∧ k.tiles = []) ∧
    (∀ a, let q := s.asidOf a
      q.valid = false ∧ q.dbg = false ∧ q.part = 0 ∧ q.ptroot = 0 ∧ q.sumpd = 0 ∧ q.slogd = 0 ∧ q.labels = []) ∧
    (∀ p, let q := s.partOf p
      q.state = 0 ∧ q.req = 0 ∧ q.pend = false ∧ q.rej = false ∧ q.csa = 0 ∧ q.maplen = 0 ∧ ∀ i, aget 0 q.smap i = 0) ∧
    (∀ m, let q := s.ctrl m
      q.hptc = 0xFFFF000003E80000#64 ∧ q.rhcfg = 0x10000190#64 ∧ q.proposed = 0 ∧ q.migrated = 0 ∧ q.skipped = 0 ∧ q.careplay = 0 ∧ q.contained = false) ∧
    (∀ k, let p := s.port k
      p.state = 0 ∧ p.retries = 0 ∧ p.macfail = 0) ∧
    s.hub.hubctl = 0 ∧ s.hub.qtbase = 0 ∧ s.hub.astbase = 0 ∧ s.hub.poolwm = 0 ∧ s.hub.pool0 = [] ∧ s.hub.pool1 = [] ∧
    s.hub.commerr = 0 ∧ (∀ n, (s.comm n).dw = 0) ∧ s.hub.debugBlock = ⟨0, 0, 0, 0, 0, [], []⟩ ∧
    (∀ a, readByte s.mem.gal a = 0 ∧ readByte s.mem.dram a = 0 ∧ granLabel s.mem a = []) ∧ MemoryInv s

/-- The canonical form of the memories and of saved slices is kept by every step: equal memories are equal lists in
every state that a run reaches. -/
def Obligations.StepKeepsMemory : Prop :=
  ∀ s t : State, MemoryInv s → step s = .next t → MemoryInv t
end

