-- ==== Sys2Proof/Laws/Tables.lean ====
section
/-! SUPPORT. Laws of the sparse collections and of the memories: a read after a write, and the canonical form kept. -/
namespace Sys2Proof.Machine

variable {β : Type}

/-! ## Reads after writes -/

@[simp] theorem kget_kset_same (t : Tab β) (k : Nat) (v : β) : kget (kset t k v) k = some v := by
  induction t with
  | nil => simp [kset, kget]
  | cons p t ih =>
    obtain ⟨j, x⟩ := p
    simp only [kset]
    split
    · simp [kget]
    · split
      · simp [kget]
      · simp [kget, *]

theorem kget_kset_ne (t : Tab β) {k j : Nat} (v : β) (h : j ≠ k) : kget (kset t k v) j = kget t j := by
  induction t with
  | nil => simp [kset, kget, Ne.symm h]
  | cons p t ih =>
    obtain ⟨i, x⟩ := p
    simp only [kset]
    split
    · subst_vars; simp [kget, Ne.symm h]
    · split
      · simp [kget, Ne.symm h]
      · simp [kget, ih]

@[simp] theorem kget_kdel_same (t : Tab β) (k : Nat) : kget (kdel t k) k = none := by
  induction t with
  | nil => rfl
  | cons p t ih =>
    obtain ⟨j, x⟩ := p
    simp only [kdel]
    split
    · exact ih
    · simp [kget, *]

theorem kget_kdel_ne (t : Tab β) {k j : Nat} (h : j ≠ k) : kget (kdel t k) j = kget t j := by
  induction t with
  | nil => rfl
  | cons p t ih =>
    obtain ⟨i, x⟩ := p
    simp only [kdel]
    split
    · subst_vars; simp [kget, ih, Ne.symm h]
    · simp [kget, ih]

theorem kdel_eq_filter (t : Tab β) (k : Nat) : kdel t k = t.filter fun p => p.1 != k := by
  induction t with
  | nil => rfl
  | cons q t ih =>
    obtain ⟨j, x⟩ := q
    simp only [kdel, List.filter_cons, ih]
    by_cases h : j = k <;> simp [h]

variable [DecidableEq β]

@[simp] theorem aget_aset_same (d : β) (t : Tab β) (k : Nat) (v : β) : aget d (aset d t k v) k = v := by
  unfold aget aset
  split
  · simp [*]
  · simp

theorem aget_aset_ne (d : β) (t : Tab β) {k j : Nat} (v : β) (h : j ≠ k) : aget d (aset d t k v) j = aget d t j := by
  unfold aget aset
  split
  · rw [kget_kdel_ne t h]
  · rw [kget_kset_ne t v h]

theorem aget_aset (d : β) (t : Tab β) (k j : Nat) (v : β) :
    aget d (aset d t k v) j = if j = k then v else aget d t j := by
  split
  · subst_vars; simp
  · exact aget_aset_ne d t v ‹_›

/-! ## The canonical form -/

theorem tabOk_mono {d : β} {t : Tab β} {a b : Nat} (h : a ≤ b) (ht : tabOk d b t = true) : tabOk d a t = true := by
  cases t with
  | nil => rfl
  | cons p t =>
    obtain ⟨k, v⟩ := p
    simp only [tabOk, Bool.and_eq_true, decide_eq_true_eq] at ht ⊢
    exact ⟨⟨le_trans h ht.1.1, ht.1.2⟩, ht.2⟩

theorem tabOk_kset {d : β} {t : Tab β} {b k : Nat} {v : β} (ht : tabOk d b t = true) (hk : b ≤ k) (hv : v ≠ d) :
    tabOk d b (kset t k v) = true := by
  induction t generalizing b with
  | nil => simp [kset, tabOk, hk, hv]
  | cons p t ih =>
    obtain ⟨j, x⟩ := p
    simp only [tabOk, Bool.and_eq_true, decide_eq_true_eq] at ht
    obtain ⟨⟨hb, hx⟩, htl⟩ := ht
    simp only [kset]
    split
    · subst_vars; simp [tabOk, hb, hv, htl]
    · split
      · simp only [tabOk, Bool.and_eq_true, decide_eq_true_eq]
        exact ⟨⟨hk, hv⟩, ⟨by omega, hx⟩, htl⟩
      · simp only [tabOk, Bool.and_eq_true, decide_eq_true_eq]
        exact ⟨⟨hb, hx⟩, ih htl (by omega)⟩

theorem tabOk_filter {d : β} {t : Tab β} {b : Nat} (p : Nat × β → Bool) (ht : tabOk d b t = true) :
    tabOk d b (t.filter p) = true := by
  induction t generalizing b with
  | nil => rfl
  | cons q t ih =>
    obtain ⟨j, x⟩ := q
    simp only [tabOk, Bool.and_eq_true, decide_eq_true_eq] at ht
    obtain ⟨⟨hb, hx⟩, htl⟩ := ht
    simp only [List.filter_cons]
    split
    · simp [tabOk, hb, hx, ih htl]
    · exact ih (tabOk_mono (by omega) htl)

theorem tabOk_kdel {d : β} {t : Tab β} {b k : Nat} (ht : tabOk d b t = true) : tabOk d b (kdel t k) = true := by
  rw [kdel_eq_filter]; exact tabOk_filter _ ht

theorem tabOk_aset {d : β} {t : Tab β} {k : Nat} {v : β} (ht : tabOk d 0 t = true) : tabOk d 0 (aset d t k v) = true := by
  unfold aset
  split
  · exact tabOk_kdel ht
  · exact tabOk_kset ht (Nat.zero_le _) ‹_›

/-! ## Bytes -/

@[simp] theorem readByte_writeByte_same (m : List Host.Cell) (a : Nat) (v : Byte) : readByte (writeByte m a v) a = v := by
  simp [readByte, writeByte]

theorem readByte_writeByte_ne (m : List Host.Cell) {a b : Nat} (v : Byte) (h : b ≠ a) :
    readByte (writeByte m a v) b = readByte m b := by
  simp [readByte, writeByte, aget_aset_ne _ _ _ h]

theorem tabOk_writeByte {m : List Host.Cell} {a : Nat} {v : Byte} (h : tabOk emptyByte 0 m = true) :
    tabOk emptyByte 0 (writeByte m a v) = true := tabOk_aset h

theorem tabOk_writeBytes {m : List Host.Cell} {a : Nat} {bs : List Byte} (h : tabOk emptyByte 0 m = true) :
    tabOk emptyByte 0 (writeBytes m a bs) = true := by
  induction bs generalizing m a with
  | nil => exact h
  | cons b t ih => exact ih (tabOk_writeByte h)

/-- A write leaves every byte below it and above it alone. -/
theorem readByte_writeBytes_out (m : List Host.Cell) (a : Nat) (bs : List Byte) {b : Nat} (h : b < a ∨ a + bs.length ≤ b) :
    readByte (writeBytes m a bs) b = readByte m b := by
  induction bs generalizing m a with
  | nil => rfl
  | cons x t ih =>
    simp only [List.length_cons] at h
    simp only [writeBytes]
    rw [ih _ _ (by omega), readByte_writeByte_ne _ _ (by omega)]

/-- A read of the bytes a write has stored gives them. -/
theorem readBytes_writeBytes_same (m : List Host.Cell) (a : Nat) (bs : List Byte) :
    readBytes (writeBytes m a bs) a bs.length = bs := by
  induction bs generalizing m a with
  | nil => rfl
  | cons x t ih =>
    simp only [writeBytes, List.length_cons, readBytes]
    rw [ih, readByte_writeBytes_out _ _ _ (by omega), readByte_writeByte_same]

theorem readBytes_congr {m n : List Host.Cell} {a k : Nat} (h : ∀ b, a ≤ b → b < a + k → readByte m b = readByte n b) :
    readBytes m a k = readBytes n a k := by
  induction k generalizing a with
  | zero => rfl
  | succ k ih =>
    simp only [readBytes]
    rw [h a (le_refl _) (by omega), ih fun b h1 h2 => h b (by omega) (by omega)]

/-! ## The memories -/

theorem wf_iff (m : Memory) : m.wf = true ↔
    tabOk emptyByte 0 m.gal = true ∧ tabOk emptyLabel 0 m.glab = true ∧ tabOk emptyByte 0 m.dram = true := by
  simp [Memory.wf, and_assoc]

theorem wf_writeGal {m : Memory} {pa : Nat} {bs : List Byte} (h : m.wf = true) : (m.writeGal pa bs).wf = true := by
  rw [wf_iff] at h ⊢
  exact ⟨tabOk_writeBytes h.1, h.2⟩

theorem wf_writeDram {m : Memory} {pa : Nat} {bs : List Byte} (h : m.wf = true) : (m.writeDram pa bs).wf = true := by
  rw [wf_iff] at h ⊢
  exact ⟨h.1, h.2.1, tabOk_writeBytes h.2.2⟩

theorem wf_setGranLabel {m : Memory} {pa : Nat} {l : Label} (h : m.wf = true) : (setGranLabel m pa l).wf = true := by
  rw [wf_iff] at h ⊢
  exact ⟨h.1, tabOk_aset h.2.1, h.2.2⟩

@[simp] theorem granLabel_setGranLabel_same (m : Memory) (pa : Nat) (l : Label) :
    granLabel (setGranLabel m pa l) pa = l := by
  simp [granLabel, setGranLabel]

theorem granLabel_setGranLabel_ne (m : Memory) {pa qa : Nat} (l : Label) (h : qa / 64 ≠ pa / 64) :
    granLabel (setGranLabel m pa l) qa = granLabel m qa := by
  simp [granLabel, setGranLabel, aget_aset_ne _ _ _ h]

end Sys2Proof.Machine
end

