-- ==== Sys2Proof/Laws/State.lean ====
section
/-! SUPPORT. Field lemmas of the state's updates: one for each field that an update leaves alone, and what it does to its
own. -/
namespace Sys2Proof.Machine

/-! ## setCore -/

@[simp] theorem State.setCore_mem (s : State) (c : Nat) (k : Core) : (s.setCore c k).mem = s.mem := rfl
@[simp] theorem State.setCore_warps (s : State) (c : Nat) (k : Core) : (s.setCore c k).warps = s.warps := rfl
@[simp] theorem State.setCore_rings (s : State) (c : Nat) (k : Core) : (s.setCore c k).rings = s.rings := rfl
@[simp] theorem State.setCore_chains (s : State) (c : Nat) (k : Core) : (s.setCore c k).chains = s.chains := rfl
@[simp] theorem State.setCore_haltAt (s : State) (c : Nat) (k : Core) : (s.setCore c k).haltAt = s.haltAt := rfl
@[simp] theorem State.setCore_launches (s : State) (c : Nat) (k : Core) : (s.setCore c k).launches = s.launches := rfl
@[simp] theorem State.setCore_nextLaunch (s : State) (c : Nat) (k : Core) : (s.setCore c k).nextLaunch = s.nextLaunch := rfl
@[simp] theorem State.setCore_hub (s : State) (c : Nat) (k : Core) : (s.setCore c k).hub = s.hub := rfl
@[simp] theorem State.setCore_cur (s : State) (c : Nat) (k : Core) : (s.setCore c k).cur = s.cur := rfl
@[simp] theorem State.setCore_free (s : State) (c : Nat) (k : Core) : (s.setCore c k).free = s.free := rfl
@[simp] theorem State.setCore_tick (s : State) (c : Nat) (k : Core) : (s.setCore c k).tick = s.tick := rfl
@[simp] theorem State.setCore_rr (s : State) (c : Nat) (k : Core) : (s.setCore c k).rr = s.rr := rfl
@[simp] theorem State.setCore_round (s : State) (c : Nat) (k : Core) : (s.setCore c k).round = s.round := rfl
@[simp] theorem State.setCore_agenda (s : State) (c : Nat) (k : Core) : (s.setCore c k).agenda = s.agenda := rfl

/-! ## modCore -/

@[simp] theorem State.modCore_mem (s : State) (c : Nat) (f : Core → Core) : (s.modCore c f).mem = s.mem := rfl
@[simp] theorem State.modCore_warps (s : State) (c : Nat) (f : Core → Core) : (s.modCore c f).warps = s.warps := rfl
@[simp] theorem State.modCore_rings (s : State) (c : Nat) (f : Core → Core) : (s.modCore c f).rings = s.rings := rfl
@[simp] theorem State.modCore_chains (s : State) (c : Nat) (f : Core → Core) : (s.modCore c f).chains = s.chains := rfl
@[simp] theorem State.modCore_haltAt (s : State) (c : Nat) (f : Core → Core) : (s.modCore c f).haltAt = s.haltAt := rfl
@[simp] theorem State.modCore_launches (s : State) (c : Nat) (f : Core → Core) : (s.modCore c f).launches = s.launches := rfl
@[simp] theorem State.modCore_nextLaunch (s : State) (c : Nat) (f : Core → Core) : (s.modCore c f).nextLaunch = s.nextLaunch := rfl
@[simp] theorem State.modCore_hub (s : State) (c : Nat) (f : Core → Core) : (s.modCore c f).hub = s.hub := rfl
@[simp] theorem State.modCore_cur (s : State) (c : Nat) (f : Core → Core) : (s.modCore c f).cur = s.cur := rfl
@[simp] theorem State.modCore_free (s : State) (c : Nat) (f : Core → Core) : (s.modCore c f).free = s.free := rfl
@[simp] theorem State.modCore_tick (s : State) (c : Nat) (f : Core → Core) : (s.modCore c f).tick = s.tick := rfl
@[simp] theorem State.modCore_rr (s : State) (c : Nat) (f : Core → Core) : (s.modCore c f).rr = s.rr := rfl
@[simp] theorem State.modCore_round (s : State) (c : Nat) (f : Core → Core) : (s.modCore c f).round = s.round := rfl
@[simp] theorem State.modCore_agenda (s : State) (c : Nat) (f : Core → Core) : (s.modCore c f).agenda = s.agenda := rfl

/-! ## setWarp -/

@[simp] theorem State.setWarp_mem (s : State) (k : Nat) (w : Warp) : (s.setWarp k w).mem = s.mem := rfl
@[simp] theorem State.setWarp_cores (s : State) (k : Nat) (w : Warp) : (s.setWarp k w).cores = s.cores := rfl
@[simp] theorem State.setWarp_rings (s : State) (k : Nat) (w : Warp) : (s.setWarp k w).rings = s.rings := rfl
@[simp] theorem State.setWarp_chains (s : State) (k : Nat) (w : Warp) : (s.setWarp k w).chains = s.chains := rfl
@[simp] theorem State.setWarp_haltAt (s : State) (k : Nat) (w : Warp) : (s.setWarp k w).haltAt = s.haltAt := rfl
@[simp] theorem State.setWarp_launches (s : State) (k : Nat) (w : Warp) : (s.setWarp k w).launches = s.launches := rfl
@[simp] theorem State.setWarp_nextLaunch (s : State) (k : Nat) (w : Warp) : (s.setWarp k w).nextLaunch = s.nextLaunch := rfl
@[simp] theorem State.setWarp_hub (s : State) (k : Nat) (w : Warp) : (s.setWarp k w).hub = s.hub := rfl
@[simp] theorem State.setWarp_cur (s : State) (k : Nat) (w : Warp) : (s.setWarp k w).cur = s.cur := rfl
@[simp] theorem State.setWarp_free (s : State) (k : Nat) (w : Warp) : (s.setWarp k w).free = s.free := rfl
@[simp] theorem State.setWarp_tick (s : State) (k : Nat) (w : Warp) : (s.setWarp k w).tick = s.tick := rfl
@[simp] theorem State.setWarp_rr (s : State) (k : Nat) (w : Warp) : (s.setWarp k w).rr = s.rr := rfl
@[simp] theorem State.setWarp_round (s : State) (k : Nat) (w : Warp) : (s.setWarp k w).round = s.round := rfl
@[simp] theorem State.setWarp_agenda (s : State) (k : Nat) (w : Warp) : (s.setWarp k w).agenda = s.agenda := rfl

/-! ## modWarp -/

@[simp] theorem State.modWarp_mem (s : State) (k : Nat) (f : Warp → Warp) : (s.modWarp k f).mem = s.mem := by unfold State.modWarp; split <;> rfl
@[simp] theorem State.modWarp_cores (s : State) (k : Nat) (f : Warp → Warp) : (s.modWarp k f).cores = s.cores := by unfold State.modWarp; split <;> rfl
@[simp] theorem State.modWarp_rings (s : State) (k : Nat) (f : Warp → Warp) : (s.modWarp k f).rings = s.rings := by unfold State.modWarp; split <;> rfl
@[simp] theorem State.modWarp_chains (s : State) (k : Nat) (f : Warp → Warp) : (s.modWarp k f).chains = s.chains := by unfold State.modWarp; split <;> rfl
@[simp] theorem State.modWarp_haltAt (s : State) (k : Nat) (f : Warp → Warp) : (s.modWarp k f).haltAt = s.haltAt := by unfold State.modWarp; split <;> rfl
@[simp] theorem State.modWarp_launches (s : State) (k : Nat) (f : Warp → Warp) : (s.modWarp k f).launches = s.launches := by unfold State.modWarp; split <;> rfl
@[simp] theorem State.modWarp_nextLaunch (s : State) (k : Nat) (f : Warp → Warp) : (s.modWarp k f).nextLaunch = s.nextLaunch := by unfold State.modWarp; split <;> rfl
@[simp] theorem State.modWarp_hub (s : State) (k : Nat) (f : Warp → Warp) : (s.modWarp k f).hub = s.hub := by unfold State.modWarp; split <;> rfl
@[simp] theorem State.modWarp_cur (s : State) (k : Nat) (f : Warp → Warp) : (s.modWarp k f).cur = s.cur := by unfold State.modWarp; split <;> rfl
@[simp] theorem State.modWarp_free (s : State) (k : Nat) (f : Warp → Warp) : (s.modWarp k f).free = s.free := by unfold State.modWarp; split <;> rfl
@[simp] theorem State.modWarp_tick (s : State) (k : Nat) (f : Warp → Warp) : (s.modWarp k f).tick = s.tick := by unfold State.modWarp; split <;> rfl
@[simp] theorem State.modWarp_rr (s : State) (k : Nat) (f : Warp → Warp) : (s.modWarp k f).rr = s.rr := by unfold State.modWarp; split <;> rfl
@[simp] theorem State.modWarp_round (s : State) (k : Nat) (f : Warp → Warp) : (s.modWarp k f).round = s.round := by unfold State.modWarp; split <;> rfl
@[simp] theorem State.modWarp_agenda (s : State) (k : Nat) (f : Warp → Warp) : (s.modWarp k f).agenda = s.agenda := by unfold State.modWarp; split <;> rfl

/-! ## modHub -/

@[simp] theorem State.modHub_mem (s : State) (f : Hub → Hub) : (s.modHub f).mem = s.mem := rfl
@[simp] theorem State.modHub_cores (s : State) (f : Hub → Hub) : (s.modHub f).cores = s.cores := rfl
@[simp] theorem State.modHub_warps (s : State) (f : Hub → Hub) : (s.modHub f).warps = s.warps := rfl
@[simp] theorem State.modHub_rings (s : State) (f : Hub → Hub) : (s.modHub f).rings = s.rings := rfl
@[simp] theorem State.modHub_chains (s : State) (f : Hub → Hub) : (s.modHub f).chains = s.chains := rfl
@[simp] theorem State.modHub_haltAt (s : State) (f : Hub → Hub) : (s.modHub f).haltAt = s.haltAt := rfl
@[simp] theorem State.modHub_launches (s : State) (f : Hub → Hub) : (s.modHub f).launches = s.launches := rfl
@[simp] theorem State.modHub_nextLaunch (s : State) (f : Hub → Hub) : (s.modHub f).nextLaunch = s.nextLaunch := rfl
@[simp] theorem State.modHub_cur (s : State) (f : Hub → Hub) : (s.modHub f).cur = s.cur := rfl
@[simp] theorem State.modHub_free (s : State) (f : Hub → Hub) : (s.modHub f).free = s.free := rfl
@[simp] theorem State.modHub_tick (s : State) (f : Hub → Hub) : (s.modHub f).tick = s.tick := rfl
@[simp] theorem State.modHub_rr (s : State) (f : Hub → Hub) : (s.modHub f).rr = s.rr := rfl
@[simp] theorem State.modHub_round (s : State) (f : Hub → Hub) : (s.modHub f).round = s.round := rfl
@[simp] theorem State.modHub_agenda (s : State) (f : Hub → Hub) : (s.modHub f).agenda = s.agenda := rfl

/-! ## modAsid -/

@[simp] theorem State.modAsid_mem (s : State) (a : Nat) (f : Asid → Asid) : (s.modAsid a f).mem = s.mem := rfl
@[simp] theorem State.modAsid_cores (s : State) (a : Nat) (f : Asid → Asid) : (s.modAsid a f).cores = s.cores := rfl
@[simp] theorem State.modAsid_warps (s : State) (a : Nat) (f : Asid → Asid) : (s.modAsid a f).warps = s.warps := rfl
@[simp] theorem State.modAsid_rings (s : State) (a : Nat) (f : Asid → Asid) : (s.modAsid a f).rings = s.rings := rfl
@[simp] theorem State.modAsid_chains (s : State) (a : Nat) (f : Asid → Asid) : (s.modAsid a f).chains = s.chains := rfl
@[simp] theorem State.modAsid_haltAt (s : State) (a : Nat) (f : Asid → Asid) : (s.modAsid a f).haltAt = s.haltAt := rfl
@[simp] theorem State.modAsid_launches (s : State) (a : Nat) (f : Asid → Asid) : (s.modAsid a f).launches = s.launches := rfl
@[simp] theorem State.modAsid_nextLaunch (s : State) (a : Nat) (f : Asid → Asid) : (s.modAsid a f).nextLaunch = s.nextLaunch := rfl
@[simp] theorem State.modAsid_cur (s : State) (a : Nat) (f : Asid → Asid) : (s.modAsid a f).cur = s.cur := rfl
@[simp] theorem State.modAsid_free (s : State) (a : Nat) (f : Asid → Asid) : (s.modAsid a f).free = s.free := rfl
@[simp] theorem State.modAsid_tick (s : State) (a : Nat) (f : Asid → Asid) : (s.modAsid a f).tick = s.tick := rfl
@[simp] theorem State.modAsid_rr (s : State) (a : Nat) (f : Asid → Asid) : (s.modAsid a f).rr = s.rr := rfl
@[simp] theorem State.modAsid_round (s : State) (a : Nat) (f : Asid → Asid) : (s.modAsid a f).round = s.round := rfl
@[simp] theorem State.modAsid_agenda (s : State) (a : Nat) (f : Asid → Asid) : (s.modAsid a f).agenda = s.agenda := rfl

/-! ## modPart -/

@[simp] theorem State.modPart_mem (s : State) (p : Nat) (f : Partition → Partition) : (s.modPart p f).mem = s.mem := rfl
@[simp] theorem State.modPart_cores (s : State) (p : Nat) (f : Partition → Partition) : (s.modPart p f).cores = s.cores := rfl
@[simp] theorem State.modPart_warps (s : State) (p : Nat) (f : Partition → Partition) : (s.modPart p f).warps = s.warps := rfl
@[simp] theorem State.modPart_rings (s : State) (p : Nat) (f : Partition → Partition) : (s.modPart p f).rings = s.rings := rfl
@[simp] theorem State.modPart_chains (s : State) (p : Nat) (f : Partition → Partition) : (s.modPart p f).chains = s.chains := rfl
@[simp] theorem State.modPart_haltAt (s : State) (p : Nat) (f : Partition → Partition) : (s.modPart p f).haltAt = s.haltAt := rfl
@[simp] theorem State.modPart_launches (s : State) (p : Nat) (f : Partition → Partition) : (s.modPart p f).launches = s.launches := rfl
@[simp] theorem State.modPart_nextLaunch (s : State) (p : Nat) (f : Partition → Partition) : (s.modPart p f).nextLaunch = s.nextLaunch := rfl
@[simp] theorem State.modPart_cur (s : State) (p : Nat) (f : Partition → Partition) : (s.modPart p f).cur = s.cur := rfl
@[simp] theorem State.modPart_free (s : State) (p : Nat) (f : Partition → Partition) : (s.modPart p f).free = s.free := rfl
@[simp] theorem State.modPart_tick (s : State) (p : Nat) (f : Partition → Partition) : (s.modPart p f).tick = s.tick := rfl
@[simp] theorem State.modPart_rr (s : State) (p : Nat) (f : Partition → Partition) : (s.modPart p f).rr = s.rr := rfl
@[simp] theorem State.modPart_round (s : State) (p : Nat) (f : Partition → Partition) : (s.modPart p f).round = s.round := rfl
@[simp] theorem State.modPart_agenda (s : State) (p : Nat) (f : Partition → Partition) : (s.modPart p f).agenda = s.agenda := rfl

/-! ## modLaunch -/

@[simp] theorem State.modLaunch_mem (s : State) (l : Nat) (f : Launch → Launch) : (s.modLaunch l f).mem = s.mem := by unfold State.modLaunch; split <;> rfl
@[simp] theorem State.modLaunch_cores (s : State) (l : Nat) (f : Launch → Launch) : (s.modLaunch l f).cores = s.cores := by unfold State.modLaunch; split <;> rfl
@[simp] theorem State.modLaunch_warps (s : State) (l : Nat) (f : Launch → Launch) : (s.modLaunch l f).warps = s.warps := by unfold State.modLaunch; split <;> rfl
@[simp] theorem State.modLaunch_rings (s : State) (l : Nat) (f : Launch → Launch) : (s.modLaunch l f).rings = s.rings := by unfold State.modLaunch; split <;> rfl
@[simp] theorem State.modLaunch_chains (s : State) (l : Nat) (f : Launch → Launch) : (s.modLaunch l f).chains = s.chains := by unfold State.modLaunch; split <;> rfl
@[simp] theorem State.modLaunch_haltAt (s : State) (l : Nat) (f : Launch → Launch) : (s.modLaunch l f).haltAt = s.haltAt := by unfold State.modLaunch; split <;> rfl
@[simp] theorem State.modLaunch_nextLaunch (s : State) (l : Nat) (f : Launch → Launch) : (s.modLaunch l f).nextLaunch = s.nextLaunch := by unfold State.modLaunch; split <;> rfl
@[simp] theorem State.modLaunch_hub (s : State) (l : Nat) (f : Launch → Launch) : (s.modLaunch l f).hub = s.hub := by unfold State.modLaunch; split <;> rfl
@[simp] theorem State.modLaunch_cur (s : State) (l : Nat) (f : Launch → Launch) : (s.modLaunch l f).cur = s.cur := by unfold State.modLaunch; split <;> rfl
@[simp] theorem State.modLaunch_free (s : State) (l : Nat) (f : Launch → Launch) : (s.modLaunch l f).free = s.free := by unfold State.modLaunch; split <;> rfl
@[simp] theorem State.modLaunch_tick (s : State) (l : Nat) (f : Launch → Launch) : (s.modLaunch l f).tick = s.tick := by unfold State.modLaunch; split <;> rfl
@[simp] theorem State.modLaunch_rr (s : State) (l : Nat) (f : Launch → Launch) : (s.modLaunch l f).rr = s.rr := by unfold State.modLaunch; split <;> rfl
@[simp] theorem State.modLaunch_round (s : State) (l : Nat) (f : Launch → Launch) : (s.modLaunch l f).round = s.round := by unfold State.modLaunch; split <;> rfl
@[simp] theorem State.modLaunch_agenda (s : State) (l : Nat) (f : Launch → Launch) : (s.modLaunch l f).agenda = s.agenda := by unfold State.modLaunch; split <;> rfl

/-! ## modGang -/

@[simp] theorem State.modGang_mem (s : State) (l g : Nat) (f : Gang → Gang) : (s.modGang l g f).mem = s.mem := by simp [State.modGang]
@[simp] theorem State.modGang_cores (s : State) (l g : Nat) (f : Gang → Gang) : (s.modGang l g f).cores = s.cores := by simp [State.modGang]
@[simp] theorem State.modGang_warps (s : State) (l g : Nat) (f : Gang → Gang) : (s.modGang l g f).warps = s.warps := by simp [State.modGang]
@[simp] theorem State.modGang_rings (s : State) (l g : Nat) (f : Gang → Gang) : (s.modGang l g f).rings = s.rings := by simp [State.modGang]
@[simp] theorem State.modGang_chains (s : State) (l g : Nat) (f : Gang → Gang) : (s.modGang l g f).chains = s.chains := by simp [State.modGang]
@[simp] theorem State.modGang_haltAt (s : State) (l g : Nat) (f : Gang → Gang) : (s.modGang l g f).haltAt = s.haltAt := by simp [State.modGang]
@[simp] theorem State.modGang_nextLaunch (s : State) (l g : Nat) (f : Gang → Gang) : (s.modGang l g f).nextLaunch = s.nextLaunch := by simp [State.modGang]
@[simp] theorem State.modGang_hub (s : State) (l g : Nat) (f : Gang → Gang) : (s.modGang l g f).hub = s.hub := by simp [State.modGang]
@[simp] theorem State.modGang_cur (s : State) (l g : Nat) (f : Gang → Gang) : (s.modGang l g f).cur = s.cur := by simp [State.modGang]
@[simp] theorem State.modGang_free (s : State) (l g : Nat) (f : Gang → Gang) : (s.modGang l g f).free = s.free := by simp [State.modGang]
@[simp] theorem State.modGang_tick (s : State) (l g : Nat) (f : Gang → Gang) : (s.modGang l g f).tick = s.tick := by simp [State.modGang]
@[simp] theorem State.modGang_rr (s : State) (l g : Nat) (f : Gang → Gang) : (s.modGang l g f).rr = s.rr := by simp [State.modGang]
@[simp] theorem State.modGang_round (s : State) (l g : Nat) (f : Gang → Gang) : (s.modGang l g f).round = s.round := by simp [State.modGang]
@[simp] theorem State.modGang_agenda (s : State) (l g : Nat) (f : Gang → Gang) : (s.modGang l g f).agenda = s.agenda := by simp [State.modGang]

/-! ## notify -/

@[simp] theorem State.notify_mem (s : State) (k : Nat) (d : List Nat) (ws : List Word) : (s.notify k d ws).mem = s.mem := rfl
@[simp] theorem State.notify_cores (s : State) (k : Nat) (d : List Nat) (ws : List Word) : (s.notify k d ws).cores = s.cores := rfl
@[simp] theorem State.notify_warps (s : State) (k : Nat) (d : List Nat) (ws : List Word) : (s.notify k d ws).warps = s.warps := rfl
@[simp] theorem State.notify_rings (s : State) (k : Nat) (d : List Nat) (ws : List Word) : (s.notify k d ws).rings = s.rings := rfl
@[simp] theorem State.notify_chains (s : State) (k : Nat) (d : List Nat) (ws : List Word) : (s.notify k d ws).chains = s.chains := rfl
@[simp] theorem State.notify_haltAt (s : State) (k : Nat) (d : List Nat) (ws : List Word) : (s.notify k d ws).haltAt = s.haltAt := rfl
@[simp] theorem State.notify_launches (s : State) (k : Nat) (d : List Nat) (ws : List Word) : (s.notify k d ws).launches = s.launches := rfl
@[simp] theorem State.notify_nextLaunch (s : State) (k : Nat) (d : List Nat) (ws : List Word) : (s.notify k d ws).nextLaunch = s.nextLaunch := rfl
@[simp] theorem State.notify_cur (s : State) (k : Nat) (d : List Nat) (ws : List Word) : (s.notify k d ws).cur = s.cur := rfl
@[simp] theorem State.notify_free (s : State) (k : Nat) (d : List Nat) (ws : List Word) : (s.notify k d ws).free = s.free := rfl
@[simp] theorem State.notify_tick (s : State) (k : Nat) (d : List Nat) (ws : List Word) : (s.notify k d ws).tick = s.tick := rfl
@[simp] theorem State.notify_rr (s : State) (k : Nat) (d : List Nat) (ws : List Word) : (s.notify k d ws).rr = s.rr := rfl
@[simp] theorem State.notify_round (s : State) (k : Nat) (d : List Nat) (ws : List Word) : (s.notify k d ws).round = s.round := rfl
@[simp] theorem State.notify_agenda (s : State) (k : Nat) (d : List Nat) (ws : List Word) : (s.notify k d ws).agenda = s.agenda := rfl

/-! ## drew -/

@[simp] theorem State.drew_mem (s : State) : (s.drew).mem = s.mem := rfl
@[simp] theorem State.drew_cores (s : State) : (s.drew).cores = s.cores := rfl
@[simp] theorem State.drew_warps (s : State) : (s.drew).warps = s.warps := rfl
@[simp] theorem State.drew_rings (s : State) : (s.drew).rings = s.rings := rfl
@[simp] theorem State.drew_chains (s : State) : (s.drew).chains = s.chains := rfl
@[simp] theorem State.drew_haltAt (s : State) : (s.drew).haltAt = s.haltAt := rfl
@[simp] theorem State.drew_launches (s : State) : (s.drew).launches = s.launches := rfl
@[simp] theorem State.drew_nextLaunch (s : State) : (s.drew).nextLaunch = s.nextLaunch := rfl
@[simp] theorem State.drew_hub (s : State) : (s.drew).hub = s.hub := rfl
@[simp] theorem State.drew_cur (s : State) : (s.drew).cur = s.cur := rfl
@[simp] theorem State.drew_tick (s : State) : (s.drew).tick = s.tick := rfl
@[simp] theorem State.drew_rr (s : State) : (s.drew).rr = s.rr := rfl
@[simp] theorem State.drew_round (s : State) : (s.drew).round = s.round := rfl
@[simp] theorem State.drew_agenda (s : State) : (s.drew).agenda = s.agenda := rfl

/-! ## What an update writes -/

@[simp] theorem State.core_setCore_same (s : State) (c : Nat) (k : Core) : (s.setCore c k).core c = k := by
  simp [State.core, State.setCore]

theorem State.core_setCore_ne (s : State) {c d : Nat} (k : Core) (h : d ≠ c) : (s.setCore c k).core d = s.core d := by
  simp [State.core, State.setCore, aget_aset_ne _ _ _ h]

@[simp] theorem State.core_modCore_same (s : State) (c : Nat) (f : Core → Core) : (s.modCore c f).core c = f (s.core c) := by
  simp [State.modCore]

theorem State.core_modCore_ne (s : State) {c d : Nat} (f : Core → Core) (h : d ≠ c) : (s.modCore c f).core d = s.core d :=
  State.core_setCore_ne s _ h

@[simp] theorem State.warp_setWarp_same (s : State) (k : Nat) (w : Warp) : (s.setWarp k w).warp k = some w := by
  simp [State.warp, State.setWarp]

theorem State.warp_setWarp_ne (s : State) {k j : Nat} (w : Warp) (h : j ≠ k) : (s.setWarp k w).warp j = s.warp j := by
  simp [State.warp, State.setWarp, kget_kset_ne _ _ h]

@[simp] theorem State.warp_modWarp_same (s : State) (k : Nat) (f : Warp → Warp) :
    (s.modWarp k f).warp k = (s.warp k).map f := by
  unfold State.modWarp
  split <;> simp [*]

theorem State.warp_modWarp_ne (s : State) {k j : Nat} (f : Warp → Warp) (h : j ≠ k) : (s.modWarp k f).warp j = s.warp j := by
  unfold State.modWarp
  split
  · exact State.warp_setWarp_ne s _ h
  · rfl

theorem State.warp_modWarp (s : State) (k j : Nat) (f : Warp → Warp) :
    (s.modWarp k f).warp j = if j = k then (s.warp k).map f else s.warp j := by
  split
  · subst_vars; simp
  · exact State.warp_modWarp_ne s f ‹_›

@[simp] theorem State.warp_setCore (s : State) (c : Nat) (k : Core) (j : Nat) : (s.setCore c k).warp j = s.warp j := rfl
@[simp] theorem State.warp_modCore (s : State) (c : Nat) (f : Core → Core) (j : Nat) : (s.modCore c f).warp j = s.warp j := rfl
@[simp] theorem State.warp_modHub (s : State) (f : Hub → Hub) (j : Nat) : (s.modHub f).warp j = s.warp j := rfl
@[simp] theorem State.warp_modAsid (s : State) (a : Nat) (f : Asid → Asid) (j : Nat) : (s.modAsid a f).warp j = s.warp j := rfl
@[simp] theorem State.warp_modPart (s : State) (p : Nat) (f : Partition → Partition) (j : Nat) : (s.modPart p f).warp j = s.warp j := rfl
@[simp] theorem State.warp_drew (s : State) (j : Nat) : (s.drew).warp j = s.warp j := rfl
@[simp] theorem State.warp_notify (s : State) (k : Nat) (d : List Nat) (ws : List Word) (j : Nat) : (s.notify k d ws).warp j = s.warp j := rfl
@[simp] theorem State.core_setWarp (s : State) (k : Nat) (w : Warp) (j : Nat) : (s.setWarp k w).core j = s.core j := rfl
@[simp] theorem State.core_modHub (s : State) (f : Hub → Hub) (j : Nat) : (s.modHub f).core j = s.core j := rfl
@[simp] theorem State.core_modAsid (s : State) (a : Nat) (f : Asid → Asid) (j : Nat) : (s.modAsid a f).core j = s.core j := rfl
@[simp] theorem State.core_modPart (s : State) (p : Nat) (f : Partition → Partition) (j : Nat) : (s.modPart p f).core j = s.core j := rfl
@[simp] theorem State.core_drew (s : State) (j : Nat) : (s.drew).core j = s.core j := rfl
@[simp] theorem State.core_notify (s : State) (k : Nat) (d : List Nat) (ws : List Word) (j : Nat) : (s.notify k d ws).core j = s.core j := rfl
@[simp] theorem State.core_modWarp (s : State) (k : Nat) (f : Warp → Warp) (j : Nat) : (s.modWarp k f).core j = s.core j := by
  simp [State.core]

@[simp] theorem State.launchOf_setCore (s : State) (c : Nat) (k : Core) (l : Nat) : (s.setCore c k).launchOf l = s.launchOf l := rfl
@[simp] theorem State.launchOf_modCore (s : State) (c : Nat) (f : Core → Core) (l : Nat) : (s.modCore c f).launchOf l = s.launchOf l := rfl
@[simp] theorem State.launchOf_setWarp (s : State) (k : Nat) (w : Warp) (l : Nat) : (s.setWarp k w).launchOf l = s.launchOf l := rfl
@[simp] theorem State.launchOf_modHub (s : State) (f : Hub → Hub) (l : Nat) : (s.modHub f).launchOf l = s.launchOf l := rfl
@[simp] theorem State.launchOf_modAsid (s : State) (a : Nat) (f : Asid → Asid) (l : Nat) : (s.modAsid a f).launchOf l = s.launchOf l := rfl
@[simp] theorem State.launchOf_modPart (s : State) (p : Nat) (f : Partition → Partition) (l : Nat) : (s.modPart p f).launchOf l = s.launchOf l := rfl
@[simp] theorem State.launchOf_drew (s : State) (l : Nat) : (s.drew).launchOf l = s.launchOf l := rfl
@[simp] theorem State.launchOf_modWarp (s : State) (k : Nat) (f : Warp → Warp) (l : Nat) :
    (s.modWarp k f).launchOf l = s.launchOf l := by
  simp [State.launchOf]

@[simp] theorem State.asidOf_modAsid_same (s : State) (a : Nat) (f : Asid → Asid) : (s.modAsid a f).asidOf a = f (s.asidOf a) := by
  simp [State.asidOf, State.modAsid, State.modHub]

theorem State.asidOf_modAsid_ne (s : State) {a b : Nat} (f : Asid → Asid) (h : b ≠ a) : (s.modAsid a f).asidOf b = s.asidOf b := by
  simp [State.asidOf, State.modAsid, State.modHub, aget_aset_ne _ _ _ h]

@[simp] theorem State.asidOf_setLabels_same (s : State) (a : Nat) (t : Tab Label) :
    (s.setLabels a t).asidOf a = { s.asidOf a with labels := t } := by
  simp [State.asidOf, State.setLabels, State.modAsid, State.modHub]

theorem State.asidOf_setLabels_ne (s : State) {a b : Nat} (t : Tab Label) (h : b ≠ a) : (s.setLabels a t).asidOf b = s.asidOf b :=
  by simp [State.asidOf, State.setLabels, State.modAsid, State.modHub, aget_aset_ne _ _ _ h]

@[simp] theorem State.partOf_modPart_same (s : State) (p : Nat) (f : Partition → Partition) :
    (s.modPart p f).partOf p = f (s.partOf p) := by
  simp [State.partOf, State.modPart, State.modHub]

theorem State.partOf_modPart_ne (s : State) {p q : Nat} (f : Partition → Partition) (h : q ≠ p) :
    (s.modPart p f).partOf q = s.partOf q := by
  simp [State.partOf, State.modPart, State.modHub, aget_aset_ne _ _ _ h]

/-! ## Registers -/

@[simp] theorem WRegs.getG_setG_same (q : WRegs) (r : Nat) (v : Word) (l : Label) : (q.setG r v l).getG r = v := by
  simp [WRegs.getG, WRegs.setG]
@[simp] theorem WRegs.labG_setG_same (q : WRegs) (r : Nat) (v : Word) (l : Label) : (q.setG r v l).labG r = l := by
  simp [WRegs.labG, WRegs.setG]
theorem WRegs.getG_setG_ne (q : WRegs) {r k : Nat} (v : Word) (l : Label) (h : k ≠ r) : (q.setG r v l).getG k = q.getG k := by
  simp [WRegs.getG, WRegs.setG, aget_aset_ne _ _ _ h]
theorem WRegs.labG_setG_ne (q : WRegs) {r k : Nat} (v : Word) (l : Label) (h : k ≠ r) : (q.setG r v l).labG k = q.labG k := by
  simp [WRegs.labG, WRegs.setG, aget_aset_ne _ _ _ h]
@[simp] theorem WRegs.setG_v (q : WRegs) (r : Nat) (v : Word) (l : Label) : (q.setG r v l).v = q.v := rfl
@[simp] theorem WRegs.setG_vl (q : WRegs) (r : Nat) (v : Word) (l : Label) : (q.setG r v l).vl = q.vl := rfl
@[simp] theorem WRegs.setG_p (q : WRegs) (r : Nat) (v : Word) (l : Label) : (q.setG r v l).p = q.p := rfl
@[simp] theorem WRegs.setG_pl (q : WRegs) (r : Nat) (v : Word) (l : Label) : (q.setG r v l).pl = q.pl := rfl
@[simp] theorem WRegs.setG_m (q : WRegs) (r : Nat) (v : Word) (l : Label) : (q.setG r v l).m = q.m := rfl
@[simp] theorem WRegs.setG_ml (q : WRegs) (r : Nat) (v : Word) (l : Label) : (q.setG r v l).ml = q.ml := rfl

@[simp] theorem WRegs.getV_setV_same (q : WRegs) (r i : Nat) (v : Word) (l : Label) : (q.setV r i v l).getV r i = v := by
  simp [WRegs.getV, WRegs.setV]
@[simp] theorem WRegs.labV_setV_same (q : WRegs) (r i : Nat) (v : Word) (l : Label) : (q.setV r i v l).labV r i = l := by
  simp [WRegs.labV, WRegs.setV]
theorem WRegs.getV_setV_ne (q : WRegs) {r i k j : Nat} (v : Word) (l : Label) (h : 32 * k + j ≠ 32 * r + i) :
    (q.setV r i v l).getV k j = q.getV k j := by
  simp [WRegs.getV, WRegs.setV, aget_aset_ne _ _ _ h]
theorem WRegs.labV_setV_ne (q : WRegs) {r i k j : Nat} (v : Word) (l : Label) (h : 32 * k + j ≠ 32 * r + i) :
    (q.setV r i v l).labV k j = q.labV k j := by
  simp [WRegs.labV, WRegs.setV, aget_aset_ne _ _ _ h]
@[simp] theorem WRegs.setV_g (q : WRegs) (r i : Nat) (v : Word) (l : Label) : (q.setV r i v l).g = q.g := rfl
@[simp] theorem WRegs.setV_gl (q : WRegs) (r i : Nat) (v : Word) (l : Label) : (q.setV r i v l).gl = q.gl := rfl
@[simp] theorem WRegs.setV_p (q : WRegs) (r i : Nat) (v : Word) (l : Label) : (q.setV r i v l).p = q.p := rfl
@[simp] theorem WRegs.setV_pl (q : WRegs) (r i : Nat) (v : Word) (l : Label) : (q.setV r i v l).pl = q.pl := rfl
@[simp] theorem WRegs.setV_m (q : WRegs) (r i : Nat) (v : Word) (l : Label) : (q.setV r i v l).m = q.m := rfl
@[simp] theorem WRegs.setV_ml (q : WRegs) (r i : Nat) (v : Word) (l : Label) : (q.setV r i v l).ml = q.ml := rfl

@[simp] theorem WRegs.getM_setM_same (q : WRegs) (r : Nat) (v : Mask) (l : Label) : (q.setM r v l).getM r = v := by
  simp [WRegs.getM, WRegs.setM]
@[simp] theorem WRegs.labM_setM_same (q : WRegs) (r : Nat) (v : Mask) (l : Label) : (q.setM r v l).labM r = l := by
  simp [WRegs.labM, WRegs.setM]
theorem WRegs.getM_setM_ne (q : WRegs) {r k : Nat} (v : Mask) (l : Label) (h : k ≠ r) : (q.setM r v l).getM k = q.getM k := by
  simp [WRegs.getM, WRegs.setM, aget_aset_ne _ _ _ h]
theorem WRegs.labM_setM_ne (q : WRegs) {r k : Nat} (v : Mask) (l : Label) (h : k ≠ r) : (q.setM r v l).labM k = q.labM k := by
  simp [WRegs.labM, WRegs.setM, aget_aset_ne _ _ _ h]
@[simp] theorem WRegs.setM_v (q : WRegs) (r : Nat) (v : Mask) (l : Label) : (q.setM r v l).v = q.v := rfl
@[simp] theorem WRegs.setM_vl (q : WRegs) (r : Nat) (v : Mask) (l : Label) : (q.setM r v l).vl = q.vl := rfl
@[simp] theorem WRegs.setM_g (q : WRegs) (r : Nat) (v : Mask) (l : Label) : (q.setM r v l).g = q.g := rfl
@[simp] theorem WRegs.setM_gl (q : WRegs) (r : Nat) (v : Mask) (l : Label) : (q.setM r v l).gl = q.gl := rfl
@[simp] theorem WRegs.setM_p (q : WRegs) (r : Nat) (v : Mask) (l : Label) : (q.setM r v l).p = q.p := rfl
@[simp] theorem WRegs.setM_pl (q : WRegs) (r : Nat) (v : Mask) (l : Label) : (q.setM r v l).pl = q.pl := rfl

@[simp] theorem WRegs.setP_v (q : WRegs) (p l : Nat) (v : Bool) (lab : Label) : (q.setP p l v lab).v = q.v := by
  unfold WRegs.setP; split <;> rfl
@[simp] theorem WRegs.setP_vl (q : WRegs) (p l : Nat) (v : Bool) (lab : Label) : (q.setP p l v lab).vl = q.vl := by
  unfold WRegs.setP; split <;> rfl
@[simp] theorem WRegs.setP_g (q : WRegs) (p l : Nat) (v : Bool) (lab : Label) : (q.setP p l v lab).g = q.g := by
  unfold WRegs.setP; split <;> rfl
@[simp] theorem WRegs.setP_gl (q : WRegs) (p l : Nat) (v : Bool) (lab : Label) : (q.setP p l v lab).gl = q.gl := by
  unfold WRegs.setP; split <;> rfl
@[simp] theorem WRegs.setP_m (q : WRegs) (p l : Nat) (v : Bool) (lab : Label) : (q.setP p l v lab).m = q.m := by
  unfold WRegs.setP; split <;> rfl
@[simp] theorem WRegs.setP_ml (q : WRegs) (p l : Nat) (v : Bool) (lab : Label) : (q.setP p l v lab).ml = q.ml := by
  unfold WRegs.setP; split <;> rfl

end Sys2Proof.Machine
end

