-- ==== Sys2Proof/Laws/Issue.lean ====
section
/-! SUPPORT. What issuing an instruction does, said once: an instruction that passes its checks and whose body answers a
state leaves that state with the warp's place moved on. -/
namespace Sys2Proof.Machine

/-- The issuer of an instruction is the warp State.cur names, with its running clause. -/
theorem issuerOf_spec {s : State} {x : Ctx} (h : issuerOf s = some x) :
    x.wk = s.cur ∧ s.warp s.cur = some x.w ∧ x.w.run = some x.run ∧ x.core = s.cur / 32 ∧ x.slot = s.cur % 32 ∧
    x.uses = {} ∧ (s.core (s.cur / 32)).block = some x.blk ∧ s.launchOf x.blk.launch = some x.la ∧
    x.word = (x.run.wordAt x.run.pos).getD 0 := by
  unfold issuerOf at h
  cases hw : s.warp s.cur with
  | none => simp [hw] at h
  | some w =>
    cases hr : w.run with
    | none => simp [hw, hr] at h
    | some r =>
      cases hb : (s.core (s.cur / 32)).block with
      | none => simp [hw, hr, ctxOf, hb] at h
      | some b =>
        cases hl : s.launchOf b.launch with
        | none => simp [hw, hr, ctxOf, hb, hl] at h
        | some la =>
          cases hg : kget la.gangs (b.b / la.record.gangBlocks) with
          | none => simp [hw, hr, ctxOf, hb, hl, hg] at h
          | some g =>
            simp only [hw, hr, ctxOf, hb, hl, hg, Option.map_some, Option.some.injEq] at h
            subst h
            exact ⟨rfl, rfl, hr, rfl, rfl, rfl, rfl, hl, rfl⟩

/-- The checks before an instruction's body pass. -/
theorem issueChecks_ok {i : Instr} {u : Uses} {act : Mask} {moved : Bool} {s : State} {x : Ctx}
    (h : Ready i u act moved s x) : issueChecks i act moved { x with uses := u } (preIssue i s) = .ok () := by
  have h1 : checkRegs { x with uses := u } (preIssue i s) act = .ok () := by
    simp only [checkRegs, h.free, h.unmarked, h.sound, Bool.false_eq_true, if_false]
  have h2 : warpWide i = true → checkWide { x with uses := u } (preIssue i s) = .ok () := by
    intro hw
    simp only [checkWide]
    rw [if_pos]
    exact h.wide hw
  have h3 : boundary i = true → moved = false → checkBackEdge { x with uses := u } (preIssue i s) = .ok () := by
    intro hb hm
    have h0 := h.edge hb hm
    unfold EdgeOk at h0
    simp only [Ctx.pc, Ctx.asid] at h0
    by_cases hne : (loopStep x.run.pos 4 x.w).2 = x.run.pos + 4
    · simp only [checkBackEdge, Ctx.pc]
      exact if_pos hne
    · simp only [checkBackEdge, Ctx.pc]
      refine (if_neg hne).trans ?_
      obtain ⟨h4, h5⟩ := h0.resolve_left hne
      have h6 : (fetchWord (preIssue i s) x.la.asid (loopStep x.run.pos 4 x.w).2).isNone = false := by
        cases hf : fetchWord (preIssue i s) x.la.asid (loopStep x.run.pos 4 x.w).2 <;> simp_all
      simp only [checkTargets, Ctx.asid, Ctx.pc, List.filter_cons, List.filter_nil, Bool.false_and, Bool.and_false,
        Bool.false_eq_true, if_false, h6]
      by_cases hd : (loopStep x.run.pos 4 x.w).2.toNat ≤ x.run.pos.toNat
      · simp [h5 hd]
      · simp [hd]
  unfold issueChecks
  rw [h1]
  cases hw : warpWide i <;> cases hb : boundary i <;> cases hm : moved <;>
    simp_all [bind, Except.bind, pure, Except.pure]

/-- An instruction that passes its checks and whose body answers a state completes. -/
theorem issueWith_next {i : Instr} {u : Uses} {act : Mask} {moved : Bool} {body : Body} {s t : State} {x : Ctx}
    (h : Ready i u act moved s x) (hb : body { x with uses := u } (preIssue i s) = .ok t) :
    issueWith i u act moved body s = .next (finish i moved x t) := by
  simp only [issueWith, runBody, h.issuer, issueChecks_ok h, hb, bind, Except.bind, Except.map, settle]

/-! ## The end of an instruction -/

/-- Two warps agree but for their lanes' places, their rejoin registers and loop counters, and WCL. -/
def SamePlace (w w' : Warp) : Prop := w' = { w with pc := w'.pc, j := w'.j, lc := w'.lc, wcl := w'.wcl }

theorem SamePlace.trans {a b c : Warp} (h : SamePlace a b) (h' : SamePlace b c) : SamePlace a c := by
  unfold SamePlace at *
  rw [h', h]

theorem samePlace_release (w : Warp) (k : Nat) (l f : Bool) : SamePlace w (release w k l f) := rfl

theorem samePlace_evalRejoin (w : Warp) (k : Nat) : SamePlace w (evalRejoin w k) := by
  unfold evalRejoin
  simp only
  split
  · rfl
  · split
    · rfl
    · split <;> exact samePlace_release ..

/-- The evaluation of the rejoin registers changes no more than R147 says. -/
theorem samePlace_evalRejoins (w : Warp) : SamePlace w (evalRejoins w) := by
  unfold evalRejoins
  generalize byDepth w = l
  induction l generalizing w with
  | nil => rfl
  | cons k t ih => exact (samePlace_evalRejoin w k).trans (ih _)

theorem samePlace_loopStep (e : Word) (n : Nat) (w : Warp) : SamePlace w (loopStep e n w).1 := by
  induction n generalizing w with
  | zero => rfl
  | succ n ih =>
    unfold loopStep
    split
    · rfl
    · simp only
      split
      · rfl
      · exact (show SamePlace w (w.setLoop _ _) from rfl).trans (ih _)

/-- The warp after `finish`, when the body left it with other registers only. -/
theorem kept_finish {i : Instr} {x : Ctx} {t : State} {q : WRegs} (hr : x.w.run = some x.run)
    (hw : x.wk = t.cur) (ht : t.warp t.cur = some { x.w with regs := q }) :
    Kept i x.w (finish i false x t).w ∧ (finish i false x t).q = q := by
  have hc : ∀ u : State, u.cur = t.cur → u.warp t.cur = some { x.w with regs := q, ord := u.w.ord, passed := u.w.passed } →
      u.w.ord = none →
      Kept i x.w (if boundary i then endClause u t.cur false else advance u t.cur).w ∧
      (if boundary i then endClause u t.cur false else advance u t.cur).q = q := by
    intro u hu hw ho
    cases hb : boundary i with
    | false =>
      have hv : (advance u t.cur).warp t.cur =
          some { x.w with regs := q, ord := none, passed := u.w.passed, run := some { x.run with pos := x.run.pos + 4 } } := by
        simp [advance, hw, hr, ho]
      have hcur : (advance u t.cur).cur = t.cur := by simp [advance, hu]
      simp only [Bool.false_eq_true, if_false, State.w, State.q, hcur, hv, Option.getD_some]
      exact ⟨⟨rfl, rfl, fun _ => ⟨rfl, rfl, rfl, rfl, rfl, rfl, by simp [hr]⟩, by simp [hb]⟩, trivial⟩
    | true =>
      have hcur : (endClause u t.cur false).cur = t.cur := by simp [endClause, hu]
      let w1 : Warp := { x.w with
        regs := q, ord := none, passed := u.w.passed, run := none
        yielded := x.w.yieldNew &&& ~~~x.w.exited, yieldNew := 0 }
      let w2 : Warp := { (loopStep x.run.pos 4 w1).1 with
        pc := setPcs (loopStep x.run.pos 4 w1).1.pc (x.run.grp &&& ~~~(loopStep x.run.pos 4 w1).1.exited)
          (loopStep x.run.pos 4 w1).2 }
      have hv : (endClause u t.cur false).warp t.cur = some (evalRejoins w2) := by
        simp only [endClause, State.warp_modWarp_same, hw, ho, Option.map_some, hr, Bool.false_eq_true, if_false]
        rfl
      have h12 : SamePlace w1 w2 := (samePlace_loopStep x.run.pos 4 w1).trans rfl
      have h3 : SamePlace w1 (evalRejoins w2) := h12.trans (samePlace_evalRejoins w2)
      simp only [if_true, State.w, State.q, hcur, hv, Option.getD_some]
      unfold SamePlace at h3
      refine ⟨⟨?_, ?_, by simp [hb], fun _ => ?_⟩, ?_⟩ <;> rw [h3]
  have hf : finish i false x t =
      let u := if x.w.ord.isSome || x.replicated then clearOrd t x.wk x.w.ord.isSome else t
      if boundary i then endClause u x.wk false else advance u x.wk := rfl
  rw [hf]
  simp only
  rw [hw]
  have hsome : t.w = { x.w with regs := q } := by simp [State.w, ht]
  by_cases hk : (x.w.ord.isSome || x.replicated) = true
  · rw [if_pos hk]
    have hu : (clearOrd t t.cur x.w.ord.isSome).warp t.cur =
        some { x.w with regs := q, ord := if x.w.ord.isSome = true then none else x.w.ord, passed := [] } := by
      simp [clearOrd, ht]
    have ho : (if x.w.ord.isSome = true then none else x.w.ord) = none := by
      cases x.w.ord <;> simp
    have hcur : (clearOrd t t.cur x.w.ord.isSome).cur = t.cur := by simp [clearOrd]
    have hw' : (clearOrd t t.cur x.w.ord.isSome).w =
        { x.w with regs := q, ord := none, passed := [] } := by
      simp only [State.w, hcur, hu, ho, Option.getD_some]
    exact hc _ hcur (by rw [hu, hw', ho]) (by rw [hw'])
  · rw [if_neg hk]
    have ho : x.w.ord = none := by
      cases h : x.w.ord <;> simp_all
    exact hc t rfl (by rw [ht, hsome]) (by rw [hsome]; exact ho)

/-! ## Frames -/

theorem HubSame.refl (s : State) : HubSame s s := ⟨rfl, fun _ => rfl, fun _ _ _ h => h⟩

theorem HubSame.trans {a b c : State} (h : HubSame a b) (h' : HubSame b c) : HubSame a c := by
  refine ⟨?_, fun k => ?_, fun k n l hl => h'.labels k n l (h.labels k n l hl)⟩
  · rw [← h.hub]
    have := congrArg (fun q : Hub => { q with asids := a.hub.asids, hseq := a.hub.hseq }) h'.hub
    exact this
  · rw [← h.asid k]
    exact congrArg (fun q : Asid => { q with labels := (a.asidOf k).labels }) (h'.asid k)

theorem Beside.refl (s : State) : Beside s s :=
  ⟨⟨rfl, fun _ _ => rfl, rfl, rfl, rfl, rfl, rfl, .refl s, rfl, rfl⟩, rfl⟩

theorem BesideMem.trans {a b c : State} (h : BesideMem a b) (h' : BesideMem b c) : BesideMem a c :=
  ⟨h'.cores.trans h.cores, fun k hk => (h'.warps k (by rw [h.cur]; exact hk)).trans (h.warps k hk), h'.rings.trans h.rings,
    h'.chains.trans h.chains, h'.haltAt.trans h.haltAt, h'.launches.trans h.launches, h'.nextLaunch.trans h.nextLaunch,
    h.hub.trans h'.hub, h'.cur.trans h.cur, h'.agenda.trans h.agenda⟩

theorem Beside.trans {a b c : State} (h : Beside a b) (h' : Beside b c) : Beside a c :=
  ⟨h.toBesideMem.trans h'.toBesideMem, h'.mem.trans h.mem⟩

/-- A change of the current warp alone. -/
theorem beside_modWarp (s : State) (f : Warp → Warp) : Beside s (s.modWarp s.cur f) := by
  refine ⟨⟨by simp, fun k hk => State.warp_modWarp_ne s f hk, by simp, by simp, by simp, by simp, by simp, ?_, by simp,
    by simp⟩, by simp⟩
  refine ⟨by simp, fun a => ?_, fun a h l hl => ?_⟩
  · simp [State.asidOf]
  · simpa [State.asidOf] using hl

/-- The end of an instruction changes nothing outside the current warp. -/
theorem beside_finish {i : Instr} {m : Bool} {x : Ctx} {s : State} (hw : x.wk = s.cur) : Beside s (finish i m x s) := by
  have h0 : ∀ u : State, u.cur = s.cur → Beside u (if boundary i then endClause u x.wk m else advance u x.wk) := by
    intro u hu
    rw [hw, ← hu]
    split <;> exact beside_modWarp ..
  have hf : finish i m x s =
      let u := if x.w.ord.isSome || x.replicated then clearOrd s x.wk x.w.ord.isSome else s
      if boundary i then endClause u x.wk m else advance u x.wk := rfl
  rw [hf]
  simp only
  by_cases hk : (x.w.ord.isSome || x.replicated) = true
  · rw [if_pos hk]
    have h1 : Beside s (clearOrd s x.wk x.w.ord.isSome) := by rw [hw]; exact beside_modWarp ..
    exact h1.trans (h0 _ h1.cur)
  · rw [if_neg hk]
    exact h0 s rfl

end Sys2Proof.Machine
end

