-- ==== Sys2Proof/Laws/Results.lean ====
section
/-! SUPPORT. What writing a result does, said once for each register file: joins, the binding of labels, and the registers
that a result changes. -/
namespace Sys2Proof.Machine

/-! ## Joins -/

theorem mem_insNat {x o : Nat} {l : List Nat} : o ∈ insNat x l ↔ o = x ∨ o ∈ l := by
  induction l with
  | nil => simp [insNat]
  | cons y t ih =>
    unfold insNat
    split
    · simp
    · split
      · subst_vars; simp
      · simp only [List.mem_cons, ih]; tauto

/-- An owner is in a join exactly when it is in one of the two labels. -/
theorem mem_joinL {o : Nat} {x y : Label} : o ∈ joinL x y ↔ o ∈ x ∨ o ∈ y := by
  unfold joinL
  induction y generalizing x with
  | nil => simp
  | cons a t ih => simp only [List.foldl_cons, ih, mem_insNat, List.mem_cons]; tauto

theorem mem_foldl_joinL {o : Nat} {ls : List Label} {a : Label} :
    o ∈ ls.foldl joinL a ↔ o ∈ a ∨ ∃ k ∈ ls, o ∈ k := by
  induction ls generalizing a with
  | nil => simp
  | cons x t ih =>
    simp only [List.foldl_cons, ih, mem_joinL, List.mem_cons, exists_eq_or_imp]
    tauto

/-- An owner is in a join of many exactly when it is in one of them. -/
theorem isJoin_joinAll (ls : List Label) : IsJoin (joinAll ls) ls := by
  intro o
  simp [joinAll, mem_foldl_joinL]

theorem isJoin_joinL (x y : Label) : IsJoin (joinL x y) [x, y] := by
  intro o
  simp [mem_joinL]

/-! ## Binding labels (R209) -/

theorem lowestFree_none {t : Tab Label} {h n k : Nat} (e : lowestFree t h n = some k) : kget t k = none := by
  induction n generalizing h with
  | zero => simp [lowestFree] at e
  | succ n ih =>
    unfold lowestFree at e
    split at e
    · cases e; assumption
    · exact ih e

/-- A table that has bound a set keeps every binding it had. -/
theorem bindIn_grows {t t' : Tab Label} {l : Label} (e : bindIn t l = some t') {h : Nat} {m : Label}
    (hm : kget t h = some m) : kget t' h = some m := by
  unfold bindIn at e
  split at e
  · cases e; exact hm
  · split at e
    · cases hf : lowestFree t 1 (Config.handles - 1) with
      | none => simp [hf] at e
      | some k =>
        simp only [hf, Option.map_some, Option.some.injEq] at e
        subst e
        have hk := lowestFree_none hf
        have : h ≠ k := by rintro rfl; simp [hk] at hm
        rw [kget_kset_ne _ _ this]
        exact hm
    · cases e

theorem bindAll_grows {t t' : Tab Label} {ls : List Label} (e : bindAll t ls = some t') {h : Nat} {m : Label}
    (hm : kget t h = some m) : kget t' h = some m := by
  induction ls generalizing t with
  | nil => simp only [bindAll, Option.some.injEq] at e; subst e; exact hm
  | cons l r ih =>
    unfold bindAll at e
    split at e
    · rename_i hb
      exact ih e (bindIn_grows hb hm)
    · cases e

/-- Label tables replaced by ones that hold what they held. -/
theorem beside_labels (s : State) (a : Nat) (t : Tab Label)
    (h : ∀ k l, kget (s.asidOf a).labels k = some l → kget t k = some l) :
    Beside s (s.setLabels a t) := by
  refine ⟨⟨rfl, fun _ _ => rfl, rfl, rfl, rfl, rfl, rfl, ⟨rfl, fun b => ?_, fun b k l hl => ?_⟩, rfl, rfl⟩, rfl⟩
  · by_cases hb : b = a
    · subst hb; rw [State.asidOf_setLabels_same]
    · rw [State.asidOf_setLabels_ne _ _ hb]
  · by_cases hb : b = a
    · subst hb; rw [State.asidOf_setLabels_same]; exact h k l hl
    · rw [State.asidOf_setLabels_ne _ _ hb]; exact hl

/-- Where a set can be bound, binding it changes label tables only. -/
theorem bindLabel_ok {s : State} {a : Nat} {l : Label} (h : Binds s a l) :
    ∃ s', bindLabel s a l = some s' ∧ Beside s s' ∧ ∀ k, s'.warp k = s.warp k := by
  unfold bindLabel
  by_cases hl : l = []
  · exact ⟨s, by simp [hl], .refl s, fun _ => rfl⟩
  · unfold Binds at h
    cases hb : bindIn (s.asidOf a).labels l with
    | none => simp [hb] at h
    | some t =>
      exact ⟨_, by simp [hl], beside_labels s a t fun k m hm => bindIn_grows hb hm, fun _ => rfl⟩

theorem bindLabels_ok {s : State} {a : Nat} {ls : List Label} (h : BindsAll s a ls) :
    ∃ s', bindLabels s a ls = some s' ∧ Beside s s' ∧ ∀ k, s'.warp k = s.warp k := by
  unfold bindLabels
  by_cases hl : ls.all (· == []) = true
  · exact ⟨s, by rw [if_pos hl], .refl s, fun _ => rfl⟩
  · unfold BindsAll at h
    cases hb : bindAll (s.asidOf a).labels ls with
    | none => simp [hb] at h
    | some t =>
      exact ⟨_, by rw [if_neg hl]; rfl, beside_labels s a t fun k m hm => bindAll_grows hb hm, fun _ => rfl⟩

/-! ## A register write -/

/-- A state that differs from `s` in label tables and then in the current warp's registers alone. -/
def RegsWritten (x : Ctx) (s t : State) (q : WRegs) : Prop :=
  t.warp t.cur = some { x.w with regs := q } ∧ Beside s t

theorem regsWritten_of {x : Ctx} {s s' : State} {q : WRegs} (hw : s.warp s.cur = some x.w) (hk : x.wk = s.cur)
    (hb : Beside s s') (h : ∀ k, s'.warp k = s.warp k) (f : Warp → Warp) (hf : f x.w = { x.w with regs := q }) :
    RegsWritten x s (s'.modWarp x.wk f) q := by
  have hc : s'.cur = s.cur := hb.cur
  constructor
  · have : (s'.modWarp x.wk f).cur = s.cur := by simp [hc]
    rw [this, hk]
    simp [h, hw, hf]
  · rw [hk, ← hc]
    exact hb.trans (beside_modWarp s' f)

/-- Writing G[d] where its label can be bound. -/
theorem writeG_ok {x : Ctx} {s : State} {d : Nat} {v : Word} {l : Label} (hw : s.warp s.cur = some x.w)
    (hk : x.wk = s.cur) (hl : Binds s x.asid l) :
    ∃ t, writeG x s d v l = .ok t ∧ RegsWritten x s t (x.w.regs.setG d v l) := by
  obtain ⟨s', hs, hb, h⟩ := bindLabel_ok hl
  refine ⟨s'.modWarp x.wk fun w => { w with regs := w.regs.setG d v l }, ?_, regsWritten_of hw hk hb h _ rfl⟩
  simp only [writeG, writeGAt, hs]

/-- Writing M[d] where its label can be bound. -/
theorem writeM_ok {x : Ctx} {s : State} {d : Nat} {v : Mask} {l : Label} (hw : s.warp s.cur = some x.w)
    (hk : x.wk = s.cur) (hl : Binds s x.asid l) :
    ∃ t, writeM x s d v l = .ok t ∧ RegsWritten x s t (x.w.regs.setM d v l) := by
  obtain ⟨s', hs, hb, h⟩ := bindLabel_ok hl
  refine ⟨s'.modWarp x.wk fun w => { w with regs := w.regs.setM d v l }, ?_, regsWritten_of hw hk hb h _ rfl⟩
  simp only [writeM, hs]

/-- Writing V[d] in some lanes where the labels hold at most eight owners and can be bound. -/
theorem writeV_ok {x : Ctx} {s : State} {d : Nat} {rs : List (Nat × Word × Label)} (hw : s.warp s.cur = some x.w)
    (hk : x.wk = s.cur) (hn : ∀ r ∈ rs, r.2.2.length ≤ Config.maxOwners) (hl : BindsAll s x.asid (rs.map (·.2.2))) :
    ∃ t, writeV x s d rs = .ok t ∧
      RegsWritten x s t (rs.foldl (fun q r => q.setV d r.1 r.2.1 r.2.2) x.w.regs) := by
  obtain ⟨s', hs, hb, h⟩ := bindLabels_ok hl
  have he : (rs.filter fun r => decide (Config.maxOwners < r.2.2.length)) = [] := by
    rw [List.filter_eq_nil_iff]
    intro r hr
    have := hn r hr
    simp; omega
  refine ⟨s'.modWarp x.wk fun w => { w with regs := rs.foldl (fun q r => q.setV d r.1 r.2.1 r.2.2) w.regs }, ?_, regsWritten_of hw hk hb h _ rfl⟩
  simp only [writeV, he, List.isEmpty_nil, if_true, hs]

/-- Writing P[d] in some lanes where the labels hold at most eight owners and can be bound. -/
theorem writeP_ok {x : Ctx} {s : State} {d : Nat} {rs : List (Nat × Bool × Label)} (hw : s.warp s.cur = some x.w)
    (hk : x.wk = s.cur) (hn : ∀ r ∈ rs, r.2.2.length ≤ Config.maxOwners) (hl : BindsAll s x.asid (rs.map (·.2.2))) :
    ∃ t, writeP x s d rs = .ok t ∧
      RegsWritten x s t (rs.foldl (fun q r => q.setP d r.1 r.2.1 r.2.2) x.w.regs) := by
  obtain ⟨s', hs, hb, h⟩ := bindLabels_ok hl
  have he : (rs.filter fun r => decide (Config.maxOwners < r.2.2.length)) = [] := by
    rw [List.filter_eq_nil_iff]
    intro r hr
    have := hn r hr
    simp; omega
  refine ⟨s'.modWarp x.wk fun w => { w with regs := rs.foldl (fun q r => q.setP d r.1 r.2.1 r.2.2) w.regs }, ?_, regsWritten_of hw hk hb h _ rfl⟩
  simp only [writeP, he, List.isEmpty_nil, if_true, hs]

/-! ## The registers after it -/

theorem mem_undamage {d : List Nat} {k j : Nat} : j ∈ undamage d k ↔ j ∈ d ∧ j ≠ k := by
  simp [undamage]

theorem onlyG_setG (q : WRegs) (d : Nat) (v : Word) (l : Label) : OnlyG q (q.setG d v l) d :=
  ⟨fun _ h => ⟨WRegs.getG_setG_ne q v l h, WRegs.labG_setG_ne q v l h⟩, ⟨rfl, rfl⟩, ⟨rfl, rfl⟩, ⟨rfl, rfl⟩,
    fun _ => mem_undamage⟩

theorem onlyM_setM (q : WRegs) (d : Nat) (v : Mask) (l : Label) : OnlyM q (q.setM d v l) d :=
  ⟨fun _ h => ⟨WRegs.getM_setM_ne q v l h, WRegs.labM_setM_ne q v l h⟩, ⟨rfl, rfl⟩, ⟨rfl, rfl⟩, ⟨rfl, rfl⟩,
    fun _ => mem_undamage⟩

/-! ## Lanes -/

theorem mem_lanesFrom {m : Mask} {i n l : Nat} : l ∈ lanesFrom m i n ↔ m.getLsbD l = true ∧ i ≤ l ∧ l < i + n := by
  induction n generalizing i with
  | zero => simp only [lanesFrom, List.not_mem_nil, false_iff]; omega
  | succ n ih =>
    unfold lanesFrom
    split
    · simp only [List.mem_cons, ih]
      constructor
      · rintro (rfl | ⟨h1, h2, h3⟩)
        · exact ⟨by assumption, by omega, by omega⟩
        · exact ⟨h1, by omega, by omega⟩
      · rintro ⟨h1, h2, h3⟩
        by_cases hl : l = i
        · exact .inl hl
        · exact .inr ⟨h1, by omega, by omega⟩
    · simp only [ih]
      constructor
      · rintro ⟨h1, h2, h3⟩; exact ⟨h1, by omega, by omega⟩
      · rintro ⟨h1, h2, h3⟩
        have : l ≠ i := by rintro rfl; simp_all
        exact ⟨h1, by omega, by omega⟩

/-- The lanes of a mask are those whose bit is set. -/
theorem mem_lanesOf {m : Mask} {l : Nat} : l ∈ lanesOf m ↔ m.getLsbD l = true := by
  unfold lanesOf
  rw [mem_lanesFrom]
  constructor
  · exact fun h => h.1
  · intro h
    refine ⟨h, by omega, ?_⟩
    by_contra hc
    rw [BitVec.getLsbD_of_ge m l (by omega)] at h
    cases h

theorem lanesFrom_nodup (m : Mask) (i n : Nat) : (lanesFrom m i n).Nodup := by
  induction n generalizing i with
  | zero => simp [lanesFrom]
  | succ n ih =>
    unfold lanesFrom
    split
    · refine List.nodup_cons.mpr ⟨fun h => ?_, ih _⟩
      have := (mem_lanesFrom.mp h).2.1
      omega
    · exact ih _

theorem lanesOf_nodup (m : Mask) : (lanesOf m).Nodup := lanesFrom_nodup m 0 32

/-- V[d] written in the lanes of a mask, one value and label for each. -/
theorem foldl_setV (q : WRegs) (d : Nat) (m : Mask) (v : Nat → Word) (lb : Nat → Label) :
    let q' := ((lanesOf m).map fun l => (l, v l, lb l)).foldl (fun q r => q.setV d r.1 r.2.1 r.2.2) q
    (∀ l, m.getLsbD l = true → q'.getV d l = v l ∧ q'.labV d l = lb l) ∧ OnlyV q q' d m := by
  have key : ∀ (ls : List Nat) (q : WRegs), ls.Nodup →
      let q' := (ls.map fun l => (l, v l, lb l)).foldl (fun q r => q.setV d r.1 r.2.1 r.2.2) q
      (∀ l ∈ ls, q'.getV d l = v l ∧ q'.labV d l = lb l) ∧
      (∀ r l, (∀ i ∈ ls, 32 * r + l ≠ 32 * d + i) → q'.getV r l = q.getV r l ∧ q'.labV r l = q.labV r l) ∧
      (q'.g = q.g ∧ q'.gl = q.gl) ∧ (q'.p = q.p ∧ q'.pl = q.pl) ∧ (q'.m = q.m ∧ q'.ml = q.ml) ∧
      (∀ k, k ∈ q'.dmg ↔ k ∈ q.dmg ∧ ∀ l ∈ ls, k ≠ dmgKeyV d l) := by
    intro ls
    induction ls with
    | nil => intro q _; simp
    | cons a t ih =>
      intro q hn
      obtain ⟨ha, hn⟩ := List.nodup_cons.mp hn
      obtain ⟨h1, h2, h3, h4, h5, h6⟩ := ih (q.setV d a (v a) (lb a)) hn
      refine ⟨?_, ?_, ?_, ?_, ?_, ?_⟩
      · intro l hl
        rcases List.mem_cons.mp hl with rfl | hl
        · have := h2 d l fun i hi => by
            have : i ≠ l := by rintro rfl; exact ha hi
            omega
          simpa using this
        · exact h1 l hl
      · intro r l h
        have hne := h a (by simp)
        have := h2 r l fun i hi => h i (by simp [hi])
        rw [WRegs.getV_setV_ne _ _ _ hne, WRegs.labV_setV_ne _ _ _ hne] at this
        exact this
      · exact h3
      · exact h4
      · exact h5
      · intro k
        have := h6 k
        simp only [List.map_cons, List.foldl_cons]
        rw [this]
        have hd : k ∈ (q.setV d a (v a) (lb a)).dmg ↔ k ∈ q.dmg ∧ k ≠ dmgKeyV d a := mem_undamage
        rw [hd]
        simp only [List.mem_cons, forall_eq_or_imp]
        tauto
  obtain ⟨h1, h2, h3, h4, h5, h6⟩ := key (lanesOf m) q (lanesOf_nodup m)
  refine ⟨fun l hl => h1 l (mem_lanesOf.mpr hl), ⟨fun r l hlt h => h2 r l fun i hi => ?_, h3, h4, h5, fun k => ?_⟩⟩
  · have him := mem_lanesOf.mp hi
    have hi32 : i < 32 := by
      by_contra hc
      rw [BitVec.getLsbD_of_ge m i (by omega)] at him
      cases him
    intro he
    have hr : r = d := by omega
    have hli : l = i := by omega
    exact h ⟨hr, hli ▸ him⟩
  · rw [h6 k]
    simp only [mem_lanesOf]

theorem getLsbD_laneBit (l i : Nat) (hl : l < 32) : (laneBit l).getLsbD i = decide (i = l) := by
  have h1 : (1#32 : BitVec 32).getLsbD (i - l) = decide (i - l = 0) := by
    rw [BitVec.getLsbD_one]
    simp
  simp only [laneBit, BitVec.getLsbD_shiftLeft, h1]
  by_cases h : i = l
  · subst h; simp [hl]
  · by_cases h2 : i < l
    · simp [h2, h]
    · have : i - l ≠ 0 := by omega
      simp [this, h]

/-- P[p] after a write to one lane. -/
theorem getP_setP (q : WRegs) (p l : Nat) (v : Bool) (lb : Label) (hl : l < 32) (r i : Nat) :
    ((q.setP p l v lb).getP r).getLsbD i = if r = p ∧ p ≠ 7 ∧ i = l then v else (q.getP r).getLsbD i := by
  unfold WRegs.setP
  by_cases hp : p = 7
  · simp [hp]
  · rw [if_neg hp]
    simp only [WRegs.getP]
    by_cases hr : r = p
    · subst hr
      simp only [hp, if_false, aget_aset_same]
      cases v <;> by_cases hi : i = l
      · subst hi
        simp only [Bool.false_eq_true, if_false, BitVec.getLsbD_and, BitVec.getLsbD_not, getLsbD_laneBit i i hl, hl]
        simp [hp]
      · simp only [Bool.false_eq_true, if_false, BitVec.getLsbD_and, BitVec.getLsbD_not, getLsbD_laneBit l i hl, hi]
        by_cases h32 : i < 32
        · simp [h32]
        · simp [BitVec.getLsbD_of_ge _ i (Nat.le_of_not_lt h32), h32]
      · subst hi
        simp only [if_true, BitVec.getLsbD_or, getLsbD_laneBit i i hl]
        simp [hp]
      · simp [getLsbD_laneBit, hl, hi]
    · rw [aget_aset_ne _ _ _ hr]
      simp [hr]

theorem labP_setP (q : WRegs) (p l : Nat) (v : Bool) (lb : Label) (r i : Nat) :
    (q.setP p l v lb).labP r i = if p ≠ 7 ∧ r ≠ 7 ∧ 32 * r + i = 32 * p + l then lb else q.labP r i := by
  unfold WRegs.setP
  by_cases hp : p = 7
  · simp [hp]
  · rw [if_neg hp]
    simp only [WRegs.labP]
    by_cases hr : r = 7
    · simp [hr]
    · by_cases he : 32 * r + i = 32 * p + l
      · simp [hr, hp, he]
      · rw [aget_aset_ne _ _ _ he]
        simp [he]

theorem dmg_setP (q : WRegs) (p l : Nat) (v : Bool) (lb : Label) {k : Nat} (hk : k ≠ dmgKeyP p) :
    k ∈ (q.setP p l v lb).dmg ↔ k ∈ q.dmg := by
  unfold WRegs.setP
  split
  · rfl
  · simp only [mem_undamage]
    exact ⟨fun h => h.1, fun h => ⟨h, hk⟩⟩

/-- P[d] written in the lanes of a mask, one value and label for each; a write to P7 is discarded. -/
theorem foldl_setP (q : WRegs) (d : Nat) (m : Mask) (v : Nat → Bool) (lb : Nat → Label) :
    let q' := ((lanesOf m).map fun l => (l, v l, lb l)).foldl (fun q r => q.setP d r.1 r.2.1 r.2.2) q
    (d ≠ 7 → ∀ l, m.getLsbD l = true → (q'.getP d).getLsbD l = v l ∧ q'.labP d l = lb l) ∧ OnlyP q q' d m := by
  have key : ∀ (ls : List Nat) (q : WRegs), ls.Nodup → (∀ l ∈ ls, l < 32) →
      let q' := (ls.map fun l => (l, v l, lb l)).foldl (fun q r => q.setP d r.1 r.2.1 r.2.2) q
      (d ≠ 7 → ∀ l ∈ ls, (q'.getP d).getLsbD l = v l ∧ q'.labP d l = lb l) ∧
      (∀ r l, l < 32 → ¬ (r = d ∧ d ≠ 7 ∧ l ∈ ls) →
        (q'.getP r).getLsbD l = (q.getP r).getLsbD l ∧ q'.labP r l = q.labP r l) ∧
      (q'.g = q.g ∧ q'.gl = q.gl) ∧ (q'.v = q.v ∧ q'.vl = q.vl) ∧ (q'.m = q.m ∧ q'.ml = q.ml) ∧
      (∀ k, k ≠ dmgKeyP d → (k ∈ q'.dmg ↔ k ∈ q.dmg)) := by
    intro ls
    induction ls with
    | nil => intro q _ _; simp
    | cons a t ih =>
      intro q hn hlt
      obtain ⟨ha, hn⟩ := List.nodup_cons.mp hn
      have ha32 := hlt a (by simp)
      obtain ⟨h1, h2, h3, h4, h5, h6⟩ := ih (q.setP d a (v a) (lb a)) hn fun l hl => hlt l (by simp [hl])
      refine ⟨?_, ?_, ?_, ?_, ?_, ?_⟩
      · intro hd l hl
        rcases List.mem_cons.mp hl with rfl | hl
        · have := h2 d l ha32 fun hc => ha hc.2.2
          rw [getP_setP _ _ _ _ _ ha32, labP_setP] at this
          simpa [hd] using this
        · exact h1 hd l hl
      · intro r l hl h
        have := h2 r l hl fun hc => h ⟨hc.1, hc.2.1, by simp [hc.2.2]⟩
        rw [getP_setP _ _ _ _ _ ha32, labP_setP] at this
        have n1 : ¬ (r = d ∧ d ≠ 7 ∧ l = a) := fun hc => h ⟨hc.1, hc.2.1, by simp [hc.2.2]⟩
        have n2 : ¬ (d ≠ 7 ∧ r ≠ 7 ∧ 32 * r + l = 32 * d + a) := fun hc => n1 ⟨by omega, hc.1, by omega⟩
        rw [if_neg n1, if_neg n2] at this
        exact this
      · simpa using h3
      · simpa using h4
      · simpa using h5
      · intro k hk
        exact (h6 k hk).trans (dmg_setP q d a (v a) (lb a) hk)
  have h32 : ∀ l ∈ lanesOf m, l < 32 := by
    intro l hl
    have h := mem_lanesOf.mp hl
    by_contra hc
    rw [BitVec.getLsbD_of_ge m l (by omega)] at h
    cases h
  obtain ⟨h1, h2, h3, h4, h5, h6⟩ := key (lanesOf m) q (lanesOf_nodup m) h32
  refine ⟨fun hd l hl => h1 hd l (mem_lanesOf.mpr hl), ⟨fun r l hlt h => h2 r l hlt fun hc => ?_, h3, h4, h5, h6⟩⟩
  exact h ⟨hc.1, hc.2.1, mem_lanesOf.mp hc.2.2⟩

end Sys2Proof.Machine
end

