-- ==== Sys2Proof/Laws/Tiles.lean ====
section
/-! SUPPORT. What the matrix engine reads where nothing is damaged, and ranges that stand in increasing order. -/
namespace Sys2Proof.Laws
open Sys2Proof.Machine

/-- Ranges that stand in increasing order, none before `b`. -/
def ascending : Nat → List (Nat × Nat) → Bool
  | _, [] => true
  | b, p :: t => decide (b ≤ p.1) && ascending (p.1 + p.2) t

theorem ascending_from {l : List (Nat × Nat)} {b : Nat} (h : ascending b l = true) : ∀ p ∈ l, b ≤ p.1 := by
  induction l generalizing b with
  | nil => simp
  | cons p t ih =>
    simp only [ascending, Bool.and_eq_true, decide_eq_true_eq] at h
    rintro q (_ | ⟨_, hq⟩)
    · exact h.1
    · have := ih h.2 q hq
      omega

/-- Ranges in increasing order do not overlap. -/
theorem ascending_disjoint {l : List (Nat × Nat)} {b : Nat} (h : ascending b l = true) : disjointAll l = true := by
  induction l generalizing b with
  | nil => rfl
  | cons p t ih =>
    simp only [ascending, Bool.and_eq_true, decide_eq_true_eq] at h
    simp only [disjointAll, Bool.and_eq_true, List.all_eq_true, overlaps]
    refine ⟨fun q hq => ?_, ih h.2⟩
    have := ascending_from h.2 q hq
    simp; omega

/-- A looked-up value is a listed one. -/
theorem mem_of_kget {β : Type} {t : List (Nat × β)} {k : Nat} {v : β} (h : kget t k = some v) : (k, v) ∈ t := by
  induction t with
  | nil => simp [kget] at h
  | cons p t ih =>
    obtain ⟨j, w⟩ := p
    simp only [kget] at h
    split at h
    · next e => cases h; simp [e]
    · exact List.mem_cons_of_mem _ (ih h)

/-- No granule is damaged where no core's list names one. -/
theorem undamaged {s : State} (h : ∀ c ∈ s.cores, c.2.dmg = []) (pa : Nat) : granDamaged s pa = false := by
  unfold granDamaged State.core aget
  rcases e : kget s.cores (pa / 2 ^ 20) with _ | c
  · simp [Core.zero]
  · have hc : c.dmg = [] := h _ (mem_of_kget e)
    simp [hc]

/-- Nothing that a tile instruction reads is damaged: no granule, no buffered entry, and Echo has delivered nothing. -/
structure Undamaged (x : Ctx) (s : State) : Prop where
  ext : x.ext = []
  home : ∀ pa, granDamaged s pa = false
  phase : ∀ p ∈ s.warps, ∀ e ∈ p.2.phase, e.dmg = false

/-- The last entry of a byte is one of the entries. -/
theorem lastEntry_mem {es : List PhaseEntry} {i : Nat} {e : PhaseEntry} (h : lastEntry es i = some e) : e ∈ es := by
  unfold lastEntry at h
  suffices ∀ (l : List PhaseEntry) (b : Option PhaseEntry), (∀ c, b = some c → c ∈ es) → (∀ c ∈ l, c ∈ es) →
      ∀ c, l.foldl (fun b e =>
        if e.bytes.getLsbD i then
          match b with
          | none => some e
          | some c => if c.stamp < e.stamp then some e else b
        else b) b = some c → c ∈ es from this es none (by simp) (fun _ m => m) e h
  intro l
  induction l with
  | nil => exact fun b hb _ c hc => hb c hc
  | cons a t ih =>
    intro b hb hl
    refine ih _ (fun c hc => ?_) fun c m => hl c (List.mem_cons_of_mem _ m)
    have ha := hl a List.mem_cons_self
    dsimp only at hc
    split at hc
    · split at hc
      · exact Option.some.inj hc ▸ ha
      · split at hc
        · exact Option.some.inj hc ▸ ha
        · exact hb c hc
    · exact hb c hc

/-- No byte reads as damaged where nothing is. -/
theorem tileRead_sound {x : Ctx} {s : State} (h : Undamaged x s) (pa n : Nat) : ∀ b ∈ (tileRead x s pa n).2, b = false := by
  simp only [tileRead, h.ext, List.find?_nil, homeRead, List.mem_map]
  rintro b ⟨i, -, rfl⟩
  split
  · next e he =>
    have hm := lastEntry_mem he
    split at hm
    · simp at hm
    · simp only [coreEntries, List.mem_flatMap] at hm
      obtain ⟨p, hp, hm⟩ := hm
      split at hm
      · exact h.phase p hp e (List.mem_filter.1 hm).1
      · simp at hm
  · exact h.home pa

/-- No number is damaged where no byte is. -/
theorem wholeNums_sound {k n : Nat} {r : List Byte × List Bool} (h : ∀ b ∈ r.2, b = false) (j : Nat) :
    (nth (0, false) (wholeNums k n r) j).2 = false := by
  have hb (i : Nat) : ((r.2.drop (k * i)).take k).any id = false :=
    List.any_eq_false.2 fun b m => by simp [h b (List.mem_of_mem_drop (List.mem_of_mem_take m))]
  simp only [wholeNums, hb]
  generalize List.range n = l
  induction l generalizing j with
  | nil => rfl
  | cons _ _ ih => cases j with
    | zero => rfl
    | succ j => exact ih j

/-- TDRAIN.ADD finds no damaged element where no granule is damaged. -/
theorem addChunk_sound {x : Ctx} {s : State} (h : Undamaged x s) (d : Desc) (ofmt k m : Nat) (ys : List Nat) :
    (addChunk x s d ofmt k m ys).2 = [] := by
  simp only [addChunk, List.filter_eq_nil_iff]
  intro j _
  rw [wholeNums_sound fun b hb => ?_]
  · simp
  simp only [List.mem_flatMap, List.mem_map] at hb
  obtain ⟨_, ⟨p, -, rfl⟩, hb⟩ := hb
  exact tileRead_sound h _ p.2 b hb

/-- A drain meets no damage where its block, its tile and the Gallery have none and it reads no bias. -/
theorem runDrain_sound {x : Ctx} {s : State} {o : TileOp} {t : Tile} (h : Undamaged x s)
    (ho : o.blkDmg = false) (hb : blkBiasen o = false) (ht : t.dmg = []) : (runDrain x s o t).dmg = false := by
  simp only [runDrain, ho, hb, ht]
  simp only [Bool.false_eq_true, if_false, List.zipIdx_nil, List.filter_nil, List.isEmpty_nil, Bool.not_true, Bool.or_false,
    Bool.false_or, List.any_eq_false, List.mem_flatMap, List.mem_map]
  rintro c ⟨m, -, k, -, rfl⟩
  by_cases h6 : o.op = 6 <;> simp [h6, addChunk_sound h]

end Sys2Proof.Laws
end

