-- ==== Sys2Proof/Tests/Slice0.lean ====
section
/-! SUPPORT. Tests: ill-formed terms, words of the specification, and for each statement states and operands that meet its
hypotheses. -/
namespace Sys2Proof.Tests
open Sys2Proof Sys2Proof.Machine Sys2Proof.Machine.Claim Sys2Proof.Laws

set_option maxRecDepth 20000
set_option Elab.async false
set_option synthInstance.maxSize 2000

/-! ## Helpers -/

/-- A word placed as log entry 8 says, its warp with 32 lanes, all in the issuing group. -/
def placed (i : Instr) : State :=
  (placeWord State.reset ((encode i).getD 0)).modWarp 0 fun w =>
    { w with exited := 0, pc := setPcs [] 0xFFFFFFFF#32 (wd codeVa), run := w.run.map fun q => { q with grp := 0xFFFFFFFF#32 } }

/-- The same with G registers set. -/
def placedG (i : Instr) (gs : List (Nat × Nat)) : State :=
  (placed i).modWarp 0 fun w => { w with regs := gs.foldl (fun q p => q.setG p.1 (wd p.2) []) w.regs }

/-- The same with the warp changed. -/
def placedW (i : Instr) (f : Warp → Warp) : State := (placed i).modWarp 0 f

/-- An instruction passes the checks of Ready at a state, and a condition holds of its context. -/
def Meets (i : Instr) (u : Ctx → Uses) (act : Ctx → Mask) (moved : Bool) (s : State) (P : Ctx → Prop) : Prop :=
  ∃ x, Ready i (u x) (act x) moved s x ∧ P x

/-- Meets as it computes. -/
def meetsB (i : Instr) (u : Ctx → Uses) (act : Ctx → Mask) (moved : Bool) (s : State) (P : Ctx → Prop) [DecidablePred P] : Bool :=
  match issuerOf (preIssue i s) with
  | some x => decide (hazard x.w (u x) = false ∧ markedRead x.w (u x) = none ∧ damagedReads x.w.regs (u x) (act x) = [] ∧
      (warpWide i = true → x.w.live &&& ~~~x.grp = 0) ∧ (boundary i = true → moved = false → EdgeOk x (preIssue i s)) ∧ P x)
  | none => false

theorem meets {i : Instr} {u : Ctx → Uses} {act : Ctx → Mask} {moved : Bool} {s : State} {P : Ctx → Prop} [DecidablePred P]
    (h : meetsB i u act moved s P = true) : Meets i u act moved s P := by
  unfold meetsB at h
  split at h
  · next x hx =>
    obtain ⟨h1, h2, h3, h4, h5, h6⟩ := of_decide_eq_true h
    exact ⟨x, ⟨hx, h1, h2, h3, h4, h5⟩, h6⟩
  · cases h

theorem meets_all {α : Type} {l : List α} {i : α → Instr} {u : α → Ctx → Uses} {act : α → Ctx → Mask} {moved : Bool}
    {s : α → State} {P : α → Ctx → Prop} [dec : ∀ p, DecidablePred (P p)]
    (h : (l.all fun p => meetsB (i p) (u p) (act p) moved (s p) (P p)) = true) :
    ∀ p ∈ l, Meets (i p) (u p) (act p) moved (s p) (P p) :=
  fun p hp => meets (List.all_eq_true.mp h p hp)

/-- The effect of one step on a placed instruction's warp, where the step answers a next state. -/
def after {α : Type} (s : State) (f : State → α) : Option α :=
  match step s with
  | .next t => some (f t)
  | _ => none

theorem Meets.mono {i : Instr} {u : Ctx → Uses} {act : Ctx → Mask} {moved : Bool} {s : State} {P Q : Ctx → Prop}
    (h : Meets i u act moved s P) (f : ∀ x, P x → Q x) : Meets i u act moved s Q := by
  obtain ⟨x, hx, hp⟩ := h
  exact ⟨x, hx, f x hp⟩

/-! ## Well-formedness: a term that each check refuses -/

theorem test_ill_formed_words : ∀ i ∈ [Instr.clauseHeader 0 12 0 1, .clauseHeader 0 0 14 1, .vextS false 7 1 2 3, .vextZ false 7 1 2 3,
    .vnar false 7 1 2 0, .vnars false 7 1 2 0, .vred false 7 1 2 11 0, .vred false 7 1 2 8 3, .vscan false 7 1 2 11 0,
    .vscan false 7 1 2 10 3, .vfadd false 7 1 2 3 3, .vfsub false 7 1 2 3 3, .vfmul false 7 1 2 3 3, .vfma false 7 1 2 3 3,
    .vfmin false 7 1 2 3 3, .vfmax false 7 1 2 3 3, .vfcmp false 7 1 0 2 3 3, .vfabs false 7 1 2 3, .vfneg false 7 1 2 3,
    .vcvt false 7 1 2 0x22, .atom false 7 1 2 3 11 0, .atom false 7 1 3 3 9 0, .atomr false 7 1 2 3 11 0 0, .atomr false 7 1 3 3 9 0 0,
    .gcmp false 1 2 3 8, .bra 0 7 0 1, .call 1 7 2 4, .callx 1 7 2 4, .ret 1 7 2, .exit 1 7, .loop 3 1 1, .loopg 3 1 1, .lbrk 3 1,
    .ord false 5 2, .ord false 1 0, .phrel false 1, .phacq false 0, .phase false 1, .enter false 0, .leave false 0, .bar 1, .bara false 1,
    .barw 0, .tmma false 0 1 2 6 0, .ttrn false 1 2 5 0, .sread false 1 6, .sread false 1 0x18, .sread false 1 0x40, .swrite false 1 0x0F],
    wellFormed i = false := by decide +kernel

theorem test_ill_formed_devices : ∀ i ∈ [Instr.longLatencyComplete 20480 0, .parkWake 20480, .atomicPerform 20480 0, .barrierWaitEnd 20480,
    .waitseqObserve 20480, .ringPushAdmit 20480 0, .ringPopTake 20480 0, .tileAllocate 640, .tileExecute 640, .flowstoneGroupExecute 640,
    .heldRequestAccept 20480, .launchRecordCopy 20480 0, .doorbellWrite 4096 0, .queueEnableWrite 4096 0 0 0, .enqueueVerdict 4096,
    .launchEligible 4096, .trapNotice 640, .damageSnapshot 160, .coreSelfTest 640 false, .eccCorrect 640 ⟨.granule 0, true⟩, .lateTransitionReplay 640 false,
    .preemptRequest 64, .resumeRequest 64, .coreSwap 640, .contextSaveMove 640, .contextResumeLoad 64 0 true, .contextResumeLoad 0 640 true,
    .echoCompare 0 0 32, .onceOpRendezvous 0 0 32, .echoStraggler 0 0 32, .reclone 0 0 3, .engineChunk 0 0 3, .hptEpochEnd 16,
    .rowHammerThrottle 16 0, .caParityAlert 16 false, .collectiveChunk 64, .flitReceive 18 true ⟨true, 0, 0, 0⟩, .linkKeyUpdateRequest 18,
    .linkKeyStall 18, .portAttest 18 0 ⟨true, [], []⟩, .commTableWrite 0x100000 0, .registerWrite 0x180000 0, .linkKeyInstall 18, .portRetrain 18],
    wellFormed i = false := by decide +kernel

/-! ## Decoding: the words of the specification's examples -/

theorem test_decode_uniform : ∀ p ∈ ([
    (0x800828C5, .gmad false 4 5 6), (0x80861FF8, .gaddImm false 3 3 0x7F8), (0x800E4126, .gdivS false 7 8 9),
    (0x8002084C, .gxor false 1 1 2), (0x800620B0, .gsar false 3 4 5), (0x800410F5, .gmaxZ false 2 2 7),
    (0x800C0817, .gclz false 6 1), (0x800828DA, .gbfxZ false 4 5 6), (0x818A4567, .gmovh false 5 0x4567),
    (0x82040063, .glea false 2 0 3 3), (0x82821062, .gcmp false 1 2 3 2), (0x830828C7, .gsel false 4 5 6 7),
    (0x83901920, .grdl false 8 3 9), (0x83821002, .gbal false 1 2)] : List (BitVec 32 × Instr)), decode p.1 = some p.2 := by
  decide +kernel

theorem test_decode_lane : ∀ p ∈ ([
    (0x01710518, .vaddsZ false 7 4 5 6 0), (0x0190820F, .vsub false 1 2 2 3 3), (0x03F30417, .vmulhS false 7 12 4 5 3),
    (0x05728416, .vdot4S8 false 7 10 4 5), (0x06F0410B, .vxor false 7 1 1 2), (0x0870C31D, .vsar false 7 3 3 7 1),
    (0x09F08226, .vmaxS false 7 2 2 9 2), (0x0AA1461F, .vsel false 2 5 6 7), (0x0B71051B, .vshufL false 7 4 5 6),
    (0x0BF10519, .vshufE false 7 4 5 6 1), (0x0C794109, .vcmp false 7 4 5 1 2 1), (0x0CF0FFFD, .vmovi false 7 3 0xFFF 1),
    (0x0D708712, .vpop false 7 2 7 2), (0x0D718615, .vextS false 7 6 6 1), (0x0D71C822, .vnars false 7 7 8 2),
    (0x0D724427, .vbcast false 7 9 4), (0x0DF0C202, .vred false 7 3 2 0 2), (0x0E714111, .vscan false 7 5 1 4 1)] : List (BitVec 32 × Instr)), decode p.1 = some p.2 := by
  decide +kernel

theorem test_decode_numbers : ∀ p ∈ ([
    (0x1070420C, .vfadd false 7 1 2 3 0), (0x10F1051A, .vfsub false 7 4 5 6 2), (0x1171C825, .vfmul false 7 7 8 9 1),
    (0x11F28B30, .vfma false 7 10 11 12 0), (0x1270420C, .vfmin false 7 1 2 3 0), (0x12F0420D, .vfmax false 7 1 2 3 1),
    (0x1372820C, .vfcmp false 7 1 2 2 3 0), (0x13F0C400, .vfabs false 7 3 4 0), (0x13F0C405, .vfneg false 7 3 4 1),
    (0x14718700, .vrcp false 7 6 7 0), (0x14718703, .vrsq false 7 6 7 1), (0x14708304, .vexp2 false 7 2 3 0),
    (0x14710506, .vlog2 false 7 4 5 0), (0x14F10500, .vcvt false 7 4 5 0), (0x14F0C21C, .vcvt false 7 3 2 7),
    (0x14F08340, .vcvt false 7 2 3 16), (0x15714600, .vpack6 false 7 5 6), (0x15714604, .vunpk6 false 7 5 6),
    (0x15750808, .vqb4 false 7 20 2), (0x1576140C, .vdqb4 false 7 6 20)] : List (BitVec 32 × Instr)), decode p.1 = some p.2 := by
  decide +kernel

theorem test_decode_control : ∀ p ∈ ([
    (0xC80A0005, .bra 0 1 2 5), (0xC88BFFFD, .bru 5 0xFFFD), (0xC9003800, .brx 7), (0xC99D0014, .call 0 3 40 20),
    (0xCA3D0480, .callx 0 7 40 9), (0xCABD0000, .ret 0 7 40), (0x8B11800C, .jset false 1 6 12), (0xCB900000, .join 1),
    (0x8C180800, .jstat false 12 1), (0xCCD00000, .exit 1 2), (0xCD00200B, .loop 0 16 11), (0xCDA20027, .loopg 1 4 39),
    (0xCE240000, .lbrk 1 8), (0xCE805160, .park 10 11), (0xCF000000, .yield), (0x8F800000, .nop false)] : List (BitVec 32 × Instr)), decode p.1 = some p.2 := by
  decide +kernel

theorem test_decode_memory : ∀ p ∈ ([
    (0x1820D147, .vldS8 false 2 3 4 5 3 1), (0x1AF297C4, .vld64 false 7 10 5 15 2 0), (0x1CF1CC82, .vst64 false 7 7 3 2 1),
    (0x90080010, .gld false 4 0 8 0), (0x90880010, .gst false 4 0 8), (0x91260000, .ord false 2 3),
    (0x91B00000, .phrel false 3), (0x91B40000, .phase false 3), (0x92000004, .enter false 4), (0x92800004, .leave false 4),
    (0x93500002, .spill false 40 2), (0x93D00002, .fill false 40 2)] : List (BitVec 32 × Instr)), decode p.1 = some p.2 := by
  decide +kernel

theorem test_decode_labels : ∀ p ∈ ([
    (0x94062000, .lgetV false 3 4), (0x940A3001, .lgetG false 5 6), (0x940A3002, .lgetGranule false 5 6),
    (0x94041803, .lgetP false 2 3), (0x94904800, .lsetv false 8 9), (0x950020A0, .lraise false 4 5),
    (0x958020A0, .lclear false 4 5), (0x960620A0, .ljoin false 3 4 5), (0x960620A1, .ldom false 3 4 5),
    (0x960E400A, .lown false 7 8 2), (0x96945980, .dcls false 10 11 12), (0x97145982, .dclsT false 10 11 12 2),
    (0x978020A0, .endorse false 4 5), (0x97802001, .endrev false 4), (0x978C2002, .endq false 6 4)] : List (BitVec 32 × Instr)), decode p.1 = some p.2 := by
  decide +kernel

theorem test_decode_sync : ∀ p ∈ ([
    (0x1D70D140, .atom false 7 3 4 5 0 0), (0x1DF18867, .atomr false 7 6 2 1 9 1 1),
    (0x1DF08FE8, .atomr false 7 2 3 15 10 0 0), (0x1E711580, .atomXadd false 7 4 5 6), (0x1E7017C4, .xclr false 7 5 15),
    (0x1EF1D7C0, .xrnd false 7 7 5 15 0), (0xD8300000, .bar 3), (0x98220000, .bara false 2), (0xD8240000, .barw 2),
    (0x98804000, .rinit false 8), (0x99004120, .rpush false 8 9 0), (0x99944000, .rpop false 10 8 0),
    (0x9A164121, .rpushT false 11 8 9 1), (0x9A984000, .rpopT false 6 8 0), (0x9B1A4000, .rstat false 13 8)] : List (BitVec 32 × Instr)), decode p.1 = some p.2 := by
  decide +kernel

theorem test_decode_tiles : ∀ p ∈ ([
    (0xA0001080, .tmma false 0 1 2 0 0), (0xA0021089, .tmma false 1 1 2 4 1), (0xA0820000, .tzero false 1 0),
    (0xA10C1000, .ttrn false 3 1 0 0), (0xA1807C00, .tscl false 0 0x3E00 0), (0xA2044000, .tlda false 2 8 0),
    (0xA2805001, .tdrain false 0 10 1), (0xA3065000, .tdrainAdd false 3 10 0), (0xA3980000, .tstat false 12 0),
    (0xA40020A0, .ruleld false 4 5), (0xA4802000, .ruleoff false 4), (0xA5000000, .flushw false),
    (0xA58C3800, .ruleq false 6 7)] : List (BitVec 32 × Instr)), decode p.1 = some p.2 := by
  decide +kernel

theorem test_decode_engines_system : ∀ p ∈ ([
    (0xA8004120, .etail false 8 9), (0xE8805160, .waitseq 10 11), (0xA9184000, .seqr false 12 8),
    (0xA9807000, .coll false 14), (0xAA1E8000, .commq false 15 16), (0xAC0A0000, .erid false 5), (0xAC8C0000, .esig false 3),
    (0xAD0E0000, .estat false 7), (0xAD8020A0, .einj false 4 5), (0xF000000A, .trap 5), (0xF0800000, .tret),
    (0xB10A0005, .sread false 5 5), (0xB1060001, .sread false 3 1), (0xB1803003, .swrite false 6 3),
    (0xB20E0000, .clkr false 7), (0xB2900000, .rand false 8 0), (0xF3000000, .halt), (0xB38A3000, .capr false 5 6),
    (0xB40020A0, .slog false 4 5)] : List (BitVec 32 × Instr)), decode p.1 = some p.2 := by
  decide +kernel

/-- Reserved values (R26): an element format, a condition, a flag select, a word whose zero bits are not, a level. -/
theorem test_decode_reserved : ([0x1070420F#32, 0x82821068#32, 0xBF804E14#32, 0xF0800001#32, 0xD8080000#32, 0xFFFFFFFF#32].all
    fun w => (decode w).isNone) = true := by decide +kernel

/-! ## One step: results worked out from the rules -/

/-- V2 and V3 of lane 4. -/
def lanes4 (i : Instr) (a b : Word) : State :=
  placedW i fun w => { w with regs := ((w.regs.setV 2 4 a []).setV 3 4 b []) }

/-- V1 of lane 4 after one step. -/
def laneResult (i : Instr) (a b : Word) : Option Word := after (lanes4 i a b) fun t => t.q.getV 1 4

/-- G1 after one step with G2 and G3 given. -/
def groupResult (i : Instr) (a b : Nat) : Option Word := after (placedG i [(2, a), (3, b)]) fun t => t.q.getG 1

theorem test_gadd_wraps : groupResult (.gadd false 1 2 3) (2 ^ 64 - 1) 2 = some 1 := by decide +kernel
theorem test_gsub_order : groupResult (.gsub false 1 2 3) 3 5 = some 0xFFFFFFFFFFFFFFFE#64 := by decide +kernel
theorem test_gaddImm_negative : groupResult (.gaddImm false 1 2 0x7F8) 8 0 = some 0 := by decide +kernel
theorem test_gmulh_signs : groupResult (.gmulhS false 1 2 3) (2 ^ 64 - 1) 1 = some 0xFFFFFFFFFFFFFFFF#64 ∧
    groupResult (.gmulhZ false 1 2 3) (2 ^ 64 - 1) 1 = some 0 := by decide +kernel
theorem test_gdiv_toward_zero : groupResult (.gdivS false 1 2 3) (2 ^ 64 - 7) 2 = some 0xFFFFFFFFFFFFFFFD#64 ∧
    groupResult (.gremS false 1 2 3) (2 ^ 64 - 7) 2 = some 0xFFFFFFFFFFFFFFFF#64 := by decide +kernel
theorem test_gsar_fills : groupResult (.gsar false 1 2 3) (2 ^ 63) 63 = some 0xFFFFFFFFFFFFFFFF#64 := by decide +kernel
theorem test_gclz_low : groupResult (.gclz false 1 2) 1 0 = some 63 := by decide +kernel
theorem test_vadds_clamps_bytes : laneResult (.vaddsZ false 7 1 2 3 0) 0xFF01#64 0x0203#64 = some 0xFF04#64 := by decide +kernel
theorem test_vaddsS_clamps_halfwords : laneResult (.vaddsS false 7 1 2 3 1) 0x7FFF8000#64 0x0001FFFF#64 = some 0x7FFF8000#64 := by decide +kernel
theorem test_vsub_words_apart : laneResult (.vsub false 7 1 2 3 2) 0x0000000100000000#64 0x0000000000000001#64 =
    some 0x00000001FFFFFFFF#64 := by decide +kernel
theorem test_vext_halfwords : laneResult (.vextS false 7 1 2 1) 0xFFFF#64 0 = some 0x00000000FFFFFFFF#64 := by decide +kernel
theorem test_vnars_clamps : laneResult (.vnars false 7 1 2 2) 0x80000000_00012345#64 0 = some 0x80007FFF#64 := by decide +kernel
/-- 1.0 × 2.0 with 0 added in both elements. -/
theorem test_vfma_product : laneResult (.vfma false 7 1 2 3 0) 0x3F8000003F800000#64 0x4000000040000000#64 = some 0x4000000040000000#64 := by
  decide +kernel
/-- 2^24 + 1 in FP32 is a tie, to even. -/
theorem test_vfadd_ties_to_even : laneResult (.vfadd false 7 1 2 3 0) 0x4B800000#64 0x3F800000#64 = some 0x4B800000#64 := by decide +kernel
theorem test_vcvt_signed_word : laneResult (.vcvt false 7 1 2 0x10) 0xFFFFFFFF#64 0 = some 0xBF800000#64 := by decide +kernel
/-- Lane 4 takes the branch, 5 words on (R157); the clause ends there. -/
theorem test_bra_target : after (placedW (.bra 0 1 2 5) fun w => { w with
      regs := w.regs.setP 1 4 true [], j := [(2, ⟨0xFFFFFFFF#32, 0, true, false, false, 0, [], [], 0x80100#64, 0x80100#64, false⟩)] })
    (fun t => t.w.pcOf 4) = some 0x80018#64 := by decide +kernel

/-! ## Witnesses: integer and floating instructions -/

theorem test_witness_UniformResult : ∀ p ∈ uniforms false 1 2 3 5 7 9 2 4,
    Meets p.1 (fun _ => gUses p.2.1 1) (fun _ => allLanes) false (placed p.1)
      (fun x => Binds (placed p.1) x.asid (joinAll (gLabels x p.2.1))) := meets_all (by decide +kernel)

theorem test_witness_BitFieldResult : ∀ p ∈ fieldBits true 1 2 3,
    Meets p.1 (fun _ => gUses p.2.1 1) (fun _ => allLanes) false (placedG p.1 [(2, 5), (3, 0x7F3F)])
      (fun x => Binds (placedG p.1 [(2, 5), (3, 0x7F3F)]) x.asid (joinAll (gLabels x p.2.1))) := meets_all (by decide +kernel)

theorem test_witness_UniformCompare : ∀ c ∈ List.range 8, Meets (.gcmp false 1 2 3 (BitVec.ofNat 5 c))
    (fun _ => gUses [2, 3] 1) (fun _ => allLanes) false (placed (.gcmp false 1 2 3 (BitVec.ofNat 5 c)))
    (fun x => Binds (placed (.gcmp false 1 2 3 (BitVec.ofNat 5 c))) x.asid (joinAll (gLabels x [2, 3]))) :=
  meets_all (i := fun c => .gcmp false 1 2 3 (BitVec.ofNat 5 c)) (by decide +kernel)

theorem test_witness_LaneAndMaskResult_grdl_gone :
    let s := (placedG (.grdl false 1 2 3) [(3, 31)]).modWarp 0 fun w => { w with exited := laneBit 31 }
    Meets (.grdl false 1 2 3) (fun _ => { rv := [2], rg := [3], wg := [1] }) (fun _ => 0) false s
      (fun x => x.w.exited.getLsbD 31 = true ∧ Binds s x.asid (joinAll [x.w.regs.labG 3, x.w.wcl])) := meets (by decide +kernel)

theorem test_witness_LaneAndMaskResult_grdl : Meets (.grdl false 1 2 3)
    (fun _ => { rv := [2], rg := [3], wg := [1] }) (fun _ => laneBit 31) false (placedG (.grdl false 1 2 3) [(3, 31)])
    (fun x => x.w.exited.getLsbD 31 = false ∧ Binds (placedG (.grdl false 1 2 3) [(3, 31)]) x.asid
      (joinAll [x.w.regs.labV 2 31, x.w.regs.labG 3, x.w.wcl])) := meets (by decide +kernel)

theorem test_witness_LaneAndMaskResult_gbal : Meets (.gbal false 1 2)
    (fun _ => { rp := [2], wm := [1] }) (fun _ => allLanes) false (placed (.gbal false 1 2))
    (fun x => Binds (placed (.gbal false 1 2)) x.asid (joinAll ((lanesOf x.w.live).map (x.w.regs.labP 2) ++ [x.w.wcl]))) :=
  meets (by decide +kernel)

theorem test_witness_LaneAndMaskResult_masks : ∀ i ∈ [Instr.gpopm false 1 2, .gffs false 1 2], Meets i
    (fun _ => { rm := [2], wg := [1] }) (fun _ => allLanes) false (placed i)
    (fun x => Binds (placed i) x.asid (joinAll [x.w.regs.labM 2, x.w.wcl])) := meets_all (i := id) (by decide +kernel)

theorem test_witness_LaneAndMaskResult_gwrl : Meets (.gwrl false 1 2 3)
    (fun _ => { rg := [2, 3], wv := [1] }) (fun _ => allLanes) false (placedG (.gwrl false 1 2 3) [(3, 31)])
    (fun x => LabelsFit x (placedG (.gwrl false 1 2 3) [(3, 31)]) (x.grp &&& laneBit 31)
      (fun _ => [x.w.regs.labG 2, x.w.regs.labG 3, x.w.wcl])) := meets (by decide +kernel)

theorem test_witness_LaneBinaryResult : ∀ p ∈ laneBinaries false 7 1 2 3 3 64,
    Meets p.1 (fun _ => vUses 7 [2, 3] 1) (activeLanes · 7) false (placed p.1)
      (fun x => LabelsFit x (placed p.1) (activeLanes x 7) (vLabels x 7 [2, 3])) := meets_all (by decide +kernel)

theorem test_witness_LaneWholeResult : ∀ i ∈ [Instr.vand false 0 1 2 3, .vor false 0 1 2 3, .vxor false 0 1 2 3, .vshufE false 0 1 2 3 1],
    Meets i (fun _ => vUses 0 [2, 3] 1) (activeLanes · 0) false (placed i)
      (fun x => LabelsFit x (placed i) (activeLanes x 0) (vLabels x 0 [2, 3])) := meets_all (i := id) (by decide +kernel)

theorem test_witness_LaneAccumulateResult : ∀ i ∈ [Instr.vmad false 7 1 2 3 0, .vdot4S8 false 7 1 2 3],
    Meets i (fun _ => vUses 7 [2, 3, 1] 1) (activeLanes · 7) false (placed i)
      (fun x => LabelsFit x (placed i) (activeLanes x 7) (vLabels x 7 [2, 3, 1])) := meets_all (i := id) (by decide +kernel)

theorem test_witness_LaneUnaryResult : ∀ i ∈ (laneUnaries false 7 1 2 0 8).map (·.1) ++ (laneWords false 7 1 2 1 16).map (·.1),
    Meets i (fun _ => vUses 7 [2] 1) (activeLanes · 7) false (placed i)
      (fun x => LabelsFit x (placed i) (activeLanes x 7) (vLabels x 7 [2])) := meets_all (i := id) (by decide +kernel)

theorem test_witness_LaneUnaryResult_vmovi : Meets (.vmovi false 7 1 0x800 1) (fun _ => vUses 7 [] 1) (activeLanes · 7) false
    (placed (.vmovi false 7 1 0x800 1))
    (fun x => LabelsFit x (placed (.vmovi false 7 1 0x800 1)) (activeLanes x 7) (vLabels x 7 [])) := meets (by decide +kernel)

theorem test_witness_LaneUnaryResult_vbcast : Meets (.vbcast false 7 1 63) (fun _ => { rg := [63], rp := [7], wv := [1] })
    (activeLanes · 7) false (placed (.vbcast false 7 1 63))
    (fun x => LabelsFit x (placed (.vbcast false 7 1 63)) (activeLanes x 7) (fun l => x.w.regs.labG 63 :: vLabels x 7 [] l)) :=
  meets (by decide +kernel)

theorem test_witness_LaneSelectResult_vsel : Meets (.vsel false 0 1 2 3) (fun _ => vUses 0 [2, 3] 1) (fun x => x.grp) false
    (placed (.vsel false 0 1 2 3)) (fun x => LabelsFit x (placed (.vsel false 0 1 2 3)) x.grp (vLabels x 0 [2, 3])) :=
  meets (by decide +kernel)

theorem test_witness_LaneSelectResult_vshufL : Meets (.vshufL false 7 1 2 3) (fun _ => vUses 7 [2, 3] 1) (fun _ => 0) false
    (placed (.vshufL false 7 1 2 3))
    (fun x => x.w.regs.dmg = [] ∧ LabelsFit x (placed (.vshufL false 7 1 2 3)) (activeLanes x 7) (fun l =>
      (if x.w.exited.getLsbD ((x.w.regs.getV 3 l).extractLsb' 0 5).toNat then []
        else [x.w.regs.labV 2 ((x.w.regs.getV 3 l).extractLsb' 0 5).toNat]) ++ vLabels x 7 [3] l)) := meets (by decide +kernel)

theorem test_witness_LaneCompareResult : ∀ p ∈ [1, 7], Meets (.vcmp false 7 (BitVec.ofNat 3 p) 2 2 3 2)
    (fun _ => { rv := [2, 3], rp := [7], wp := [p] }) (activeLanes · 7) false (placed (.vcmp false 7 (BitVec.ofNat 3 p) 2 2 3 2))
    (fun x => LabelsFit x (placed (.vcmp false 7 (BitVec.ofNat 3 p) 2 2 3 2)) (activeLanes x 7) (vLabels x 7 [2, 3])) :=
  meets_all (i := fun p => .vcmp false 7 (BitVec.ofNat 3 p) 2 2 3 2) (by decide +kernel)

theorem test_witness_ReductionResult_vred : Meets (.vred false 7 1 2 0 3) (fun _ => vUses 7 [2] 1) (activeLanes · 7) false
    (placed (.vred false 7 1 2 0 3))
    (fun x => LabelsFit x (placed (.vred false 7 1 2 0 3)) (activeLanes x 7)
      (fun _ => guardAll x 7 :: (lanesOf (activeLanes x 7)).map (x.w.regs.labV 2))) := meets (by decide +kernel)

theorem test_witness_ReductionResult_vscan : Meets (.vscan false 7 1 2 0 3) (fun _ => vUses 7 [2] 1) (activeLanes · 7) false
    (placed (.vscan false 7 1 2 0 3))
    (fun x => LabelsFit x (placed (.vscan false 7 1 2 0 3)) (activeLanes x 7)
      (fun l => guardAll x 7 :: ((lanesOf (activeLanes x 7)).filter (· ≤ l)).map (x.w.regs.labV 2))) := meets (by decide +kernel)

theorem test_witness_RoundingRight : (formats.map (·.width)) = [32, 16, 16, 8, 8, 6, 4] := by decide +kernel

theorem test_witness_FloatArithmetic : ∀ p ∈ floatBinaries false 7 1 2 3 0 fp32,
    Meets p.1 (fun _ => vUses 7 [2, 3] 1) (activeLanes · 7) false (placed p.1)
      (fun x => LabelsFit x (placed p.1) (activeLanes x 7) (vLabels x 7 [2, 3])) := meets_all (by decide +kernel)

theorem test_witness_FloatArithmetic_vfma : Meets (.vfma false 7 1 2 3 1) (fun _ => vUses 7 [2, 3, 1] 1) (activeLanes · 7) false
    (placed (.vfma false 7 1 2 3 1))
    (fun x => LabelsFit x (placed (.vfma false 7 1 2 3 1)) (activeLanes x 7) (vLabels x 7 [2, 3, 1])) := meets (by decide +kernel)

theorem test_witness_FloatCompareAndSign_vfcmp : Meets (.vfcmp false 7 1 6 2 3 0) (fun _ => { rv := [2, 3], rp := [7], wp := [1] })
    (activeLanes · 7) false (placed (.vfcmp false 7 1 6 2 3 0))
    (fun x => LabelsFit x (placed (.vfcmp false 7 1 6 2 3 0)) (activeLanes x 7) (vLabels x 7 [2, 3])) := meets (by decide +kernel)

theorem test_witness_FloatCompareAndSign : ∀ i ∈ [Instr.vfabs false 7 1 2 0, .vfneg false 7 1 2 1],
    Meets i (fun _ => vUses 7 [2] 1) (activeLanes · 7) false (placed i)
      (fun x => LabelsFit x (placed i) (activeLanes x 7) (vLabels x 7 [2])) := meets_all (i := id) (by decide +kernel)

theorem test_witness_SpecialFunctions : ∀ i ∈ [Instr.vrcp false 7 1 2 0, .vrsq false 7 1 2 1, .vexp2 false 7 1 2 0, .vlog2 false 7 1 2 1],
    Meets i (fun _ => vUses 7 [2] 1) (activeLanes · 7) false (placed i)
      (fun x => LabelsFit x (placed i) (activeLanes x 7) (vLabels x 7 [2])) := meets_all (i := id) (by decide +kernel)

theorem test_witness_ConversionResult : ∀ m ∈ conversions.map (·.1), Meets (.vcvt false 7 1 2 (BitVec.ofNat 6 m))
    (fun _ => vUses 7 [2] 1) (activeLanes · 7) false (placed (.vcvt false 7 1 2 (BitVec.ofNat 6 m)))
    (fun x => LabelsFit x (placed (.vcvt false 7 1 2 (BitVec.ofNat 6 m))) (activeLanes x 7) (vLabels x 7 [2])) :=
  meets_all (i := fun m => .vcvt false 7 1 2 (BitVec.ofNat 6 m)) (by decide +kernel)

theorem test_witness_BlockFormats : ∀ i ∈ [Instr.vpack6 false 7 1 2, .vunpk6 false 7 1 2],
    Meets i (fun _ => vUses 7 [2] 1) (activeLanes · 7) false (placed i)
      (fun x => LabelsFit x (placed i) (activeLanes x 7) (vLabels x 7 [2])) := meets_all (i := id) (by decide +kernel)

theorem test_witness_BlockFormats_vqb4 : Meets (.vqb4 false 7 1 15) (fun _ => vUses 7 [60, 61, 62, 63] 1) (activeLanes · 7) false
    (placed (.vqb4 false 7 1 15))
    (fun x => LabelsFit x (placed (.vqb4 false 7 1 15)) (activeLanes x 7) (vLabels x 7 [60, 61, 62, 63])) := meets (by decide +kernel)

theorem test_witness_BlockFormats_vdqb4 : Meets (.vdqb4 false 7 15 2) (fun _ => { rv := [2], rp := [7], wv := [60, 61, 62, 63] })
    (activeLanes · 7) false (placed (.vdqb4 false 7 15 2))
    (fun x => LabelsFit x (placed (.vdqb4 false 7 15 2)) (activeLanes x 7) (vLabels x 7 [2])) := meets (by decide +kernel)

/-! ## Witnesses: control -/

/-- A rejoin register armed for every lane at the clause `o` bytes from the placed one. -/
def armedAt (o : Nat) : JReg := ⟨0xFFFFFFFF#32, 0, true, false, false, 1, [], [], wd (codeVa + o), 0, false⟩

/-- A loop over the placed clause. -/
def loopHere (last : Nat) : LoopCtr := ⟨3, true, wd codeVa, wd (codeVa + last), 1⟩

theorem test_witness_BranchMoves_braUncond : ∀ o ∈ [3#16, 0x7FFF#16], Meets (.braUncond o) (fun _ => {}) (fun _ => 0) true
    (placed (.braUncond o)) (fun x => TargetOk x (placed (.braUncond o)) false x.grp (ahead x o)) :=
  meets_all (i := fun o => .braUncond o) (by decide +kernel)

theorem test_witness_BranchMoves_bra : Meets (.bra 1 2 0 5) (fun _ => { rp := [2] }) (fun x => ctlLanes x 1 2) true
    (placedW (.bra 1 2 0 5) fun w => w.setRejoin 0 (armedAt 64))
    (fun x => (x.w.rejoin 0).armed = true ∧ x.grp &&& ~~~(x.w.rejoin 0).expect = 0 ∧
      dominates (x.w.rejoin 0).region (guardsJoin x 2) = true ∧
      TargetOk x (placedW (.bra 1 2 0 5) fun w => w.setRejoin 0 (armedAt 64)) false (ctlLanes x 1 2) (ahead x (5 : BitVec 16))) :=
  meets (by decide +kernel)

theorem test_witness_BranchMoves_bru : ∀ p ∈ [(Instr.bru 2 5, 1), (.bruz 2 5, 0)], Meets p.1 (fun _ => gReads [2]) (fun _ => 0) true
    (placedG p.1 [(2, p.2)]) (fun x => dominates x.w.wcl (x.w.regs.labG 2) = true ∧ (x.w.regs.getG 2).toNat = p.2 ∧
      TargetOk x (placedG p.1 [(2, p.2)]) false x.grp (ahead x (5 : BitVec 16))) := meets_all (by decide +kernel)

theorem test_witness_BranchMoves_brx : Meets (.brx 2) (fun _ => gReads [2]) (fun _ => 0) true
    (placedG (.brx 2) [(2, 2 * codeVa - 4)]) (fun x => dominates x.w.wcl (x.w.regs.labG 2) = true ∧
      TargetOk x (placedG (.brx 2) [(2, 2 * codeVa - 4)]) true x.grp (x.w.regs.getG 2)) := meets (by decide +kernel)

theorem test_witness_CallsAndReturns_call : Meets (.call 0 7 9 5) (fun _ => { rp := [7], wv := [9] }) (fun x => ctlLanes x 0 7) true
    (placed (.call 0 7 9 5)) (fun x => dominates x.w.wcl (guardsJoin x 7) = true ∧
      TargetOk x (placed (.call 0 7 9 5)) false (ctlLanes x 0 7) (ahead x (5 : BitVec 13))) := meets (by decide +kernel)

theorem test_witness_CallsAndReturns_callx : Meets (.callx 0 7 9 2) (fun _ => { rg := [2], rp := [7], wv := [9] })
    (fun x => ctlLanes x 0 7) true (placedG (.callx 0 7 9 2) [(2, codeVa + 64)])
    (fun x => dominates x.w.wcl (joinL (guardsJoin x 7) (x.w.regs.labG 2)) = true ∧
      TargetOk x (placedG (.callx 0 7 9 2) [(2, codeVa + 64)]) true (ctlLanes x 0 7) (x.w.regs.getG 2)) := meets (by decide +kernel)

/-- Every lane's link register holds a later clause. -/
def linked (i : Instr) : State :=
  placedW i fun w => { w with regs := (List.range 32).foldl (fun q l => q.setV 9 l (wd (codeVa + 64 + 4 * l)) []) w.regs }

theorem test_witness_CallsAndReturns_ret : Meets (.ret 0 7 9) (fun _ => { rv := [9], rp := [7] }) (fun x => ctlLanes x 0 7) true
    (linked (.ret 0 7 9))
    (fun x => dominates x.w.wcl (joinAll (guardsJoin x 7 :: (lanesOf (ctlLanes x 0 7)).map (x.w.regs.labV 9))) = true ∧
      ∀ l < 32, (ctlLanes x 0 7).getLsbD l = true →
        TargetOk x (linked (.ret 0 7 9)) true (laneBit l) (x.w.regs.getV 9 l)) := meets (by decide +kernel)

theorem test_witness_RejoinInstructions_jset : Meets (.jset false 0 2 16) (fun _ => gReads [2]) (fun _ => 0) false
    (placed (.jset false 0 2 16)) (fun x => (x.w.rejoin 0).armed = false ∧ 0 < (16#14).toInt ∧
      (x.w.regs.getG 2).toNat < 4096 ∧ setOf (x.labels (placed (.jset false 0 2 16))) (x.w.regs.getG 2).toNat = some [] ∧
      BindsAll (placed (.jset false 0 2 16)) x.asid
        [joinL [] (x.w.regs.labG 2), joinL x.w.wcl (joinL [] (x.w.regs.labG 2))]) := meets (by decide +kernel)

theorem test_witness_RejoinInstructions_jstat : Meets (.jstat false 1 0) (fun _ => { wg := [1] }) (fun _ => 0) false
    (placed (.jstat false 1 0)) (fun x => Binds (placed (.jstat false 1 0)) x.asid (joinL x.w.wcl (x.w.rejoin 0).region) ∧
      (x.w.rejoin 0).depth < 16 ∧ handleIn (x.labels (placed (.jstat false 1 0))) (x.w.rejoin 0).region = some 0 ∧
      handleIn (x.labels (placed (.jstat false 1 0))) (x.w.rejoin 0).outer = some 0) := meets (by decide +kernel)

theorem test_witness_RejoinInstructions_join : Meets (.join 0) (fun _ => {}) (fun _ => 0) true
    (placedW (.join 0) fun w => w.setRejoin 0 (armedAt 0))
    (fun x => (x.w.rejoin 0).armed = true ∧ (x.w.rejoin 0).target = x.run.hdr ∧ x.grp &&& ~~~(x.w.rejoin 0).expect = 0 ∧
      ∀ k, k < 8 → (x.w.rejoin k).armed = true → (x.w.rejoin k).depth ≤ (x.w.rejoin 0).depth) := meets (by decide +kernel)

theorem test_witness_RejoinInstructions_yield : Meets .yield (fun _ => {}) (fun _ => 0) true (placed .yield) (fun _ => True) :=
  meets (by decide +kernel)

theorem test_witness_RejoinInstructions_nop : Meets (.nop false) (fun _ => {}) (fun _ => 0) false (placed (.nop false))
    (fun _ => True) := meets (by decide +kernel)

/-- A warp whose J0 is armed at a clause, its lanes at another. -/
def waitsAt (target here : Nat) : Warp :=
  { (Warp.zero.setRejoin 0 (armedAt target)) with pc := setPcs [] 0xFFFFFFFF#32 (wd (codeVa + here)), exited := 0 }

theorem test_witness_RejoinInstructions_waits :
    let w := waitsAt 64 64
    let r := w.rejoin 0
    r.armed = true ∧ ∃ l, l < 32 ∧ (r.expect.getLsbD l = true ∧ r.arrived.getLsbD l = false ∧ w.exited.getLsbD l = false) ∧
      (w.pcOf l).toNat ≤ r.target.toNat := by decide +kernel

theorem test_witness_RejoinInstructions_released :
    let w := waitsAt 64 68
    let r := w.rejoin 0
    r.armed = true ∧ ∀ l, l < 32 → (r.expect.getLsbD l = true ∧ r.arrived.getLsbD l = false ∧ w.exited.getLsbD l = false) →
      ¬ (w.parkedLanes.getLsbD l = true ∨ w.arrivedLanes.getLsbD l = true) ∧ w.handler = none ∧
        r.target.toNat < (w.pcOf l).toNat := by decide +kernel

/-- Lanes outside the group of a trap handler are not eligible (R364). -/
theorem test_witness_RejoinInstructions_handler :
    let w := { waitsAt 64 68 with handler := some ⟨1#32, [], false, none, 0, 0, [], []⟩ }
    (w.rejoin 0).armed = true ∧ ∃ l, l < 32 ∧ ((w.rejoin 0).expect.getLsbD l = true ∧ (w.rejoin 0).arrived.getLsbD l = false ∧
      w.exited.getLsbD l = false) ∧ ∃ h, w.handler = some h ∧ h.grp.getLsbD l = false :=
  ⟨by decide +kernel, 1, by decide +kernel, by decide +kernel, _, rfl, by decide +kernel⟩

/-- An exit release: no lane is missing and one has exited. -/
theorem test_witness_RejoinInstructions_exit :
    let w := { (Warp.zero.setRejoin 0 { armedAt 64 with arrived := 0xFFFFFFFE#32 }) with exited := 1#32 }
    (w.rejoin 0).armed = true ∧ (∀ l, l < 32 → ¬ ((w.rejoin 0).expect.getLsbD l = true ∧ (w.rejoin 0).arrived.getLsbD l = false ∧
      w.exited.getLsbD l = false)) ∧ ∃ l, l < 32 ∧ (w.rejoin 0).expect.getLsbD l = true ∧ w.exited.getLsbD l = true := by decide +kernel

theorem test_witness_LoopMoves_loop : ∀ c ∈ [0#12, 5#12], Meets (.loop 2 c 0) (fun _ => {}) (fun _ => 0) true
    (placed (.loop 2 c 0)) (fun x => Converged x ∧ ((x.w.loop 2).active = false ∧ ∀ j, j < 3 → (x.w.loop j).active = false) ∧
      TargetOk x (placed (.loop 2 c 0)) false x.grp (x.pc + 4 + 4)) := meets_all (i := fun c => .loop 2 c 0) (by decide +kernel)

theorem test_witness_LoopMoves_loopg : ∀ v ∈ [0, 4294967295], Meets (.loopg 0 2 0) (fun _ => gReads [2]) (fun _ => 0) true
    (placedG (.loopg 0 2 0) [(2, v)])
    (fun x => Converged x ∧ ((x.w.loop 0).active = false ∧ ∀ j, j < 3 → (x.w.loop j).active = false) ∧
      dominates x.w.wcl (x.w.regs.labG 2) = true ∧ (x.w.regs.getG 2).toNat = v ∧ v < 2 ^ 32 ∧
      TargetOk x (placedG (.loopg 0 2 0) [(2, v)]) false x.grp (x.pc + 4 + 4)) :=
  meets_all (i := fun _ => .loopg 0 2 0) (by decide +kernel)

theorem test_witness_LoopMoves_lbrk : ∀ v ∈ [0, 1],
    let s := (placedG (.lbrk 0 2) [(2, v)]).modWarp 0 fun w => w.setLoop 0 (loopHere 4)
    Meets (.lbrk 0 2) (fun _ => gReads [2]) (fun _ => 0) true s
    (fun x => Converged x ∧ dominates x.w.wcl (x.w.regs.labG 2) = true ∧ (x.w.regs.getG 2).toNat = v ∧
      (x.w.loop 0).active = true ∧ (x.w.loop 0).first.toNat ≤ x.pc.toNat ∧ x.pc.toNat ≤ (x.w.loop 0).last.toNat ∧
      TargetOk x s false x.grp ((x.w.loop 0).last + 4)) := meets_all (i := fun _ => .lbrk 0 2) (by decide +kernel)

theorem test_witness_ParkMoves : ∀ v ∈ [0, 1], Meets (.park 2 3) (fun _ => gReads [2, 3]) (fun _ => 0) true
    (placedG (.park 2 3) [(2, 4088), (3, v)])
    (fun x => (x.w.regs.getG 2).toNat % 8 = 0 ∧
      galPa x (preIssue (.park 2 3) (placedG (.park 2 3) [(2, 4088), (3, v)])) 4088 8 false = some 4088 ∧
      dominates x.w.wcl (joinAll [x.w.regs.labG 2, x.w.regs.labG 3, granLabel (placedG (.park 2 3) [(2, 4088), (3, v)]).mem 4088]) = true ∧
      atomicOn x.w x.core [4088] = false ∧ x.w.items = [] ∧ x.replicated = false ∧
      (wd (readNum (placedG (.park 2 3) [(2, 4088), (3, v)]).mem.gal 4088 8) = x.w.regs.getG 3 ↔ v = 0)) :=
  meets_all (i := fun _ => .park 2 3) (by decide +kernel)

/-- One buffered byte for core 0 and one for core 1. -/
def buffering (w : Warp) : Warp :=
  { w with phase := [⟨3, 0xAB#512, 1#64, [], 192, 0, false, []⟩, ⟨16384, 0xCD#512, 1#64, [], 2 ^ 20, 1, false, []⟩] }

theorem test_witness_ExitEndsLanes_last : Meets (.exit 0 7) (fun _ => { rp := [7] }) (fun x => ctlLanes x 0 7) true
    (placedW (.exit 0 7) buffering) (fun x => dominates x.w.wcl (guardsJoin x 7) = true ∧ x.w.marks = [] ∧
      x.w.exited ||| ctlLanes x 0 7 = 0xFFFFFFFF#32 ∧ x.w.phase ≠ [] ∧
      unfinished (preIssue (.exit 0 7) (placedW (.exit 0 7) buffering)) x x.w = false ∧ x.w.echo = none ∧ x.replicated = false ∧
      x.w.passed = [] ∧ (x.w.phase.map (·.gran)).Nodup ∧
      ∀ e ∈ x.w.phase, dominates (granLabel (placedW (.exit 0 7) buffering).mem (e.gran * 64)) e.lab = true) :=
  meets (by decide +kernel)

theorem test_witness_ExitEndsLanes_some : Meets (.exit 0 2) (fun _ => { rp := [2] }) (fun x => ctlLanes x 0 2) true
    (placedW (.exit 0 2) fun w => { w with regs := { w.regs with p := [(2, 0x7FFFFFFF#32)] } })
    (fun x => dominates x.w.wcl (guardsJoin x 2) = true ∧ x.w.marks = [] ∧ x.w.exited ||| ctlLanes x 0 2 ≠ 0xFFFFFFFF#32) :=
  meets (by decide +kernel)

/-! ## Witnesses: loads, stores, phases and the stack -/

/-- Core 1's slice opened to the placed launch by its partition's map and a grant of 64 granules (R53, R172). -/
def opened (s : State) : State :=
  { s.modPart 0 fun p => { p with maplen := 1, smap := [(0, 1)] } with
    launches := kset s.launches 0 { placedLaunch with
      record := { placedRecord with grants := [wd (2 ^ 46 + 64 * 2 ^ 26 + 16 * 2 ^ 14)] } } }

/-- Lane l's index register V1 holds 64 l + 56, G2 where core 0's or core 1's slice starts, V9 a value. -/
def strided (i : Instr) (core : Nat) (f : Warp → Warp) : State :=
  let regs := fun q : WRegs => (List.range 32).foldl (fun q l => (q.setV 1 l (wd (64 * l + 56)) []).setV 9 l (wd (l + 1)) []) q
  opened (placedW i fun w => f { w with regs := (regs w.regs).setG 2 (wd (core * 2 ^ 24)) [] })

/-- Where lane l's access goes. -/
def stridedPa (core l : Nat) : Nat := core * 2 ^ 20 + 64 * l + 56

/-- The warp's next instruction is under an ORD with a release part, and bytes are buffered. -/
def releasing (w : Warp) : Warp := { buffering w with ord := some (2, 2) }

theorem test_witness_LoadsStart_vld : ∀ q ∈ (vlds false 7 9 2 1 0 1).product [0, 1],
    Meets q.1.1 (fun _ => { rv := indexRegs 1, rg := [2], rp := [7], wv := [9] }) (activeLanes · 7) false (strided q.1.1 q.2 id)
      (fun x => x.releases = false ∧
        Reaches x (preIssue q.1.1 (strided q.1.1 q.2 id)) (activeLanes x 7) q.1.2.1 false (laneAddr x 2 1 0 q.1.2.1) (stridedPa q.2) ∧
        Unhindered x ((lanesOf (activeLanes x 7)).map (stridedPa q.2))) := meets_all (by decide +kernel)

theorem test_witness_LoadsStart_vld_release : ∀ q ∈ (vlds false 7 9 2 1 0 1).product [0, 1],
    Meets q.1.1 (fun _ => { rv := indexRegs 1, rg := [2], rp := [7], wv := [9] }) (activeLanes · 7) false (strided q.1.1 q.2 releasing)
      (fun x => x.w.ord = some (2, 2) ∧
        Reaches x (preIssue q.1.1 (strided q.1.1 q.2 releasing)) (activeLanes x 7) q.1.2.1 false (laneAddr x 2 1 0 q.1.2.1)
          (stridedPa q.2) ∧
        Unhindered x ((lanesOf (activeLanes x 7)).map (stridedPa q.2)) ∧
        Releases x (preIssue q.1.1 (strided q.1.1 q.2 releasing)) 2) := meets_all (by decide +kernel)

theorem test_witness_LoadsStart_gld : ∀ f ∈ [id, releasing], let s := placedW (.gld false 1 2 511 0) f
    Meets (.gld false 1 2 511 0) (fun _ => { rg := [2], wg := [1] }) (fun _ => 0) false s
      (fun x => (x.releases = false ∨ x.w.ord = some (2, 2)) ∧ ((x.w.regs.getG 2).toNat + 8 * 511) % 2 ^ 64 % 8 = 0 ∧
        galPa x (preIssue (.gld false 1 2 511 0) s) 4088 8 false = some 4088 ∧ Unhindered x [4088] ∧
        Releases x (preIssue (.gld false 1 2 511 0) s) 2) :=
  meets_all (i := fun _ => .gld false 1 2 511 0) (by decide +kernel)

theorem test_witness_StoresWrite_vst : ∀ q ∈ (vsts false 7 9 2 1 0).product [0, 1],
    Meets q.1.1 (fun _ => { rv := 9 :: indexRegs 1, rg := [2], rp := [7] }) (activeLanes · 7) false (strided q.1.1 q.2 id)
      (fun x =>
        let u := preIssue q.1.1 (strided q.1.1 q.2 id)
        let ls := storesOf x (lanesOf (activeLanes x 7)) (stridedPa q.2) q.1.2 9 (addrLabels x 7 2 1)
        x.w.ord = none ∧ Reaches x u (activeLanes x 7) q.1.2 true (laneAddr x 2 1 0 q.1.2) (stridedPa q.2) ∧
        Unhindered x ((lanesOf (activeLanes x 7)).map (stridedPa q.2)) ∧
        (∀ p ∈ ls, dominates (storeMust x u p.1) p.2.2 = true) ∧ Fits x u ls) := meets_all (by decide +kernel)

theorem test_witness_StoresWrite_gst : Meets (.gst false 1 2 511) (fun _ => { rg := [1, 2] }) (fun _ => 0) false
    (placed (.gst false 1 2 511))
    (fun x =>
      let u := preIssue (.gst false 1 2 511) (placed (.gst false 1 2 511))
      let lab := joinAll [x.w.regs.labG 1, x.w.regs.labG 2, x.w.wcl]
      x.w.ord = none ∧ galPa x u 4088 8 true = some 4088 ∧ Unhindered x [4088] ∧ dominates (storeMust x u 4088) lab = true ∧
        Fits x u [(4088, toBytes 8 (x.w.regs.getG 1).toNat, lab)]) := meets (by decide +kernel)

/-- An ORD decoded before another instruction of its clause. -/
def ordered (j : Instr) : State :=
  placedW (.ord false 1 2) fun w => { w with run := w.run.map fun r =>
    { r with words := [0xBF800008#32, (encode (.ord false 1 2)).getD 0, (encode j).getD 0] } }

theorem test_witness_StoresWrite_ord : ∀ j ∈ orderable false 7 9 2 2 1 0 0 0 1 1,
    Meets (.ord false 1 2) (fun _ => {}) (fun _ => 0) false (ordered j)
      (fun x => x.w.ord = none ∧ x.lr.declared 2 = true ∧ (x.run.wordAt (x.pc + 4)).bind decode = some j) :=
  meets_all (i := fun _ => .ord false 1 2) (by decide +kernel)

theorem test_witness_StoresWrite_ordered : ∀ q ∈ (vsts false 7 9 2 1 0).product [0, 1],
    Meets q.1.1 (fun _ => { rv := 9 :: indexRegs 1, rg := [2], rp := [7] }) (activeLanes · 7) false (strided q.1.1 q.2 releasing)
      (fun x =>
        let u := preIssue q.1.1 (strided q.1.1 q.2 releasing)
        x.w.ord = some (2, 2) ∧ Reaches x u (activeLanes x 7) q.1.2 true (laneAddr x 2 1 0 q.1.2) (stridedPa q.2) ∧
        Unhindered x ((lanesOf (activeLanes x 7)).map (stridedPa q.2)) ∧ Releases x u 2 ∧
        ∀ p ∈ storesOf x (lanesOf (activeLanes x 7)) (stridedPa q.2) q.1.2 9 (addrLabels x 7 2 1),
          dominates (storeMust x u p.1) p.2.2 = true ∧ dominates (granLabel u.mem p.1) p.2.2 = true) := meets_all (by decide +kernel)

theorem test_witness_StoresWrite_ordered_gst : Meets (.gst false 1 2 511) (fun _ => { rg := [1, 2] }) (fun _ => 0) false
    (placedW (.gst false 1 2 511) releasing)
    (fun x =>
      let u := preIssue (.gst false 1 2 511) (placedW (.gst false 1 2 511) releasing)
      let lab := joinAll [x.w.regs.labG 1, x.w.regs.labG 2, x.w.wcl]
      x.w.ord = some (2, 2) ∧ galPa x u 4088 8 true = some 4088 ∧ Unhindered x [4088] ∧ Releases x u 2 ∧
        dominates (storeMust x u 4088) lab = true ∧ dominates (granLabel u.mem 4088) lab = true) := meets (by decide +kernel)

theorem test_witness_PhaseInstructions : ∀ p ∈ [(Instr.phrel false 2, 2), (.phacq false 0, 0), (.phase false 2, 2)],
    Meets p.1 (fun _ => {}) (fun _ => 0) false (placedW p.1 buffering)
      (fun x => x.lr.declared p.2 = true ∧ x.w.phase ≠ [] ∧ Releases x (preIssue p.1 (placedW p.1 buffering)) p.2) :=
  meets_all (by decide +kernel)

theorem test_witness_StackInstructions_enter : Meets (.enter false 2) (fun _ => stackUses) (fun _ => allLanes) false
    (placedG (.enter false 2) [(63, 4096)])
    (fun x =>
      let u := preIssue (.enter false 2) (placedG (.enter false 2) [(63, 4096)])
      (x.w.regs.getG 63).toNat % 16 = 0 ∧ 32 + x.w.slim.toNat ≤ (x.w.regs.getG 63).toNat ∧
        inWindow x ((x.w.regs.getG 63).toNat - 32) 32 (4088 + 8 - 32) ∧ Unhindered x [4088] ∧
        BindsAll u x.asid [joinAll [granLabel u.mem 4088, x.w.regs.labG 62, x.w.wcl], joinL (x.w.regs.labG 63) x.w.wcl]) :=
  meets (by decide +kernel)

theorem test_witness_StackInstructions_leave : Meets (.leave false 2) (fun _ => stackUses) (fun _ => allLanes) false
    (placedG (.leave false 2) [(62, 4096), (63, 4064)])
    (fun x =>
      let u := preIssue (.leave false 2) (placedG (.leave false 2) [(62, 4096), (63, 4064)])
      x.w.regs.getG 62 = x.w.regs.getG 63 + BitVec.ofNat 64 32 ∧ (x.w.regs.getG 62).toNat = 4096 ∧
        galPa x u 4088 8 false = some 4088 ∧ 4088 / 2 ^ 20 = x.core ∧ Unhindered x [4088] ∧
        BindsAll u x.asid [joinL (x.w.regs.labG 62) x.w.wcl, joinL (granLabel u.mem 4088) x.w.wcl]) := meets (by decide +kernel)

/-- The slot of SPILL and FILL at 3824 can be reached. -/
abbrev SlotAt (x : Ctx) (u : State) (wr : Bool) : Prop :=
  (x.w.regs.getG 63).toNat = 3824 ∧ 3824 + 272 ≤ (x.w.regs.getG 62).toNat ∧
    (∀ o < 256, galPa x u (3824 + o) 1 wr = some (3824 + o) ∧ (3824 + o) / 2 ^ 20 = x.core) ∧
    Unhindered x ((lanesOf x.grp).map (slotWord 3824))

theorem test_witness_StackInstructions_spill : Meets (.spill false 9 0) (fun _ => { rv := [9], rg := [62, 63] }) (fun x => x.grp) false
    (placedG (.spill false 9 0) [(62, 4096), (63, 3824)])
    (fun x =>
      let u := preIssue (.spill false 9 0) (placedG (.spill false 9 0) [(62, 4096), (63, 3824)])
      SlotAt x u true ∧ x.w.phase.length ≤ 256 ∧
        BindsAll u x.asid (((List.range ((3824 + 255) / 64 - 3824 / 64 + 1)).map (3824 / 64 + ·)).map fun g =>
          joinAll ([granLabel u.mem (g * 64), x.w.regs.labG 63, x.w.wcl] ++
            ((lanesOf x.grp).filter fun l => decide (slotWord 3824 l / 64 = g)).map (x.w.regs.labV 9)))) := meets (by decide +kernel)

theorem test_witness_StackInstructions_fill : Meets (.fill false 9 0) (fun _ => { rg := [62, 63], wv := [9] }) (fun _ => 0) false
    (placedG (.fill false 9 0) [(62, 4096), (63, 3824)])
    (fun x =>
      let u := preIssue (.fill false 9 0) (placedG (.fill false 9 0) [(62, 4096), (63, 3824)])
      SlotAt x u false ∧ LabelsFit x u x.grp (fun l => [granLabel u.mem (slotWord 3824 l), x.w.regs.labG 63, x.w.wcl])) :=
  meets (by decide +kernel)

/-! ## Witnesses: synchronisation -/

/-- Lane l's index register V1 holds 64 l, V9 a value, V10 another. -/
def cells (i : Instr) : State :=
  let regs := fun q : WRegs => (List.range 32).foldl
    (fun q l => ((q.setV 1 l (wd (64 * l)) []).setV 9 l (wd (l + 1)) []).setV 10 l (wd l) []) q
  placedW i fun w => { w with regs := regs w.regs }

theorem test_witness_Atomics_issue : ∀ o ∈ [0#4, 9#4, 10#4], ∀ p ∈ atomics false 7 9 2 1 o 1 1,
    Meets p.1 (fun _ => { rv := p.2.1 ++ indexRegs 1, rg := [2], rp := [7], wv := if p.2.2.2.2.2.2 then [9] else [] })
      (activeLanes · 7) false (cells p.1)
      (fun x => x.w.ord = none ∧ x.w.items = [] ∧ x.replicated = false ∧
        (∀ l < 32, (activeLanes x 7).getLsbD l = true → ∀ e ∈ x.w.phase, e.gran ≠ 64 * l / 64) ∧
        Reaches x (preIssue p.1 (cells p.1)) (activeLanes x 7) p.2.2.2.1 true (laneAddr x 2 1 0 p.2.2.2.1) (64 * ·) ∧
        ∀ l < 32, (activeLanes x 7).getLsbD l = true → dominates (storeMust x (preIssue p.1 (cells p.1)) (64 * l))
          (joinAll (atomJoin x 7 2 1 p.2.1 l)) = true) := by
  intro o ho
  simp only [List.mem_cons, List.not_mem_nil, or_false] at ho
  rcases ho with rfl | rfl | rfl <;> exact meets_all (by decide +kernel)

theorem test_witness_Atomics_xrnd : Meets (.xrnd false 7 9 2 1 1) (fun _ => { rv := indexRegs 1, rg := [2], rp := [7], wv := [9] })
    (activeLanes · 7) false (cells (.xrnd false 7 9 2 1 1))
    (fun x => Reaches x (preIssue (.xrnd false 7 9 2 1 1) (cells (.xrnd false 7 9 2 1 1))) (activeLanes x 7) 64 false
        (laneAddr x 2 1 0 64) (64 * ·) ∧ atomicOn x.w x.core ((lanesOf (activeLanes x 7)).map (64 * ·)) = false ∧
      ∀ l < 32, (activeLanes x 7).getLsbD l = true →
        dominates (storeMust x (preIssue (.xrnd false 7 9 2 1 1) (cells (.xrnd false 7 9 2 1 1))) (64 * l))
          (joinAll (atomJoin x 7 2 1 [] l)) = true) := meets (by decide +kernel)

theorem test_witness_BarriersAndCompletions_arrive : ∀ i ∈ [Instr.bara false 2, .bar 2], Meets i (fun _ => {}) (fun _ => 0) false
    (placed i) (fun x => barrierLevel x 2 ∧ kget x.w.arrived 2 = none ∧ Quiet x (preIssue i (placed i))) :=
  meets_all (i := id) (by decide +kernel)

theorem test_witness_BarriersAndCompletions_barw : Meets (.barw 2) (fun _ => {}) (fun _ => 0) false
    (placedW (.barw 2) fun w => { w with arrived := [(2, 1)] })
    (fun x => barrierLevel x 2 ∧ kget x.w.arrived 2 = some (0 + 1)) := meets (by decide +kernel)

/-- A ring of four dwords at 64, its descriptor at 0, its slots at 64. -/
def ringBytes : List Byte := toBytes 4 64 ++ [3, 0] ++ toBytes 2 4 ++ toBytes 2 0 ++ toBytes 2 0

/-- The ring as RINIT arms it. -/
def ringAt : Ring := ⟨64, 64, 0, 3, 4, 4, [], 0, 0, 0, 0, [], [], none, [], []⟩

/-- The descriptor's bytes stand in the window. -/
def ringMem (i : Instr) : State := { placed i with mem := (placed i).mem.writeGal 0 ringBytes }

/-- The ring is armed. -/
def ringArmed (i : Instr) : State := { ringMem i with rings := [(0, ringAt)] }

theorem test_witness_Rings_rinit : Meets (.rinit false 2) (fun _ => { rg := [2] }) (fun _ => 0) false (ringMem (.rinit false 2))
    (fun x => x.replicated = false ∧ galPa x (preIssue (.rinit false 2) (ringMem (.rinit false 2))) 0 64 true = some 0 ∧
      Unhindered x [0] ∧ (∀ e ∈ x.w.phase, e.gran ≠ 0) ∧
      RingFields (preIssue (.rinit false 2) (ringMem (.rinit false 2))).mem.gal 0 64 3 0 4 0 0 ∧
      SlotsOk x (preIssue (.rinit false 2) (ringMem (.rinit false 2))) 0 64 64 (4 * 2 ^ 3) ∧
      setOf (x.labels (ringMem (.rinit false 2))) 0 = some [] ∧
      dominates [] (joinAll [granLabel (ringMem (.rinit false 2)).mem 0, x.w.regs.labG 2, x.w.wcl]) = true ∧
      ∀ g < 2, 1 ≤ g → dominates (granLabel (ringMem (.rinit false 2)).mem (g * 64)) [] = true) := meets (by decide +kernel)

theorem test_witness_Rings_rpush : ∀ p ∈ [(Instr.rpush false 2 3 1, none), (.rpushT false 1 2 3 1, some 1)],
    Meets p.1 (fun _ => { rg := [2, 3], wg := p.2.toList }) (fun _ => 0) false (ringArmed p.1)
      (fun x => x.replicated = false ∧ galPa x (preIssue p.1 (ringArmed p.1)) 0 64 true = some 0 ∧ Unhindered x [0] ∧
        kget (ringArmed p.1).rings 0 = some ringAt ∧
        dominates [] (joinL (x.w.regs.labG 3) (joinAll [x.w.regs.labG 2, x.w.wcl])) = true ∧
        Quiet x (preIssue p.1 (ringArmed p.1)) ∧
        BindsAll (preIssue p.1 (ringArmed p.1)) x.asid [joinL [] (joinAll [x.w.regs.labG 2, x.w.wcl])]) :=
  meets_all (by decide +kernel)

theorem test_witness_Rings_rpop : ∀ p ∈ [(Instr.rpop false 1 2 1, [1]), (.rpopT false 1 2 1, [2, 3])],
    Meets p.1 (fun _ => { rg := [2], wg := p.2 }) (fun _ => 0) false (ringArmed p.1)
      (fun x => x.replicated = false ∧ galPa x (preIssue p.1 (ringArmed p.1)) 0 64 true = some 0 ∧ Unhindered x [0] ∧
        kget (ringArmed p.1).rings 0 = some ringAt ∧
        BindsAll (preIssue p.1 (ringArmed p.1)) x.asid [joinL [] (joinAll [x.w.regs.labG 2, x.w.wcl])]) :=
  meets_all (by decide +kernel)

theorem test_witness_Rings_rstat : ∀ s ∈ [ringMem (.rstat false 1 2), ringArmed (.rstat false 1 2)],
    Meets (.rstat false 1 2) (fun _ => { rg := [2], wg := [1] }) (fun _ => 0) false s
      (fun x => x.replicated = false ∧ galPa x (preIssue (.rstat false 1 2) s) 0 64 false = some 0 ∧ Unhindered x [0] ∧
        Binds (preIssue (.rstat false 1 2) s) x.asid
          (joinL (granLabel (preIssue (.rstat false 1 2) s).mem 0) (joinAll [x.w.regs.labG 2, x.w.wcl]))) :=
  meets_all (i := fun _ => .rstat false 1 2) (by decide +kernel)

/-! ## Witnesses: labels -/

/-- Handle 1 names owner 5 and handle 2 owners 5 and 9; the launch acts for owner 5, which has endorsed the empty set once.
V2 carries owner 5 in every lane, G2 and G3 hold handles. -/
def labelled (i : Instr) (g2 g3 : Nat) : State :=
  let s := (placedG i [(2, g2), (3, g3)]).modWarp 0 fun w =>
    { w with regs := (List.range 32).foldl (fun q l => q.setV 2 l (wd l) [5]) w.regs }
  (s.modAsid 0 fun a => { a with labels := [(1, [5]), (2, [5, 9])], endorse := [(5, (1, []))] }).modLaunch 0 fun l =>
    { l with record := { l.record with ownact := 5 } }

theorem test_witness_Labels_lgetV : Meets (.lgetV false 1 2) (fun _ => { rv := [2], wv := [1] }) (fun x => x.grp) false
    (labelled (.lgetV false 1 2) 0 0) (fun x => GroupFits x (preIssue (.lgetV false 1 2) (labelled (.lgetV false 1 2) 0 0))
      (fun l => joinL (x.w.regs.labV 2 l) x.w.wcl)) := meets (by decide +kernel)

theorem test_witness_Labels_lgetP : Meets (.lgetP false 1 2) (fun _ => { rp := [2], wv := [1] }) (fun _ => 0) false
    (labelled (.lgetP false 1 2) 0 0) (fun x => GroupFits x (preIssue (.lgetP false 1 2) (labelled (.lgetP false 1 2) 0 0))
      (fun l => joinL (x.w.regs.labP 2 l) x.w.wcl)) := meets (by decide +kernel)

theorem test_witness_Labels_lgetG : Meets (.lgetG false 1 2) (fun _ => { rg := [2], wg := [1] }) (fun _ => 0) false
    (labelled (.lgetG false 1 2) 0 0) (fun x => handleIn (x.labels (labelled (.lgetG false 1 2) 0 0)) (x.w.regs.labG 2) = some 0 ∧
      Binds (preIssue (.lgetG false 1 2) (labelled (.lgetG false 1 2) 0 0)) x.asid (joinAll [x.w.regs.labG 2, x.w.wcl])) :=
  meets (by decide +kernel)

theorem test_witness_Labels_lgetGranule : Meets (.lgetGranule false 1 2) (fun _ => { rg := [2], wg := [1] }) (fun _ => 0) false
    (labelled (.lgetGranule false 1 2) 4095 0)
    (fun x => galPa x (preIssue (.lgetGranule false 1 2) (labelled (.lgetGranule false 1 2) 4095 0)) 4095 1 false = some 4095 ∧
      Unhindered x [4095] ∧ 4095 / 2 ^ 20 = x.core ∧
      joinAll [granLabel (labelled (.lgetGranule false 1 2) 4095 0).mem 4095] = granLabel (labelled (.lgetGranule false 1 2) 4095 0).mem 4095 ∧
      BindsAll (preIssue (.lgetGranule false 1 2) (labelled (.lgetGranule false 1 2) 4095 0)) x.asid
        [granLabel (labelled (.lgetGranule false 1 2) 4095 0).mem 4095,
          joinL (granLabel (labelled (.lgetGranule false 1 2) 4095 0).mem 4095) (joinAll [x.w.regs.labG 2, x.w.wcl])]) :=
  meets (by decide +kernel)

theorem test_witness_Labels_lsetv : Meets (.lsetv false 2 3) (fun _ => { rv := [2], rg := [3], wv := [2] }) (fun x => x.grp) false
    (labelled (.lsetv false 2 3) 0 2) (fun x => Names x (labelled (.lsetv false 2 3) 0 2) (x.w.regs.getG 3) [5, 9] ∧
      GroupFits x (preIssue (.lsetv false 2 3) (labelled (.lsetv false 2 3) 0 2))
        (fun l => joinAll [x.w.regs.labV 2 l, [5, 9], x.w.regs.labG 3, x.w.wcl])) := meets (by decide +kernel)

theorem test_witness_Labels_pairs : ∀ i ∈ [Instr.ljoin false 1 2 3, .ldom false 1 2 3],
    Meets i (fun _ => { rg := [2, 3], wg := [1] }) (fun _ => 0) false (labelled i 1 2)
      (fun x => Names x (labelled i 1 2) (x.w.regs.getG 2) [5] ∧ Names x (labelled i 1 2) (x.w.regs.getG 3) [5, 9] ∧
        BindsAll (preIssue i (labelled i 1 2)) x.asid [joinAll [x.w.regs.labG 2, x.w.regs.labG 3, x.w.wcl], joinL [5] [5, 9]]) :=
  meets_all (i := id) (by decide +kernel)

theorem test_witness_Labels_lown : Meets (.lown false 1 2 1) (fun _ => { rg := [2], wg := [1] }) (fun _ => 0) false
    (labelled (.lown false 1 2 1) 2 0) (fun x => Names x (labelled (.lown false 1 2 1) 2 0) (x.w.regs.getG 2) [5, 9] ∧
      [5, 9].Pairwise (· < ·) ∧ Binds (labelled (.lown false 1 2 1) 2 0) x.asid (joinAll [x.w.regs.labG 2, x.w.wcl]) ∧
      9 ∈ [5, 9] ∧ ([5, 9].filter fun m => decide (m < 9)).length = (1#3).toNat) := meets (by decide +kernel)

theorem test_witness_Labels_endq : ∀ o ∈ [5, 7], Meets (.endq false 1 2) (fun _ => { rg := [2], wg := [1] }) (fun _ => 0) false
    (labelled (.endq false 1 2) o 0) (fun x => x.replicated = false ∧ (x.w.regs.getG 2).toNat < 2 ^ 20 ∧
      Binds (labelled (.endq false 1 2) o 0) x.asid (joinAll [x.w.regs.labG 2, x.w.wcl]) ∧
      kget ((labelled (.endq false 1 2) o 0).asidOf x.asid).endorse (x.w.regs.getG 2).toNat = if o = 5 then some (1, []) else none) :=
  meets_all (i := fun _ => .endq false 1 2) (by decide +kernel)

theorem test_witness_Labels_granules : ∀ i ∈ [Instr.lraise false 2 3, .lclear false 2 3],
    Meets i (fun _ => { rg := [2, 3] }) (fun _ => 0) false (labelled i 4032 2)
      (fun x => x.replicated = false ∧ galPa x (preIssue i (labelled i 4032 2)) 4032 64 true = some 4032 ∧
        Names x (labelled i 4032 2) (x.w.regs.getG 3) [5, 9] ∧ Unhindered x [4032] ∧ (∀ e ∈ x.w.phase, e.gran ≠ 4032 / 64) ∧
        BindsAll (preIssue i (labelled i 4032 2)) x.asid [joinL [5, 9] (joinAll [x.w.regs.labG 2, x.w.regs.labG 3, x.w.wcl]),
          joinL (granLabel (labelled i 4032 2).mem 4032) (joinL [5, 9] (joinAll [x.w.regs.labG 2, x.w.regs.labG 3, x.w.wcl]))]) :=
  meets_all (i := id) (by decide +kernel)

theorem endorsed_of {x : Ctx} {u : State} {X : Label} {o : Nat}
    (h : ((kget (u.asidOf x.asid).endorse o).any fun e => decide (1 ≤ e.1 ∧ e.2.length ≤ 8 ∧ ∀ p ∈ e.2, p ∈ X)) = true) :
    Endorsed x u X o := by
  obtain ⟨e, he, hp⟩ := Option.any_eq_true _ _ |>.mp h
  exact ⟨e, he, of_decide_eq_true hp⟩

/-- Covered as it computes. -/
def coveredB (x : Ctx) (u : State) (X : Label) (a : Nat) : Bool := (List.range 32).all fun l => (x.w.regs.labV a l).all fun o =>
  decide (o ∈ X) || (kget (u.asidOf x.asid).endorse o).any fun e => decide (1 ≤ e.1 ∧ e.2.length ≤ 8 ∧ ∀ p ∈ e.2, p ∈ X)

theorem covered_of {x : Ctx} {u : State} {X : Label} {a l : Nat} (h : coveredB x u X a = true) (hl : l < 32) : Covered x u X a l := by
  intro o ho hX
  have := List.all_eq_true.mp (List.all_eq_true.mp h l (List.mem_range.mpr hl)) o ho
  simp only [hX, decide_false, Bool.false_or] at this
  exact endorsed_of this

theorem test_witness_Labels_dcls : ∃ x, Ready (.dcls false 1 2 3) { rv := [2], rg := [3], wv := [1] } x.grp false
      (labelled (.dcls false 1 2 3) 0 0) x ∧
    Names x (labelled (.dcls false 1 2 3) 0 0) (x.w.regs.getG 3) [] ∧
    BindsAll (preIssue (.dcls false 1 2 3) (labelled (.dcls false 1 2 3) 0 0)) x.asid
      [joinL [] (joinAll [x.w.regs.labG 3, x.w.wcl]), joinAll [x.w.regs.labG 3, x.w.wcl]] ∧
    (∀ l < 32, x.grp.getLsbD l = true → Covered x (preIssue (.dcls false 1 2 3) (labelled (.dcls false 1 2 3) 0 0))
      (joinL [] (joinAll [x.w.regs.labG 3, x.w.wcl])) 2 l) ∧ x.w.regs.labV 2 31 = [5] := by
  obtain ⟨x, h, h1, h2, h3, h4⟩ : Meets (.dcls false 1 2 3) (fun _ => { rv := [2], rg := [3], wv := [1] }) (fun x => x.grp) false
      (labelled (.dcls false 1 2 3) 0 0) (fun x => Names x (labelled (.dcls false 1 2 3) 0 0) (x.w.regs.getG 3) [] ∧
        BindsAll (preIssue (.dcls false 1 2 3) (labelled (.dcls false 1 2 3) 0 0)) x.asid
          [joinL [] (joinAll [x.w.regs.labG 3, x.w.wcl]), joinAll [x.w.regs.labG 3, x.w.wcl]] ∧
        coveredB x (preIssue (.dcls false 1 2 3) (labelled (.dcls false 1 2 3) 0 0))
          (joinL [] (joinAll [x.w.regs.labG 3, x.w.wcl])) 2 = true ∧ x.w.regs.labV 2 31 = [5]) := meets (by decide +kernel)
  exact ⟨x, h, h1, h2, fun l hl _ => covered_of h3 hl, h4⟩

theorem test_witness_Labels_dclsT : Meets (.dclsT false 1 2 3 4) (fun _ => { rv := [2], rg := [3], wv := [1], wp := [4] })
    (fun x => x.grp) false (labelled (.dclsT false 1 2 3 4) 0 0)
    (fun x => Names x (labelled (.dclsT false 1 2 3 4) 0 0) (x.w.regs.getG 3) [] ∧
      BindsAll (preIssue (.dclsT false 1 2 3 4) (labelled (.dclsT false 1 2 3 4) 0 0)) x.asid
        [joinL [] (joinAll [x.w.regs.labG 3, x.w.wcl]), joinAll [x.w.regs.labG 3, x.w.wcl]] ∧
      (joinAll [x.w.regs.labG 3, x.w.wcl]).length ≤ 8) := meets (by decide +kernel)

theorem test_witness_Labels_endorse : ∀ n ∈ [1, 4294967295], Meets (.endorse false 2 3) (fun _ => { rg := [2, 3] }) (fun _ => 0) false
    (labelled (.endorse false 2 3) 0 n) (fun x => x.replicated = false ∧
      Acts x (labelled (.endorse false 2 3) 0 n) (x.w.regs.getG 2) [] [x.w.regs.labG 2, x.w.regs.labG 3] ∧ x.lr.ownact ∉ ([] : Label) ∧
      1 ≤ (x.w.regs.getG 3).toNat ∧ (x.w.regs.getG 3).toNat < 2 ^ 32 ∧
      (kget ((labelled (.endorse false 2 3) 0 n).asidOf x.asid).endorse x.lr.ownact).isSome = true) :=
  meets_all (i := fun _ => .endorse false 2 3) (by decide +kernel)

theorem test_witness_Labels_endrev : Meets (.endrev false 2) (fun _ => { rg := [2] }) (fun _ => 0) false (labelled (.endrev false 2) 0 0)
    (fun x => x.replicated = false ∧ Acts x (labelled (.endrev false 2) 0 0) (x.w.regs.getG 2) [] [x.w.regs.labG 2]) :=
  meets (by decide +kernel)

/-! ## Witnesses: tile instructions at issue -/

/-- A window of 1 MiB; the accumulator names 0 and 1 held, name 0 with a set tile of floating values; descriptor pairs at
G2/G3, G4/G5 and, transposing, G6/G7: two K-steps, a row every 64 or 128 bytes. -/
def tiled (i : Instr) (held : Bool) : State :=
  let pair := fun base rp ks tp => [wd base, BitVec.ofNat 64 ((ks - 1) * 2 ^ 51 + rp + tp * 2 ^ 32)]
  let regs := fun q : WRegs => ((pair 0 1 2 128 ++ pair 0x8000 1 2 128 ++ pair 0x10000 1 2 128 ++ [wd 0x20000]).zipIdx).foldl
    (fun q p => q.setG (2 + p.2) p.1 []) q
  let s := placedW i fun w => { w with
    regs := regs w.regs, names := if held then [(0, ⟨true, true, false, false, [], []⟩)] else [] }
  let s := s.modLaunch 0 fun l => { l with record := { l.record with win := 256 } }
  { s with mem := s.mem.writeGal 0x20000 (toBytes 4 0x30000 ++ toBytes 4 256 ++ toBytes 4 32768) }

theorem test_witness_TileIssue_tmma : Meets (.tmma false 0 1 2 2 1) (fun _ => pairUses 2 4) (fun _ => 0) false
    (tiled (.tmma false 0 1 2 2 1) true)
    (fun x =>
      let u := preIssue (.tmma false 0 1 2 2 1) (tiled (.tmma false 0 1 2 2 1) true)
      let q := x.w.regs
      let n := x.w.nameOf 0
      let qa := (q.getG 2, q.getG 3)
      let qb := (q.getG 4, q.getG 5)
      let pairLabs := [2, 3, 4, 5].map q.labG
      let row := fun r => joinAll [n.row r, nth [] (rowLabels x u (descOf qa) 64) r,
        joinAll ([piecesLabel x u false (allPieces (descOf qb) 64), bandLabel x u (descOf qa), bandLabel x u (descOf qb)] ++
          pairLabs ++ [x.w.wcl])]
      x.w.window.length < 8 ∧ x.replicated = false ∧ n.held = true ∧ (descOf qa).ks = (descOf qb).ks ∧ n.tset = true ∧
        n.int = false ∧ pairOk qa 2 true = true ∧ pairOk qb 2 true = true ∧ OperandOk x u (descOf qa) 64 false ∧
        OperandOk x u (descOf qb) 64 false ∧ BandsOk x u (descOf qa) ∧ BandsOk x u (descOf qb) ∧ n.bset = false ∧
        Unhindered x (operandPas x u (descOf qa) 64 false ++ operandPas x u (descOf qb) 64 false ++ bandPas x u (descOf qa) ++
          bandPas x u (descOf qb)) ∧
        TileFits x u (rowTable ((List.range 128).map row)) (joinAll (x.w.slab :: [] :: pairLabs))) := @meets _ _ _ _ _ _ (fun x => by dsimp only; infer_instance) (by decide +kernel)

theorem test_witness_TileIssue_tzero : Meets (.tzero false 7 0) (fun _ => {}) (fun _ => 0) false (tiled (.tzero false 7 0) false)
    (fun x => x.w.window.length < 8 ∧ x.replicated = false ∧
      TileFits x (preIssue (.tzero false 7 0) (tiled (.tzero false 7 0) false)) (rowTable (List.replicate 128 x.w.wcl))
        (joinAll [x.w.slab, []])) := meets (by decide +kernel)

/-- The descriptors of a transpose's destination and source, as the issuer reads them. -/
abbrev dstOf (x : Ctx) : Desc := descOf (x.w.regs.getG 6, x.w.regs.getG 7)
/-- The source's. -/
abbrev srcOf (x : Ctx) : Desc := descOf (x.w.regs.getG 4, x.w.regs.getG 5)
/-- The state in which TTRN issues. -/
def transposing : State := preIssue (.ttrn false 3 2 2 1) (tiled (.ttrn false 3 2 2 1) false)

/-- What TTRN needs beside the places of its pieces. -/
abbrev TransposeOk (x : Ctx) : Prop :=
  (dstOf x).ks = 2 ∧ (srcOf x).ks = 2 ∧ pairOk (x.w.regs.getG 4, x.w.regs.getG 5) 2 false = true ∧
    pairOk (x.w.regs.getG 6, x.w.regs.getG 7) 2 false = true ∧ OperandOk x transposing (srcOf x) 64 false ∧
    OperandOk x transposing (dstOf x) 64 true ∧
    Unhindered x (operandPas x transposing (dstOf x) 64 true ++ operandPas x transposing (srcOf x) 64 false) ∧
    (∀ p ∈ allPieces (dstOf x) 64, dominates (granLabel transposing.mem (piecePa x transposing true p))
      (joinAll (piecesLabel x transposing false (allPieces (srcOf x) 64) :: [4, 5, 6, 7].map x.w.regs.labG ++ [x.w.wcl])) = true) ∧
    BindsAll transposing x.asid [joinAll (x.w.slab :: [] :: [6, 7, 4, 5].map x.w.regs.labG)]

theorem test_witness_TileIssue_ttrn : Meets (.ttrn false 3 2 2 1) (fun _ => pairUses 6 4) (fun _ => 0) false
    (tiled (.ttrn false 3 2 2 1) false)
    (fun x => TransposeOk x ∧ disjointAll (allPieces (dstOf x) 64) = true ∧
      ∀ p ∈ allPieces (dstOf x) 64, ∀ o ∈ allPieces (srcOf x) 64, overlaps p o = false) :=
  Meets.mono (P := fun x => TransposeOk x ∧ ascending 0x10000 (allPieces (dstOf x) 64) = true ∧
      ∀ o ∈ allPieces (srcOf x) 64, o.1 + o.2 ≤ 0x10000) (meets (by decide +kernel))
    fun x h => ⟨h.1, ascending_disjoint h.2.1, fun p hp o ho => by
      have h1 := ascending_from h.2.1 p hp
      have h2 := h.2.2 o ho
      simp [overlaps]; omega⟩

theorem test_witness_TileIssue_tscl : Meets (.tscl false 0 0x3F00 0) (fun _ => {}) (fun _ => 0) false (tiled (.tscl false 0 0x3F00 0) true)
    (fun x => (x.w.nameOf 0).held = true ∧ ¬ ((x.w.nameOf 0).tset = true ∧ (x.w.nameOf 0).int = true) ∧
      TileFits x (preIssue (.tscl false 0 0x3F00 0) (tiled (.tscl false 0 0x3F00 0) true))
        (rowTable ((List.range 128).map fun r => joinL ((x.w.nameOf 0).row r) x.w.wcl)) (joinAll [x.w.slab, []])) :=
  meets (by decide +kernel)

theorem test_witness_TileIssue_tlda : Meets (.tlda false 1 6 0) (fun _ => { rg := [6] }) (fun _ => 0) false (tiled (.tlda false 1 6 0) false)
    (fun x =>
      let u := preIssue (.tlda false 1 6 0) (tiled (.tlda false 1 6 0) false)
      let base := (x.w.regs.getG 6).toNat % 2 ^ 32
      let rows := rowTable ((List.range 128).map fun r => joinAll [piecesLabel x u false
        ((List.range 8).map fun j => (base + 512 * r + 64 * j, 64)), x.w.regs.labG 6, x.w.wcl])
      (x.w.regs.getG 6).toNat < 2 ^ 33 ∧ base % 64 = 0 ∧ (∀ j, j < 1024 → (galPa x u (base + 64 * j) 64 false).isSome = true) ∧
        Unhindered x ((List.range 1024).map fun j => piecePa x u false (base + 64 * j, 64)) ∧
        TileFits x u rows (joinAll [x.w.slab, [], x.w.regs.labG 6])) := @meets _ _ _ _ _ _ (fun x => by dsimp only; infer_instance) (by decide +kernel)

/-- The parameter block that a drain reads at 0x20000. -/
abbrev blockAt (c : Instr) : List Byte := readBytes (preIssue c (tiled c true)).mem.gal 0x20000 64

/-- What a drain needs beside the places of its pieces. -/
abbrev DrainOk (c : Instr) (add : Bool) (x : Ctx) : Prop :=
  (x.w.nameOf 0).held = true ∧ (x.w.nameOf 0).tset = true ∧ (x.w.regs.getG 8).toNat = 0x20000 ∧
    galPa x (preIssue c (tiled c true)) 0x20000 64 false = some 0x20000 ∧
    granDamaged (preIssue c (tiled c true)) 0x20000 = false ∧ blockOk add (blockAt c) = true ∧ numAt (blockAt c) 12 4 % 64 = 0 ∧
    outBytes (numAt (blockAt c) 0x14 1 % 16) = 256 ∧ OperandOk x (preIssue c (tiled c true)) (outDesc (blockAt c)) 256 true ∧
    (numAt (blockAt c) 0x16 1).testBit 1 = false ∧
    Unhindered x (0x20000 :: operandPas x (preIssue c (tiled c true)) (outDesc (blockAt c)) 256 true) ∧
    (∀ p ∈ allPieces (outDesc (blockAt c)) 256, piecePa x (preIssue c (tiled c true)) true p / 2 ^ 20 = 0) ∧
    (∀ t < 2, ∀ r < 128, ∀ p ∈ pieces (outDesc (blockAt c)) 256 t r,
      dominates (granLabel (preIssue c (tiled c true)).mem (piecePa x (preIssue c (tiled c true)) true p))
        (joinL ((x.w.nameOf 0).row r) (joinAll [granLabel (preIssue c (tiled c true)).mem 0x20000, x.w.regs.labG 8, x.w.wcl])) = true) ∧
    TileFits x (preIssue c (tiled c true)) (x.w.nameOf 0).rows
      (joinAll [x.w.slab, granLabel (preIssue c (tiled c true)).mem 0x20000, x.w.regs.labG 8])

theorem test_witness_TileIssue_drains : ∀ c ∈ [(Instr.tdrain false 0 8 0, false), (.tdrainAdd false 0 8 0, true)],
    Meets c.1 (fun _ => { rg := [8] }) (fun _ => 0) false (tiled c.1 true)
    (fun x => DrainOk c.1 c.2 x ∧ disjointAll (allPieces (outDesc (blockAt c.1)) 256) = true) := by
  intro c hc
  refine Meets.mono (P := fun x => DrainOk c.1 c.2 x ∧ ascending 0 (allPieces (outDesc (blockAt c.1)) 256) = true) ?_
    fun x h => ⟨h.1, ascending_disjoint h.2⟩
  revert c
  exact meets_all (by decide +kernel)

/-- Tile 2 of core 0 bound to the warp's A0. -/
def bound (i : Instr) : State :=
  (tiled i true).modCore 0 fun k => { k with tiles := [(2, { zeroedTile (0, 0) with tset := true, dmgCount := 3, dmgFirst := 5 })] }

theorem test_witness_TileIssue_tstat : ∀ p ∈ [(tiled (.tstat false 1 0) true, none), (bound (.tstat false 1 0), some 2)],
    Meets (.tstat false 1 0) (fun _ => { wg := [1] }) (fun _ => 0) false p.1
    (fun x => x.w.pend.any (worksOn · 0) = false ∧ Binds (preIssue (.tstat false 1 0) p.1) x.asid x.w.wcl ∧
      ((preIssue (.tstat false 1 0) p.1).core x.core).tiles.findIdx? (fun p => p.2.owner == some (x.wk, 0)) =
        p.2.map (fun _ => 0)) := meets_all (i := fun _ => .tstat false 1 0) (by decide +kernel)

/-! ## Witnesses: Flowstone instructions -/

/-- The launch may change rules; G2 an address, G3 a count. -/
def ruling (i : Instr) (g2 g3 : Nat) : State := (placedG i [(2, g2), (3, g3)]).modLaunch 0 fun l => { l with rulesRight := true }

theorem test_witness_Flowstone_ruleld : ∀ v ∈ [0x00FF, 0x0100], Meets (.ruleld false 2 3) (fun _ => { rg := [2, 3] }) (fun _ => 0) false
    (ruling (.ruleld false 2 3) 0 v)
    (fun x =>
      let s := ruling (.ruleld false 2 3) 0 v
      let u := preIssue (.ruleld false 2 3) s
      let pas := (List.range (v / 256 + 1)).map (64 * ·)
      (x.replicated = false ∧ x.la.rulesRight = true ∧ (liveGens s (x.part s) (s.partOf (x.part s)).gens).length < 4) ∧
        v % 256 + v / 256 ≤ 255 ∧ galGranules x u 0 (64 * (v / 256 + 1)) false = some pas ∧ pas.length = v / 256 + 1 ∧
        (∀ pa ∈ pas, pa / 2 ^ 20 = x.core ∧ granLabel u.mem pa = []) ∧ x.w.regs.labG 2 = [] ∧ x.w.regs.labG 3 = [] ∧
        x.w.wcl = [] ∧ Unhindered x pas ∧ ∀ pa ∈ pas, ruleOk ((List.range 8).map fun k =>
          BitVec.ofNat 64 (readNum u.mem.gal (pa + 8 * k) 8)) = true) :=
  meets_all (i := fun _ => .ruleld false 2 3) (dec := fun p x => by dsimp only; infer_instance) (by decide +kernel)

theorem test_witness_Flowstone_ruleoff : Meets (.ruleoff false 2) (fun _ => { rg := [2] }) (fun _ => 0) false
    (ruling (.ruleoff false 2) 0xFF 0)
    (fun x =>
      let s := ruling (.ruleoff false 2) 0xFF 0
      (x.replicated = false ∧ x.la.rulesRight = true ∧ (liveGens s (x.part s) (s.partOf (x.part s)).gens).length < 4) ∧
        (x.w.regs.getG 2).toNat < 2 ^ 16 ∧ (x.w.regs.getG 2).toNat % 256 + (x.w.regs.getG 2).toNat / 256 ≤ 255 ∧
        x.w.regs.labG 2 = [] ∧ x.w.wcl = []) := @meets _ _ _ _ _ _ (fun x => by dsimp only; infer_instance) (by decide +kernel)

theorem test_witness_Flowstone_flushw : Meets (.flushw false) (fun _ => {}) (fun _ => 0) false (placed (.flushw false)) (fun _ => True) :=
  meets (by decide +kernel)

theorem test_witness_Flowstone_ruleq : ∀ k ∈ [0xFF, 0x100, 0x104], Meets (.ruleq false 1 2) (fun _ => { rg := [2], wg := [1] })
    (fun _ => 0) false (placedG (.ruleq false 1 2) [(2, k)])
    (fun x => Binds (placedG (.ruleq false 1 2) [(2, k)]) x.asid (joinL x.w.slab (joinAll [x.w.regs.labG 2, x.w.wcl]))) :=
  meets_all (i := fun _ => .ruleq false 1 2) (by decide +kernel)

/-! ## Witnesses: launches and engines -/

/-- Queue 5 takes records from a device, for ASID 0. -/
def queued (i : Instr) (g2 g3 : Nat) (en : Bool) : State :=
  (placedG i [(2, g2), (3, g3)]).modHub fun h => { h with queues := [(5, { Queue.zero with en := en, devq := true, logn := 2 })] }

/-- The granules of a launch record at 0. -/
def recordPas : List Nat := (List.range 8).map (64 * ·)

theorem test_witness_LaunchInstructions_launch : ∀ en ∈ [true, false], Meets (.launch false 1 2 3 1)
    (fun _ => { rg := [2, 3], wg := [1] }) (fun _ => 0) false (queued (.launch false 1 2 3 1) 0 5 en)
    (fun x =>
      let u := preIssue (.launch false 1 2 3 1) (queued (.launch false 1 2 3 1) 0 5 en)
      let bs := recordPas.flatMap fun pa => readBytes u.mem.gal pa 64
      let src := joinL (joinAll [x.w.regs.labG 2, x.w.regs.labG 3, x.w.wcl]) (joinAll (recordPas.map (granLabel u.mem)))
      x.replicated = false ∧ Local x recordPas ∧ Unhindered x recordPas ∧ (x.w.regs.getG 3).toNat < 4096 ∧
        galGranules x u 0 512 false = some recordPas ∧ setOf (x.labels u) (numAt bs 0x3C 4 % 4096) = some [] ∧
        dominates [] src = true ∧ BindsAll u x.asid [src] ∧ Quiet x u ∧ (aget Queue.zero u.hub.queues 5).en = en ∧
        (aget Queue.zero u.hub.queues 5).devq = true ∧ (aget Queue.zero u.hub.queues 5).asid = x.asid) :=
  meets_all (i := fun _ => .launch false 1 2 3 1) (dec := fun p x => by dsimp only; infer_instance) (by decide +kernel)

theorem test_witness_LaunchInstructions_lcancel : Meets (.lcancel false 2) (fun _ => { rg := [2] }) (fun _ => 0) false
    (placed (.lcancel false 2))
    (fun x => (x.w.regs.getG 2).toNat / 2 ^ 12 % 16 = 0 ∧ x.w.regs.labG 2 = [] ∧ x.w.wcl = [] ∧ x.la.queue = 0 ∧
      ((placed (.lcancel false 2)).launches.map (·.1)).Nodup) := meets (by decide +kernel)

theorem test_witness_LaunchInstructions_lstat : Meets (.lstat false 1 2) (fun _ => { rg := [2], wg := [1] }) (fun _ => 0) false
    (queued (.lstat false 1 2) (5 * 2 ^ 32) 0 true)
    (fun x => (x.w.regs.getG 2).toNat < 2 ^ 44 ∧ (x.w.regs.getG 2).toNat % 64 = 0 ∧
      galGranules x (preIssue (.lstat false 1 2) (queued (.lstat false 1 2) (5 * 2 ^ 32) 0 true)) 0 512 false = some recordPas ∧
      Binds (preIssue (.lstat false 1 2) (queued (.lstat false 1 2) (5 * 2 ^ 32) 0 true)) x.asid
        (joinL (joinAll [x.w.regs.labG 2, x.w.wcl])
          (joinAll (recordPas.map (granLabel (queued (.lstat false 1 2) (5 * 2 ^ 32) 0 true).mem))))) := meets (by decide +kernel)

/-- A chain bound to engine 0 at descriptor 0. -/
def chain0 : Chain := ⟨0, 0, 64, 0, 0, 0, 0, 0, [], none, [], 1, false⟩

/-- ETAIL's state: a chain's descriptor at 0 with its completion word at 64, bound with a HALT code or not. -/
def chained (g3 : Nat) (halt : Option Nat) : State :=
  let s := placedG (.etail false 2 3) [(3, g3)]
  { s with mem := s.mem.writeGal 4 (toBytes 4 64), chains := (halt.map fun h => (0, { chain0 with halt := h })).toList }

theorem test_witness_EngineInstructions_etail : ∀ p ∈ [(4096 * 2 ^ 32, some 0), (2 ^ 32, none), (0, some 0), (63, some 0x10)],
    Meets (.etail false 2 3) (fun _ => { rg := [2, 3] }) (fun _ => 0) false (chained p.1 p.2)
    (fun x =>
      let u := preIssue (.etail false 2 3) (chained p.1 p.2)
      x.replicated = false ∧ (x.w.regs.getG 3).toNat = p.1 ∧ p.1 / 2 ^ 32 ≤ 4096 ∧ (p.1 / 2 ^ 32 ≠ 0 → p.1 % 64 = 0) ∧
        galPa x u 0 64 true = some 0 ∧
        dominates (granLabel u.mem 0) (joinAll [x.w.regs.labG 2, x.w.regs.labG 3, x.w.wcl]) = true ∧ Quiet x u ∧
        (kget (chained p.1 p.2).chains 0).map (·.halt) = p.2 ∧
        (∀ c ∈ kget (chained p.1 p.2).chains 0, c.detached = false ∧ c.subs.length < 16 ∧
          (∃ y ∈ commitCtx u c.launch c.b, y.replicated = false) ∧ kget (chained p.1 p.2).rings (c.cwordPa 0 / 64 * 64) = none) ∧
        readNum u.mem.gal 0 4 = 0 ∧ readNum u.mem.gal 4 4 = 64 ∧ readNum u.mem.gal 8 56 = 0 ∧ galPa x u 64 8 true = some 64 ∧
        dominates (granLabel u.mem 64) (granLabel u.mem 0) = true ∧
        Machine.behind u 0 (x.handover x.w.issued) = false ∧ ∃ e ∈ engineGroup x.core, boundTo (chained p.1 p.2) e < 32) :=
  meets_all (i := fun _ => .etail false 2 3) (dec := fun p x => by dsimp only; infer_instance) (by decide +kernel)

/-- An ETAIL at a chain that has 16 sublists, or behind one that the warp holds already. -/
def chainedLate (full : Bool) : State :=
  let s := (chained (2 ^ 32) (some 0)).modHub fun h => { h with handovers := if full then [] else [⟨0, 0, 0, 9, false⟩] }
  let s := { s with chains := [(0, { chain0 with subs := List.replicate (if full then 16 else 0) ⟨0, 1, [], 0, 0, 0, 0⟩ })] }
  s.modWarp 0 fun w => { w with
    held := [⟨0, ⟨9, none, .etail ⟨0, 0, 0, 0x100000080#64, 0, [], []⟩, [], 0, 0, 0, 0, [], none, none⟩, 0, []⟩] }

theorem test_witness_EngineInstructions_late : ∀ full ∈ [true, false],
    Meets (.etail false 2 3) (fun _ => { rg := [2, 3] }) (fun _ => 0) false (chainedLate full)
    (fun x =>
      let u := preIssue (.etail false 2 3) (chainedLate full)
      x.replicated = false ∧ galPa x u 0 64 true = some 0 ∧ Quiet x u ∧
        Machine.behind u 0 (x.handover x.w.issued) = !full ∧
        ∃ c ∈ kget (chainedLate full).chains 0, c.detached = false ∧ c.halt = 0 ∧ (16 ≤ c.subs.length ↔ full = true)) :=
  meets_all (i := fun _ => .etail false 2 3) (dec := fun p x => by dsimp only; infer_instance) (by decide +kernel)

theorem test_witness_EngineInstructions_waitseq : ∀ n ∈ [0, 2 ^ 48 - 1], Meets (.waitseq 2 3) (fun _ => { rg := [2, 3] }) (fun _ => 0)
    false (placedG (.waitseq 2 3) [(3, n)])
    (fun x => (x.w.regs.getG 3).toNat < 2 ^ 48 ∧
      galPa x (preIssue (.waitseq 2 3) (placedG (.waitseq 2 3) [(3, n)])) 0 8 false = some 0 ∧
      dominates x.w.wcl (joinAll [x.w.regs.labG 2, x.w.regs.labG 3, granLabel (placedG (.waitseq 2 3) [(3, n)]).mem 0]) = true ∧
      Unhindered x [0] ∧ readNum (placedG (.waitseq 2 3) [(3, n)]).mem.gal 0 8 = 0) :=
  meets_all (i := fun _ => .waitseq 2 3) (by decide +kernel)

theorem test_witness_EngineInstructions_seqr : Meets (.seqr false 1 2) (fun _ => { rg := [2], wg := [1] }) (fun _ => 0) false
    (placed (.seqr false 1 2)) (fun x => galPa x (preIssue (.seqr false 1 2) (placed (.seqr false 1 2))) 0 64 false = some 0 ∧ Unhindered x [0] ∧
      BindsAll (preIssue (.seqr false 1 2) (placed (.seqr false 1 2))) x.asid
        [joinL (granLabel (placed (.seqr false 1 2)).mem 0) (joinAll [x.w.regs.labG 2, x.w.wcl])]) := meets (by decide +kernel)

/-- An ALLREDUCE command at 0 of rank 0 of communicator 0, which lists ASID 0 of this module. -/
def commanded (i : Instr) : State :=
  let s := (placed i).modHub fun h => { h with comms := [(0, ⟨0x8002000000000000#64, [0]⟩)] }
  let dws := [0x1000000000000000, 0x80000, 0x80000, 1, 64, 1, 0, 0]
  { s with mem := s.mem.writeGal 0 (dws.flatMap (toBytes 8)) }

theorem test_witness_EngineInstructions_coll : Meets (.coll false 2) (fun _ => { rg := [2] }) (fun _ => 0) false
    (commanded (.coll false 2))
    (fun x =>
      let u := preIssue (.coll false 2) (commanded (.coll false 2))
      let ds := (List.range 8).map fun k => BitVec.ofNat 64 (readNum u.mem.gal (8 * k) 8)
      galPa x u 0 64 false = some 0 ∧ Unhindered x [0] ∧ commandOk ds = true ∧ memberOk u x.asid ds = true ∧
        collCobj ds = 64 ∧ galPa x u 64 64 true = some 64 ∧
        dominates (granLabel u.mem 64) (joinL (granLabel u.mem 0) (joinAll [x.w.regs.labG 2, x.w.wcl])) = true) :=
  @meets _ _ _ _ _ _ (fun x => by dsimp only; infer_instance) (by decide +kernel)

theorem test_witness_EngineInstructions_commq : ∀ n ∈ [0, 63], Meets (.commq false 1 2) (fun _ => { rg := [2], wg := [1] }) (fun _ => 0)
    false ((commanded (.commq false 1 2)).modWarp 0 fun w => { w with regs := w.regs.setG 2 (wd n) [] })
    (fun x => (x.w.regs.getG 2).toNat = n ∧ bits (aget Comm.zero (commanded (.commq false 1 2)).hub.comms n).dw 49 7 ≤ 64 ∧
      Binds (commanded (.commq false 1 2)) x.asid (joinAll [x.w.regs.labG 2, x.w.wcl]) ∧
      (aget Comm.zero (commanded (.commq false 1 2)).hub.comms n).dw.getLsbD 63 = (n == 0)) :=
  meets_all (i := fun _ => .commq false 1 2) (by decide +kernel)

/-! ## Witnesses: system, Echo and platform instructions, traps -/

theorem test_witness_SystemInstructions_sread : ∀ n ∈ [0, 0x02, 0x03, 0x04, 0x05, 0x11, 0x12, 0x17, 0x20, 0x27, 0x30, 0x3F],
    Meets (.sread false 1 (BitVec.ofNat 11 n)) (fun _ => { wg := [1] }) (fun _ => 0) false (placed (.sread false 1 (BitVec.ofNat 11 n)))
    (fun x => x.replicated = false ∧ handleIn (x.labels (placed (.sread false 1 (BitVec.ofNat 11 n)))) x.w.wcl = some 0 ∧
      Binds (placed (.sread false 1 (BitVec.ofNat 11 n))) x.asid x.w.wcl ∧
      ∀ r ∈ systemRegisters x (placed (.sread false 1 (BitVec.ofNat 11 n))),
        Binds (placed (.sread false 1 (BitVec.ofNat 11 n))) x.asid r.2.2) :=
  meets_all (i := fun n => .sread false 1 (BitVec.ofNat 11 n)) (by decide +kernel)

theorem test_witness_SystemInstructions_lane : ∀ n ∈ [0x01, 0x10], Meets (.sread false 1 (BitVec.ofNat 11 n)) (fun _ => { wv := [1] })
    (fun _ => 0) false (placed (.sread false 1 (BitVec.ofNat 11 n)))
    (fun x => GroupFits x (preIssue (.sread false 1 (BitVec.ofNat 11 n)) (placed (.sread false 1 (BitVec.ofNat 11 n)))) (fun _ => x.w.wcl)) :=
  meets_all (i := fun n => .sread false 1 (BitVec.ofNat 11 n)) (by decide +kernel)

theorem test_witness_SystemInstructions_swrite : Meets (.swrite false 2 3) (fun _ => { rg := [2, 0, 63] }) (fun _ => 0) false
    (placedG (.swrite false 2 3) [(2, 16), (0, 16), (63, 16)])
    (fun x => x.w.regs.labG 2 = [] ∧ x.w.wcl = [] ∧ (x.w.regs.getG 2).toNat % 16 = 0 ∧
      (x.w.regs.getG 0).toNat ≤ (x.w.regs.getG 2).toNat ∧ (x.w.regs.getG 2).toNat ≤ (x.w.regs.getG 63).toNat) := meets (by decide +kernel)

theorem test_witness_SystemInstructions_clkr : Meets (.clkr false 1) (fun _ => { wg := [1] }) (fun _ => 0) false (placed (.clkr false 1))
    (fun x => Binds (preIssue (.clkr false 1) (placed (.clkr false 1))) x.asid x.w.wcl) := meets (by decide +kernel)

theorem test_witness_SystemInstructions_rand : Meets (.rand false 1 0) (fun _ => { wg := [1] }) (fun _ => 0) false (placed (.rand false 1 0))
    (fun x => x.replicated = false) := meets (by decide +kernel)

theorem test_witness_EchoAndPlatformInstructions_reads : ∀ i ∈ [Instr.erid false 1, .estat false 1],
    Meets i (fun _ => { wg := [1] }) (fun _ => 0) false (placed i)
      (fun x => x.replicated = false ∧ Binds (preIssue i (placed i)) x.asid x.w.wcl ∧ x.core < 640) := meets_all (i := id) (by decide +kernel)

theorem test_witness_EchoAndPlatformInstructions_esig : Meets (.esig false 31) (fun _ => { wg := [62, 63] }) (fun _ => 0) false
    (placedW (.esig false 31) buffering)
    (fun x => Binds (preIssue (.esig false 31) (placedW (.esig false 31) buffering)) x.asid
      (joinAll (x.w.wcl :: (x.w.phase.map (·.lab) ++ x.w.items.map (·.l.lab))))) := meets (by decide +kernel)

theorem test_witness_EchoAndPlatformInstructions_einj : ∀ v ∈ [0, 0x1F8, 0x1FC], Meets (.einj false 2 3) (fun _ => { rg := [2, 3] })
    (fun _ => 0) false ((placedG (.einj false 2 3) [(2, v), (3, 2047)]).modHub fun h => { h with testFuse := true, hubctl := 2 })
    (fun x => x.replicated = false ∧ (x.w.regs.getG 2).toNat < 2 ^ 9 ∧ (x.w.regs.getG 3).toNat < 2 ^ 11 ∧
      (x.w.regs.getG 2).toNat % 4 < x.lr.repl) := meets_all (i := fun _ => .einj false 2 3) (by decide +kernel)

theorem test_witness_EchoAndPlatformInstructions_capr : Meets (.capr false 1 2) (fun _ => { rg := [2], wg := [1] }) (fun _ => 0) false
    (placedG (.capr false 1 2) [(2, 65528)])
    (fun x => (x.w.regs.getG 2).toNat < 2 ^ 16 ∧ (x.w.regs.getG 2).toNat % 8 = 0 ∧
      Binds (preIssue (.capr false 1 2) (placedG (.capr false 1 2) [(2, 65528)])) x.asid (joinAll [x.w.regs.labG 2, x.w.wcl])) :=
  meets (by decide +kernel)

/-- ASID 0 has a log of two records at 0x81000, its descriptor at 0x80400. -/
def logged (i : Instr) : State :=
  let s := (placed i).modAsid 0 fun a => { a with slogd := 0x80400 }
  { s with mem := s.mem.writeDram 0x80400 (toBytes 8 0x81000 ++ toBytes 8 1) }

theorem test_witness_EchoAndPlatformInstructions_slog : ∀ s ∈ [placed (.slog false 2 3), logged (.slog false 2 3)],
    Meets (.slog false 2 3) (fun _ => { rg := [2, 3] }) (fun _ => 0) false s
      (fun x => x.replicated = false ∧ dominates (logLabel (preIssue (.slog false 2 3) s) x.asid
        ((logDesc (preIssue (.slog false 2 3) s) x.asid).getD [])) (joinAll [x.w.regs.labG 2, x.w.regs.labG 3, x.w.wcl]) = true) :=
  meets_all (i := fun _ => .slog false 2 3) (by decide +kernel)

theorem test_log_found : (logDesc (logged (.slog false 2 3)) 0).isSome = true ∧ logDesc (placed (.slog false 2 3)) 0 = none := by
  decide +kernel

theorem test_witness_TrapReturnAndHalt_trap : Meets (.trap 0xFFFF) (fun _ => {}) (fun _ => 0) true (placed (.trap 0xFFFF))
    (fun x => x.w.ord = none) := meets (by decide +kernel)

theorem test_witness_TrapReturnAndHalt_tret : Meets .tret (fun _ => {}) (fun _ => 0) true
    (placedW .tret fun w => { w with handler := some ⟨0xFFFFFFFF#32, [], false, none, wd codeVa, 0, [], []⟩ })
    (fun x => x.w.handler = some ⟨0xFFFFFFFF#32, [], false, none, wd codeVa, 0, [], []⟩ ∧
      0xFFFFFFFF#32 &&& x.w.live &&& ~~~x.grp = 0 ∧ ∀ p ∈ x.w.j, ¬ (p.2.armed = true ∧ p.2.fresh = true)) := meets (by decide +kernel)

theorem test_witness_TrapReturnAndHalt_halt : Meets .halt (fun _ => {}) (fun _ => 0) true
    ((placed .halt).modAsid 0 fun a => { a with dbg := true })
    (fun x => (((placed .halt).modAsid 0 fun a => { a with dbg := true }).asidOf x.asid).dbg = true ∧ x.replicated = false) :=
  meets (by decide +kernel)

/-- An operation that will write G2. -/
def pendingG2 : Pend := ⟨0, some 0, .gload 2 ⟨0, 0, 0, 0, 0, [], []⟩, [], 1, 0, 0, 0, [], none, none⟩

theorem test_witness_InstructionTraps_hazard : ∃ x,
    issuerOf (preIssue (.gadd false 1 2 3) (placedW (.gadd false 1 2 3) fun w => { w with pend := [pendingG2] })) = some x ∧
    hazard x.w (gUses [2, 3] 1) = true := by
  have h : (match issuerOf (preIssue (.gadd false 1 2 3) (placedW (.gadd false 1 2 3) fun w => { w with pend := [pendingG2] })) with
    | some x => hazard x.w (gUses [2, 3] 1)
    | none => false) = true := by decide +kernel
  split at h
  · next x hx => exact ⟨x, hx, h⟩
  · cases h

theorem test_witness_InstructionTraps_damage : ∃ x,
    issuerOf (preIssue (.gadd false 1 2 3) (placedW (.gadd false 1 2 3) fun w =>
      { w with regs := { w.regs with dmg := [dmgKeyG 2] } })) = some x ∧
    hazard x.w (gUses [2, 3] 1) = false ∧ markedRead x.w (gUses [2, 3] 1) = none ∧
    damagedReads x.w.regs (gUses [2, 3] 1) allLanes ≠ [] := by
  have h : (match issuerOf (preIssue (.gadd false 1 2 3) (placedW (.gadd false 1 2 3) fun w =>
      { w with regs := { w.regs with dmg := [dmgKeyG 2] } })) with
    | some x => decide (hazard x.w (gUses [2, 3] 1) = false ∧ markedRead x.w (gUses [2, 3] 1) = none ∧
        damagedReads x.w.regs (gUses [2, 3] 1) allLanes ≠ [])
    | none => false) = true := by decide +kernel
  split at h
  · next x hx => exact ⟨x, hx, of_decide_eq_true h⟩
  · cases h

/-- G2 and G3 carry nine owners together. -/
def crowded (i : Instr) : State :=
  placedW i fun w => { w with regs := (w.regs.setG 2 0 [1, 2, 3, 4, 5]).setG 3 0 [6, 7, 8, 9] }

theorem test_witness_InstructionTraps_labels : Meets (.gadd false 1 2 3) (fun _ => gUses [2, 3] 1) (fun _ => allLanes) false
    (crowded (.gadd false 1 2 3)) (fun x => ¬ Binds (preIssue (.gadd false 1 2 3) (crowded (.gadd false 1 2 3))) x.asid
      (joinAll (gLabels x [2, 3]))) := meets (by decide +kernel)

theorem test_witness_InstructionTraps_wide : ∃ x, issuerOf (preIssue (.bara false 2) (placedW (.bara false 2) fun w =>
    { w with run := w.run.map fun q => { q with grp := 1 } })) = some x ∧ x.w.live &&& ~~~x.grp ≠ 0 := by
  have h : (match issuerOf (preIssue (.bara false 2) (placedW (.bara false 2) fun w =>
      { w with run := w.run.map fun q => { q with grp := 1 } })) with
    | some x => decide (x.w.live &&& ~~~x.grp ≠ 0)
    | none => false) = true := by decide +kernel
  split at h
  · next x hx => exact ⟨x, hx, of_decide_eq_true h⟩
  · cases h

/-- Lane 31's index is `v`, the others' zero. -/
def lane31 (i : Instr) (v : Nat) : State := placedW i fun w => { w with regs := w.regs.setV 1 31 (wd v) [] }

theorem test_witness_InstructionTraps_misaligned : Meets (.vld32 false 7 9 2 1 0 0)
    (fun _ => { rv := indexRegs 1, rg := [2], rp := [7], wv := [9] }) (activeLanes · 7) false (lane31 (.vld32 false 7 9 2 1 0 0) 2)
    (fun x => x.w.ord = none ∧ (activeLanes x 7).getLsbD 31 = true ∧ laneAddr x 2 1 0 4 31 % 4 ≠ 0 ∧
      ∀ j, j < 31 → (activeLanes x 7).getLsbD j = true → laneAddr x 2 1 0 4 j % 4 = 0) := meets (by decide +kernel)

theorem test_witness_InstructionTraps_outside : Meets (.vld32 false 7 9 2 1 0 0)
    (fun _ => { rv := indexRegs 1, rg := [2], rp := [7], wv := [9] }) (activeLanes · 7) false (lane31 (.vld32 false 7 9 2 1 0 0) 4096)
    (fun x => (∀ j < 32, (activeLanes x 7).getLsbD j = true → laneAddr x 2 1 0 4 j % 4 = 0) ∧
      galPa x (preIssue (.vld32 false 7 9 2 1 0 0) (lane31 (.vld32 false 7 9 2 1 0 0) 4096)) (laneAddr x 2 1 0 4 31) 4 false = none ∧
      ∀ j, j < 31 → (activeLanes x 7).getLsbD j = true →
        (galPa x (preIssue (.vld32 false 7 9 2 1 0 0) (lane31 (.vld32 false 7 9 2 1 0 0) 4096)) (laneAddr x 2 1 0 4 j) 4 false).isSome = true) :=
  meets (by decide +kernel)

theorem test_witness_InstructionTraps_label : Meets (.gst false 2 3 0) (fun _ => { rg := [2, 3] }) (fun _ => 0) false
    (placedW (.gst false 2 3 0) fun w => { w with regs := w.regs.setG 2 0 [7] })
    (fun x => galPa x (preIssue (.gst false 2 3 0) (placedW (.gst false 2 3 0) fun w => { w with regs := w.regs.setG 2 0 [7] })) 0 8 true = some 0 ∧
      Unhindered x [0] ∧ dominates (granLabel (placed (.gst false 2 3 0)).mem 0)
        (joinAll [x.w.regs.labG 2, x.w.regs.labG 3, x.w.wcl]) = false) := meets (by decide +kernel)

/-! ## Witnesses: clauses -/

/-- The premises of ClauseStarts that come before its clauses, and what decoding the clause gives. -/
def AtHeader (s : State) (m : BitVec 12) (a b : BitVec 4) (sf : BitVec 1)
    (P : Warp → Word → Mask → Ctx → Option Clause → Prop) : Prop :=
  ∃ w p grp x, s.warp s.cur = some w ∧ w.group = some (p, grp) ∧ ctxOf s s.cur ⟨p, p, grp, 15, 15, []⟩ 0 = some x ∧
    (w.canIssue = true ∧ w.run = none ∧ w.request = .running ∧ w.window = [] ∧
      P w p grp x (match decodeFrom s x.asid p m a b sf with
        | .ok c => some c
        | .error _ => none))

/-- AtHeader as it computes. -/
def atHeaderB (s : State) (m : BitVec 12) (a b : BitVec 4) (sf : BitVec 1)
    (P : Warp → Word → Mask → Ctx → Option Clause → Prop) [∀ w p g x c, Decidable (P w p g x c)] : Bool :=
  match s.warp s.cur with
  | none => false
  | some w => match w.group with
    | none => false
    | some pg => match ctxOf s s.cur ⟨pg.1, pg.1, pg.2, 15, 15, []⟩ 0 with
      | none => false
      | some x => decide (w.canIssue = true ∧ w.run = none ∧ w.request = .running ∧ w.window = [] ∧
          P w pg.1 pg.2 x (match decodeFrom s x.asid pg.1 m a b sf with
            | .ok c => some c
            | .error _ => none))

theorem at_header {s : State} {m : BitVec 12} {a b : BitVec 4} {sf : BitVec 1}
    {P : Warp → Word → Mask → Ctx → Option Clause → Prop} [∀ w p g x c, Decidable (P w p g x c)]
    (h : atHeaderB s m a b sf P = true) : AtHeader s m a b sf P := by
  unfold atHeaderB at h
  split at h
  · cases h
  · next w hw =>
    split at h
    · cases h
    · next pg hg =>
      split at h
      · cases h
      · next x hx => exact ⟨w, pg.1, pg.2, x, hw, hg, hx, of_decide_eq_true h⟩

theorem test_witness_ClauseStarts_malformed : AtHeader
    { placed (.clauseHeader 0 0 1 1) with mem := (placed (.clauseHeader 0 0 1 1)).mem.writeDram (codeVa + 4) (wordBytes 0xFFFFFFFF#32) } 0 0 1 1
    (fun _ _ _ _ c => c = none) := at_header (by decide +kernel)

theorem test_witness_ClauseStarts_waits : AtHeader
    (placedW (.clauseHeader 1 0 1 1) fun w => { w with pend := [pendingG2] }) 1 0 1 1
    (fun w _ _ _ c => (∃ d ∈ c, flagsPending w d.wait = true)) := at_header (by decide +kernel)

theorem test_witness_ClauseStarts_overdue : AtHeader
    (placedW (.clauseHeader 0 0 1 0) fun w => { w with overdue := 4096 }) 0 0 1 0
    (fun w _ _ _ c => ∃ d ∈ c, flagsPending w d.wait = false ∧ w.held = [] ∧ markAtStart w d.wait = none ∧ d.safe = false ∧
      4096 ≤ w.overdue) := at_header (by decide +kernel)

theorem test_witness_ClauseStarts_starts : ∀ p ∈ [(0#1, 4095), (1#1, 4096)], AtHeader
    (placedW (.clauseHeader 0 0 1 p.1) fun w => { w with overdue := p.2 }) 0 0 1 p.1
    (fun w a g x c => ∃ d ∈ c, flagsPending w d.wait = false ∧ w.held = [] ∧ markAtStart w d.wait = none ∧
      (d.safe = true → (∀ n, n < 8 → (w.rejoin n).armed = true → d.desc.getLsbD (2 + n) = true) ∧
        ∀ k, k < 3 → (w.loop k).active = true → k < (d.desc.extractLsb' 0 2).toNat) ∧
      (d.safe = false → w.overdue < 4096) ∧
      (∀ k, k < 3 → (w.loop k).active = true → (∃ q ∈ d.instrs, q.1 = (w.loop k).last) → w.live &&& ~~~clauseGroup w d a g = 0) ∧
      (d.safe = true → x.la.cancelled = false)) := by
  intro p hp
  simp only [List.mem_cons, List.not_mem_nil, or_false] at hp
  rcases hp with rfl | rfl <;> exact at_header (by decide +kernel)

/-! ## Witnesses: operations in flight -/

/-- A warp's context as the devices see it meets a condition. -/
def Seen (s : State) (w : Nat) (P : Ctx → Prop) : Prop := ∃ x, dev s w = some x ∧ P x

theorem seen {s : State} {w : Nat} {P : Ctx → Prop} [DecidablePred P]
    (h : ((dev s w).any fun x => decide (P x)) = true) : Seen s w P := by
  obtain ⟨x, hx, hp⟩ := Option.any_eq_true _ _ |>.mp h
  exact ⟨x, hx, of_decide_eq_true hp⟩

/-- A running machine whose warp is in the middle of a clause, the warp changed. -/
def running (f : Warp → Warp) : State := placedW (.nop false) f

/-- A 512 KiB page of ASID 0's placed tables. -/
def paged (s : State) (page : Nat) (lf : Leaf) : State := s.setPte (placedTables + 0x20000) page lf

/-- An operation of a warp. -/
def pendOf (work : Work) (res : List LaneRes) (stage : Nat) : Pend := ⟨0, some 0, work, res, stage, 0, 0, 0, [], none, none⟩

/-- A completed load of lane 31's V2, and one of G2. -/
def loaded (v : Bool) : State := running fun w => { w with exited := if v then 2#32 else 0, pend := [if v then
  pendOf (.load 2 4 false []) [⟨31, 7, [], false⟩, ⟨1, 7, [], false⟩] 1 else pendOf (.gload 2 ⟨0, 0, 0, 0, 0, [], []⟩) [⟨0, 7, [], false⟩] 1] }

theorem test_witness_BarriersAndCompletions_ends : ∀ v ∈ [true, false], Seen (loaded v) 0 fun x =>
    ∃ p ∈ findPend x.w 0, p.stage ≠ 0 ∧ destOf p.work = some (v, 2) ∧ Alive x ∧ BindsAll (loaded v) x.asid
        ((p.res.filter fun r => !(v && x.w.exited.getLsbD r.lane)).map fun r => joinL r.lab x.w.wcl) ∧
      (∀ r ∈ p.res, r.dmg = false ∧ r.lane < 32) ∧ (p.res.map (·.lane)).Nodup := by
  intro v hv
  simp only [List.mem_cons, List.not_mem_nil, or_false] at hv
  rcases hv with rfl | rfl <;> exact seen (by decide +kernel)

theorem test_witness_BarriersAndCompletions_wakes : Seen (running fun w => { w with parked := [⟨1, 0, true⟩] }) 0 fun x =>
    x.w.parked.any (·.woken) = true ∧ x.la.cancelled = false := seen (by decide +kernel)

theorem test_witness_BarriersAndCompletions_phase : Seen
    ((running fun w => { w with wait := .bar 2 0, arrived := [(2, 1)] }).modLaunch 0 fun l => { l with bars := [(barKey 0 2 0, 1)] }) 0
    fun x => x.w.wait = .bar 2 0 ∧ 0 < barPhase x.la (x.lr.unitOf x.blk.b 2) 2 x.blk.rep ∧ x.la.cancelled = false :=
  seen (by decide +kernel)

/-- The warp waits for its completion word at 0, which holds `word`. -/
def awaiting (target word : Nat) : State :=
  let s := running fun w => { w with wait := .seq 0 0 target [] }
  { s with mem := s.mem.writeGal 0 (toBytes 8 word) }

theorem test_witness_BarriersAndCompletions_seq : ∀ p ∈ [(1, 1), (2, 0x1200000000000001)], Seen (awaiting p.1 p.2) 0 fun x =>
    x.w.wait = .seq 0 0 p.1 [] ∧ x.w.run.isSome = true ∧ x.replicated = false ∧ x.la.cancelled = false ∧
      (if p.1 = 1 then p.1 ≤ readNum (awaiting p.1 p.2).mem.gal 0 8 % 2 ^ 48
        else readNum (awaiting p.1 p.2).mem.gal 0 8 % 2 ^ 48 < p.1 ∧ readNum (awaiting p.1 p.2).mem.gal 0 8 / 2 ^ 56 = 0x12) := by
  intro p hp
  simp only [List.mem_cons, List.not_mem_nil, or_false] at hp
  rcases hp with rfl | rfl <;> exact seen (by decide +kernel)

/-- An atomic of lane 3 that waits for its home bank. -/
def atomicAt (ret : Option Nat) (op size : Nat) : State :=
  running fun w => { w with pend := [pendOf (.atomic ret op size [⟨3, 0, 0, 5, 0, [], []⟩]) [] 0] }

theorem test_witness_Atomics_performed : ∀ p ∈ [(some 9, 0, 8), (none, 10, 4), (none, 11, 64), (none, 12, 64)],
    Seen (atomicAt p.1 p.2.1 p.2.2) 0 fun x =>
      ∃ q ∈ findPend x.w 0, q.work = .atomic p.1 p.2.1 p.2.2 [⟨3, 0, 0, 5, 0, [], []⟩] ∧ q.stage = 0 ∧ p.2.1 ≤ 12 ∧
        (p.2.1 ≤ 10 → p.2.2 = 4 ∨ p.2.2 = 8) ∧ (11 ≤ p.2.1 → p.2.2 = 64) ∧ Alive x ∧
        earlierAtomic x.w x.core 0 [⟨3, 0, 0, 5, 0, [], []⟩] = false ∧ granDamaged (atomicAt p.1 p.2.1 p.2.2) 0 = false ∧
        dominates (granLabel (atomicAt p.1 p.2.1 p.2.2).mem 0) [] = true ∧ 5 < 2 ^ (8 * p.2.2) := by
  intro p hp
  simp only [List.mem_cons, List.not_mem_nil, or_false] at hp
  rcases hp with rfl | rfl | rfl | rfl <;> exact seen (by decide +kernel)

/-- A push or a pop that waits at the ring of `ringAt`, whose slot 0 is full or not. -/
def ringOp (work : Work) (r : Ring) : State :=
  { running fun w => { w with pend := [pendOf work [] 0] } with rings := [(0, r)] }

theorem test_witness_Rings_push : ∀ full ∈ [true, false],
    let r := { ringAt with waiting := [(0, 0)], slots := if full then [(0, 2), (1, 2), (2, 2), (3, 2)] else [] }
    Seen (ringOp (.push none ⟨0, 0, 0, 7, 0, [], []⟩) r) 0 fun x =>
      (∃ q ∈ findPend x.w 0, q.stage = 0 ∧ q.work = .push none ⟨0, 0, 0, 7, 0, [], []⟩) ∧ x.replicated = false ∧ Alive x ∧
        x.w.status ≠ .preempted ∧
        r.waiting.head? = some (0, 0) ∧ (r.slots.length < r.count ↔ full = false) ∧
        (r.owner.filter (·.2 == x.producer)).length < r.allow ∧ (r.basePa + r.put * 2 ^ r.lsize) / 64 ≠ 0 := by
  intro p hp
  simp only [List.mem_cons, List.not_mem_nil, or_false] at hp
  rcases hp with rfl | rfl <;> exact seen (by decide +kernel)

theorem test_witness_Rings_pop : ∀ full ∈ [true, false],
    let r := { ringAt with consumer := some (0, 0, 0, 0), slots := if full then [(0, 2)] else [] }
    Seen (ringOp (.pop 4 true ⟨0, 0, 0, 0, 0, [], []⟩) r) 0 fun x =>
      (∃ q ∈ findPend x.w 0, q.stage = 0 ∧ q.work = .pop 4 true ⟨0, 0, 0, 0, 0, [], []⟩) ∧ earlierPop x.w 0 0 = false ∧
        (kget r.slots r.take = some 2 ↔ full = true) ∧
        granDamaged (ringOp (.pop 4 true ⟨0, 0, 0, 0, 0, [], []⟩) r) (r.basePa + r.take * 2 ^ r.lsize) = false := by
  intro p hp
  simp only [List.mem_cons, List.not_mem_nil, or_false] at hp
  rcases hp with rfl | rfl <;> exact seen (by decide +kernel)

/-! ## Witnesses: queues and launches -/

/-- Queue 5 enabled for ASID 0 with two unseen records, from the driver or a device; placement is on. -/
def queue5 (devq : Bool) : State := (running id).modHub fun h => { h with
  hubctl := 1
  queues := [(5, { Queue.zero with ring := 0x80000, en := true, devq := devq, logn := 2, tail := 2, coreMask := 0xFF#640 })] }

theorem test_witness_QueueSteps_doorbell : ∀ v ∈ [0, 4], let u := hubQueue (queue5 false) 5
    u.devq = false ∧ u.head ≤ v ∧ v ≤ u.head + 2 ^ u.logn := by decide +kernel

theorem test_witness_QueueSteps_outside : let u := hubQueue (queue5 false) 5
    u.devq = false ∧ u.head + 2 ^ u.logn < 5 ∧ (hubQueue (queue5 true) 5).devq = true := by decide +kernel

theorem test_witness_QueueSteps_verdict : let u := hubQueue (queue5 false) 5
    (queue5 false).hub.hubctl.getLsbD 0 = true ∧ u.ovf = false ∧ u.devq = false ∧ u.seen < u.tail := by decide +kernel

/-- A launch that waits at queue 5's head, with a dependence entry or none. -/
def waiting (deps : List (Word × Word)) : State :=
  { queue5 false with launches := [(3, { placedLaunch with
      queue := 5, slot := some 0, eligible := deps.isEmpty, placed := 0, gangs := []
      record := { placedRecord with deps := deps, levels := [1, 1] } })], warps := [], cores := [] }

/-- A slot whose record is discarded, one that HEAD has passed, and one that has been consumed. -/
theorem test_witness_QueueSteps_slots : let u := { Queue.zero with head := 1, consumed := [2] }
    let la := fun k : Nat => { placedLaunch with slot := some k }
    InSlot u (la 1) ∧ ¬ InSlot u (la 0) ∧ ¬ InSlot u (la 2) := by
  refine ⟨⟨rfl, 1, rfl, by decide, by decide⟩, ?_, ?_⟩ <;> rintro ⟨-, k, hk, h1, h2⟩ <;> cases hk
  · exact absurd h1 (by decide)
  · exact h2 (by decide)

theorem test_witness_QueueSteps_eligible : ∀ d ∈ [(0x80100#64, 0#64), (4#64, 0#64)], ∃ la, (headOf (waiting [d]) 5) = some (3, la) ∧
    (waiting [d]).hub.hubctl.getLsbD 0 = true ∧ (hubQueue (waiting [d]) 5).ovf = false ∧ (waiting [d]).launchOf 3 = some la ∧
    la.eligible = false ∧ la.cancelled = false ∧ la.record.deps = [d] ∧
    (d.1 = 4 ∨ (d.1.toNat % 8 = 0 ∧ readVaNum (waiting [d]) la.asid d.1.toNat 8 = some 0)) := by
  intro d hd
  simp only [List.mem_cons, List.not_mem_nil, or_false] at hd
  rcases hd with rfl | rfl <;> exact ⟨_, rfl, by decide +kernel⟩

/-- A LAUNCH to queue 5 that waits for a slot. -/
def copying : State :=
  let s := running fun w => { w with pend := [pendOf (.launch 9 5 (List.replicate 512 0) []) [] 0] }
  { s with hub := { (queue5 true).hub with queues :=
      [(5, { Queue.zero with ring := 0x80000, en := true, devq := true, logn := 2, tail := 3, waiting := [(0, 0)] })] } }

theorem test_witness_QueueSteps_copy : Seen copying 0 fun x =>
    (∃ p ∈ findPend x.w 0, p.work = .launch 9 5 (List.replicate 512 0) []) ∧ x.replicated = false ∧ x.w.status ≠ .preempted ∧
      kget copying.launches copying.nextLaunch = none ∧ (hubQueue copying 5).waiting = [(0, 0)] ∧
      (hubQueue copying 5).tail - (hubQueue copying 5).head < 2 ^ (hubQueue copying 5).logn ∧
      copying.hub.hubctl.getLsbD 0 = true := seen (by decide +kernel)

theorem test_witness_PlacementSteps_place : ∃ la, (waiting []).launchOf 3 = some la ∧ (waiting []).hub.hubctl.getLsbD 0 = true ∧
    waitsCores (waiting []) la = true ∧ (headOf (waiting []) la.queue).map (·.1) = some 3 ∧ coresSuit (waiting []) la [7] = true ∧
    nobodyBefore (waiting []) la [7] = true ∧ la.record.coside = false ∧ 1 ≤ la.record.gangBlocks := ⟨_, rfl, by decide +kernel⟩

/-- Launch 3 with two gangs and COSIDE. -/
def waitingTwo : State := (waiting []).modLaunch 3 fun l => { l with record := { l.record with flags := 9, units := 2 } }

theorem test_witness_PlacementSteps_coside : ∃ la, waitingTwo.launchOf 3 = some la ∧ waitingTwo.hub.hubctl.getLsbD 0 = true ∧
    waitsCores waitingTwo la = true ∧ (headOf waitingTwo la.queue).map (·.1) = some 3 ∧ coresSuit waitingTwo la [7, 2] = true ∧
    nobodyBefore waitingTwo la [7, 2] = true ∧ la.record.coside = true ∧ la.record.blocks / la.record.gangBlocks = 2 :=
  ⟨_, rfl, by decide +kernel⟩

/-- Launch 3 placed on core 7, its window to be staged with one line of an in region. -/
def staging : State :=
  let la : Launch := { placedLaunch with
    queue := 5, slot := some 0, placed := 1, gangs := [(0, newGang 1 0 [7])]
    record := { placedRecord with levels := [1, 1], nreg := 1, regions := [(0x10000000081000#64, 0x100040#64)] } }
  { queue5 false with launches := [(3, la)], warps := [], cores := [(7, { Core.zero with block := some ⟨3, 0, 0, false⟩ })] }

theorem test_witness_PlacementSteps_stage : ∃ la g, staging.launchOf 3 = some la ∧ kget la.gangs 0 = some g ∧ g.staged = false ∧
    g.ended = false ∧ g.failed = false ∧ la.stagingFault = false ∧ la.cancelled = false ∧ g.kill = none ∧
    gangHere staging 3 la 0 g = true ∧ (staging.partOf (staging.asidOf la.asid).part).state < 2 ∧ la.record.win ≤ 256 ∧
    lvlCount (la.record.level 2) ≤ 32 ∧ g.cores.flatten.Nodup ∧ g.live.Nodup ∧
    (∀ k ∈ g.live, (nth [] g.cores k).length = la.record.gangBlocks) ∧ stagedLines la 0 = [(0x81000, 0x40)] ∧
    (∀ p ∈ staging.chains, p.1 / 2 ^ 20 ∉ g.cores.flatten) := ⟨_, _, rfl, rfl, by decide +kernel⟩

/-- The page of the line as the placed tables map it, or under an ACL that names nobody. -/
theorem test_witness_PlacementSteps_line : ∀ p ∈ [(staging, false), (paged staging 1 ⟨0x8000B#64, 0x1000#64⟩, true)],
    ∃ la, p.1.launchOf 3 = some la ∧ LineOk p.1 la (0x81000, 0x40) ∧ lineDenied p.1 la (0x81000, 0x40) = p.2 := by
  intro p hp
  simp only [List.mem_cons, List.not_mem_nil, or_false] at hp
  rcases hp with rfl | rfl <;> exact ⟨_, rfl, ⟨by decide +kernel, by decide +kernel, by decide +kernel⟩, by decide +kernel⟩

/-! ## Witnesses: retirement, traps, containment, pre-emption -/

/-- Every lane of the warp has exited. -/
def ended_ (f : Launch → Launch) : State :=
  (running fun w => { w with exited := 0xFFFFFFFF#32, run := none }).modLaunch 0 f

theorem test_witness_RetirementSteps_retire : ∀ n ∈ [1, 2],
    let s := ended_ fun l => { l with record := { l.record with levels := [1, 2 ^ 24 + n] } }
    ∃ la g, s.launchOf 0 = some la ∧ kget la.gangs 0 = some g ∧ g.ended = false ∧ gangOver la g = false ∧ g.kill = none ∧
      g.echoFail = none ∧ g.stop = [] ∧ g.staged = true ∧ 0 ∉ g.done ∧ blockDone s 0 la g 0 = true ∧
      (∀ p ∈ liveWarps s la g 0, p.2.marks = []) ∧ NoDelivery s (fun q => gangChain 0 la 0 q = true) ∧
      la.record.gangBlocks = n ∧ g.live.length < 2 ∧ gangHere s 0 la 0 g = true ∧
      (∀ p ∈ s.warps, p.1 / 32 ∈ g.cores.flatten → p.2.status ≠ .trapped) := by
  intro n hn
  simp only [List.mem_cons, List.not_mem_nil, or_false] at hn
  rcases hn with rfl | rfl <;> exact ⟨_, _, rfl, rfl, by decide +kernel⟩

/-- The launch is cancelled, or its gang killed before it published. -/
def overWith (kill : Bool) : State := ended_ fun l => if kill
  then { l with gangs := [(0, { placedGang with kill := some 0x0D })] } else { l with cancelled := true }

theorem test_witness_RetirementSteps_over : ∃ la g, (overWith false).launchOf 0 = some la ∧ kget la.gangs 0 = some g ∧ g.ended = false ∧
    gangOver la g = true ∧ gangAtRest (overWith false) 0 la 0 g = true ∧
    NoDelivery (overWith false) (fun q => gangChain 0 la 0 q = true) := ⟨_, _, rfl, rfl, by decide +kernel⟩

/-- The same with a chain of the cancelled launch, one entry outstanding. -/
def overChain : State := { overWith false with chains := [(0, { chain0 with
  entries := [⟨1, 0x400, ⟨0x400, 1, [], 0, 0, 0, 0⟩, false, [], [], 0, 0, 0, 0, none, none, false, none⟩] })] }

theorem test_witness_RetirementSteps_cancelled : ∃ la g x, overChain.launchOf 0 = some la ∧ kget la.gangs 0 = some g ∧
    g.ended = false ∧ gangOver la g = true ∧ gangAtRest overChain 0 la 0 g = true ∧ la.cancelled = true ∧
    (overChain.chains.filter fun p => gangChain 0 la 0 p.2).map (·.1) = [0] ∧ commitCtx overChain 0 0 = some x ∧
    x.replicated = false ∧ galPa x overChain (0x400 + 0x30) 16 true = some 0x430 ∧ chain0.cwordPa 0 = 64 ∧
    NoneBoundAt overChain 0x430 ∧ NoneBoundAt overChain 64 :=
  ⟨_, _, _, rfl, rfl, by decide +kernel, by decide +kernel, by decide +kernel, by decide +kernel, by decide +kernel, rfl,
    by decide +kernel, by decide +kernel, by decide +kernel, by decide +kernel, by decide +kernel⟩

theorem test_witness_RetirementSteps_relaunch : ∃ la g, (overWith true).launchOf 0 = some la ∧ kget la.gangs 0 = some g ∧ g.ended = false ∧
    la.cancelled = false ∧ g.kill ≠ none ∧ g.published = false ∧ g.relaunched = false ∧ gangAtRest (overWith true) 0 la 0 g = true ∧
    gangHere (overWith true) 0 la 0 g = true ∧ ((overWith true).partOf ((overWith true).asidOf la.asid).part).state < 2 :=
  ⟨_, _, rfl, rfl, by decide +kernel⟩

/-- Every gang has ended; the completion word lies in a writable page. -/
def complete (cseq : Nat) : State :=
  paged (ended_ fun l => { l with
    gangs := [(0, { placedGang with ended := true })], record := { l.record with cword := 0x100100, cseq := cseq } }) 2 ⟨0x8000B#64, 0⟩

theorem test_witness_RetirementSteps_complete : ∀ n ∈ [0, 1], ∃ la, (complete n).launchOf 0 = some la ∧ launchOver la = true ∧ la.queue < 4096 ∧
    la.record.cword.toNat % 8 = 0 ∧ writableVa (complete n) la.cwordAsid la.record.cword.toNat = true ∧
    readVaNum (complete n) la.cwordAsid la.record.cword.toNat 8 = some 0 ∧
    (0 < la.record.cseq * 65536 + (launchStatus la).2 * 256 + (launchStatus la).1 ↔ n = 1) ∧
    (∀ p ∈ translate (complete n) la.cwordAsid la.record.cword.toNat, contained (complete n) p.1 = false) := by
  intro n hn
  simp only [List.mem_cons, List.not_mem_nil, or_false] at hn
  rcases hn with rfl | rfl <;> exact ⟨_, rfl, by decide +kernel⟩

/-- A trap of a code at the placed instruction. -/
def trapOf (code : Nat) : Trap :=
  ⟨code, 0, 0xFFFFFFFF#32, 0xFFFFFFFF#32, wd codeVa, wd codeVa, 0, 0, none, none, 0, 0, none, none, [], none, wd codeVa, []⟩

/-- The warp has trapped and its notice waits. -/
def trapped (code : Nat) (trapv : Bool) : State :=
  let s := running fun w => { w with run := none, status := .trapped, trap := some (trapOf code) }
  let s := s.modLaunch 0 fun l => { l with record := { l.record with flags := if trapv then 17 else 1 } }
  s.modCore 0 fun k => { k with notices := [0] }

theorem test_witness_TrapServed : ∀ p ∈ [(0x0C, true), (0x11, true), (0x0B, false), (0x0D, false)], Seen (trapped p.1 p.2) 0 fun x =>
    ((trapped p.1 p.2).core 0).notices = [0] ∧ nextNotice (trapped p.1 p.2) 0 = some 0 ∧ x.w.trap = some (trapOf p.1) ∧ ¬ Ending x ∧
      NoDelivery (trapped p.1 p.2) (fun q => gangChain x.blk.launch x.la x.gi q = true) ∧ x.lr.trapv = p.2 ∧ x.w.handler = none ∧ (trapOf p.1).tfl.length ≤ 8 ∧ x.w.live ≠ 0 ∧ (handled p.1 ↔ p.1 ≠ 0x0D) := by
  intro p hp
  simp only [List.mem_cons, List.not_mem_nil, or_false] at hp
  rcases hp with rfl | rfl | rfl | rfl <;> exact seen (by decide +kernel)

/-- The cluster stands frozen, its DATA-DAMAGE notice served. -/
def frozen : State := (running fun w => { w with run := none, status := .trapped, trap := some (trapOf 0x0D) }).modCore 0
  fun k => { k with frozen := true }

theorem test_witness_ContainmentSteps_snapshot : Seen frozen 0 fun x =>
    ((frozen.warps.filter fun p => ((List.range 4).map (4 * 0 + ·)).contains (p.1 / 32)).filter (consuming frozen)).map (·.1) = [0] ∧
      (frozen.core 0).frozen = true ∧ (∀ p ∈ frozen.warps, p.1 / 32 ∈ (List.range 4).map (4 * 0 + ·) → stoodStill frozen p = true) ∧
      x.w.trap = some (trapOf 0x0D) ∧ x.gang.live.length < 3 ∧ x.blk.rep ∈ x.gang.live ∧ x.gang.ended = false ∧ x.gang.kill = none ∧
      NoDelivery frozen (fun q => gangChain x.blk.launch x.la x.gi q = true) := seen (by decide +kernel)

theorem test_witness_ContainmentSteps_test : ∀ why < 3,
    ((running id).modHub fun h => { h with tests := [⟨[639], [], false, why⟩] }).hub.tests = [⟨[639], [], false, why⟩] := by
  decide +kernel

theorem test_witness_ContainmentSteps_place : ([Store.v 31 63 31, .g 31 63, .p 31 6, .m 31 7, .tile 7 16383, .granule 16383,
    .phase 31 0, .snap 0].all placeOk && !placeOk (.p 0 7)) = true := by decide +kernel

/-- Partition 0 in a state, its warp between clauses or inside one. -/
def parted (state req : Nat) (between : Bool) : State :=
  (running fun w => { w with run := if between then none else w.run, wait := if between then .bar 2 0 else .none }).modPart 0
    fun p => { p with state := state, req := req }

theorem test_witness_PreemptionSteps_stop : ∀ b ∈ [true, false], let s := parted 1 0 b
    (s.partOf 0).state ≤ 1 ∧ (s.partOf 0).req = 0 ∧ partCores s 0 = [0] ∧ ∃ w ∈ s.warp 0, w.status = .running ∧ w.live ≠ 0 ∧
      w.request = .running ∧ quiescent s 0 w = b := by decide +kernel

theorem test_witness_PreemptionSteps_empty : (State.reset.partOf 63).state ≤ 1 ∧ (State.reset.partOf 63).req = 0 ∧
    partCores State.reset 63 = [] ∧ partMoving State.reset 63 = false := by decide +kernel

/-- A context of block 0, sealed or not. -/
def contextOf (sealedBy : Option Nat) : Context :=
  ⟨0, some ⟨0, 0, 0, true⟩, [], [(5, 7)], [(0, [3])], [], [], [], [], [], [], sealedBy⟩

theorem test_witness_PreemptionSteps_requests : ((parted 4 2 true).partOf 0).state = 4 ∧
    ((parted 2 1 true).partOf 0).state = 2 ∧ ((parted 2 1 true).partOf 0).req ≠ 0 ∧
    ((parted 3 0 true).modPart 0 fun p => { p with saved := [(0, contextOf none)] }).partOf 0 ≠ (parted 3 0 true).partOf 0 := by
  decide +kernel

/-- The partition is stopping and its warp has stopped. -/
def stopped_ : State := (parted 2 1 true).modWarp 0 fun w => { w with status := .preempted }

theorem test_witness_PreemptionSteps_swap : partOn stopped_ 0 = some 0 ∧ (stopped_.partOf 0).state = 2 ∧
    (∀ k ∈ stopped_.warps, k.1 / 32 = 0 → k.2.window = []) ∧ maySwap stopped_ 0 0 = true := by decide +kernel

/-- The same, stopped at a safe point whose descriptor names V0, G0 to G2 and P0. -/
def stoppedSafe : State :=
  let s := (placed (.clauseHeader 0 0 1 1)).modPart 0 fun p => { p with state := 2, req := 1 }
  ({ s with mem := s.mem.writeDram (codeVa + 4) (wordBytes 0x020C0400#32) }).modWarp 0 fun w =>
    { w with status := .preempted, atSafe := true }

theorem test_witness_PreemptionSteps_safe : partOn stoppedSafe 0 = some 0 ∧ (stoppedSafe.partOf 0).state = 2 ∧
    (∀ k ∈ stoppedSafe.warps, k.1 / 32 = 0 → k.2.window = []) ∧ maySwap stoppedSafe 0 0 = true ∧
    ∃ w ∈ kget stoppedSafe.warps 0, w.atSafe = true ∧ w.status = .preempted ∧
      nextDesc stoppedSafe (0, w) = some 0x020C0400#32 := by decide +kernel

theorem test_witness_PreemptionSteps_move : let s := stopped_.modCore 0 fun k => { k with shadow := some (contextOf none), moving := true }
    (s.core 0).shadow = some (contextOf none) ∧ (s.core 0).moving = true ∧ (contextOf none).part = 0 := by decide +kernel

theorem test_witness_PreemptionSteps_load : ∀ o ∈ [none, some 0],
    let s := (parted 4 2 true).modPart 0 fun p => { p with saved := [(639, contextOf o)] }
    (s.partOf 0).state = 4 ∧ kget (s.partOf 0).saved 639 = some (contextOf o) ∧ (s.core 639).block = none ∧
      (s.core 639).shadow = none ∧ (s.core 639).fenced = false ∧ stillSaving s 639 = false ∧ NoDelivery s (fun _ => True) ∧
      s.hub.parcels = [] ∧ ((contextOf o).gal.map (·.1)).Nodup ∧
      ((contextOf o).glab.map (·.1)).Nodup := by decide +kernel

/-! ## Witnesses: tiles and Flowstone at the engine -/

/-- A tile operation of the warp. -/
def tileOp (op : Nat) (blk : List Byte) : TileOp :=
  ⟨op, 2, 0, (wd 0, BitVec.ofNat 64 (2 ^ 51 + 1)), (wd 0x8000, BitVec.ofNat 64 (2 ^ 51 + 1)), 0x3F00, wd 0x10000, blk, false,
    List.replicate 4 0x3F80#16, 0, 0, [], 2, 4, [], none⟩

/-- The engine of core 0 holds one unit of the warp, a tile bound to its A0 or none. -/
def engineAt (op : Nat) (blk : List Byte) (isBound : Bool) (repl : List (Nat × TileOp)) : State :=
  let p := pendOf (.tile (tileOp op blk)) [] 0
  let s := (running fun w => { w with pend := [p] }).modLaunch 0 fun l => { l with record := { l.record with win := 256 } }
  s.modCore 0 fun k => { k with
    engine := [⟨0, none, [p], repl, none, []⟩], allocs := if isBound then [] else [0]
    tiles := if isBound then [(2, { zeroedTile (0, 0) with tset := true })] else [] }

theorem test_witness_TileSteps_allocate : let s := engineAt 1 [] false []
    (s.core 0).allocs = [0] ∧ ∃ u ∈ (s.core 0).engine.find? (·.warp == 0), unbound (s.core 0) u = [0] ∧ (freeTile (s.core 0)).isSome = true := by
  decide +kernel

/-- The parameter block of a drain to 0x30000. -/
def drainBlk : List Byte := toBytes 4 0x30000 ++ toBytes 4 256 ++ toBytes 4 32768 ++ List.replicate 52 0

theorem test_witness_TileSteps_execute : ∀ op ∈ [0, 1, 3, 4], Seen (engineAt op [] true []) 0 fun x =>
    ∃ q ∈ nextUnit ((engineAt op [] true []).core 0), q.2.repl = [] ∧ q.2.failed = none ∧ q.2.orig.length = 1 ∧
      ∃ k' ∈ bindUnit ((engineAt op [] true []).core 0) q.2, Alive x ∧ x.replicated = false ∧ tileIx k' 0 0 = some 2 ∧
        (aget Tile.free k'.tiles 2).dmg = [] ∧ (op = 4 → ∀ j < 1024,
          piecePa x (engineAt op [] true []) false (0x10000 + 64 * j, 64) / 2 ^ 20 = 0 ∧
            granDamaged (engineAt op [] true []) (piecePa x (engineAt op [] true []) false (0x10000 + 64 * j, 64)) = false) ∧
        (op = 0 → ∀ b ∈ [0, 0x8000], ∀ r < 128, ∀ t < 2,
          (chunkRead x (engineAt op [] true []) ⟨0, b, 0, false, false, 2, 0, 1⟩ 64 t r).2.any id = false) := by
  intro p hp
  simp only [List.mem_cons, List.not_mem_nil, or_false] at hp
  rcases hp with rfl | rfl | rfl | rfl <;> exact seen (by decide +kernel)

theorem Seen.mono {s : State} {w : Nat} {P Q : Ctx → Prop} (h : Seen s w P) (f : ∀ x, P x → Q x) : Seen s w Q := by
  obtain ⟨x, hx, hp⟩ := h
  exact ⟨x, hx, f x hp⟩

/-- What a drain or a transpose at the head of the engine's work needs beside undamaged sources. -/
def headOk (op : Nat) (x : Ctx) : Bool :=
  let s := engineAt op drainBlk true []
  match nextUnit (s.core 0) with
  | none => false
  | some q => match bindUnit (s.core 0) q.2 with
    | none => false
    | some k => q.2.repl.isEmpty && q.2.failed.isNone && q.2.orig.length == 1 && decide (Alive x) && !x.replicated &&
        x.w.phase.isEmpty && x.ext.isEmpty && tileIx k 0 0 == some 2 && (aget Tile.free k.tiles 2).dmg.isEmpty &&
        (op == 2 || !(runTileOp x s (tileOp op drainBlk) (aget Tile.free k.tiles 2)).writes.isEmpty)

theorem headOk_ext {op : Nat} {x : Ctx} (h : headOk op x = true) : x.ext = [] := by
  unfold headOk at h
  dsimp only at h
  split at h
  · cases h
  · split at h
    · cases h
    · simp only [Bool.and_eq_true, List.isEmpty_iff] at h
      exact h.1.1.1.2

theorem test_witness_TileSteps_drain : ∀ op ∈ [5, 6], (∀ pa, granDamaged (engineAt op drainBlk true []) pa = false) ∧
    blkBiasen (tileOp op drainBlk) = false ∧ (tileOp op drainBlk).blkDmg = false ∧
    Seen (engineAt op drainBlk true []) 0 fun x => headOk op x = true ∧
      ∀ t, t.dmg = [] → (runTileOp x (engineAt op drainBlk true []) (tileOp op drainBlk) t).dmg = false := by
  intro p hp
  simp only [List.mem_cons, List.not_mem_nil, or_false] at hp
  rcases hp with rfl | rfl
  · have h := undamaged (s := engineAt 5 drainBlk true []) (by decide +kernel)
    have hp : ∀ p ∈ (engineAt 5 drainBlk true []).warps, ∀ e ∈ p.2.phase, e.dmg = false := by decide +kernel
    have hb : blkBiasen (tileOp 5 drainBlk) = false := by decide +kernel
    exact ⟨h, hb, rfl, Seen.mono (seen (P := fun x => headOk 5 x = true) (by decide +kernel))
      fun _ hx => ⟨hx, fun _ ht => runDrain_sound ⟨headOk_ext hx, h, hp⟩ rfl hb ht⟩⟩
  · have h := undamaged (s := engineAt 6 drainBlk true []) (by decide +kernel)
    have hp : ∀ p ∈ (engineAt 6 drainBlk true []).warps, ∀ e ∈ p.2.phase, e.dmg = false := by decide +kernel
    have hb : blkBiasen (tileOp 6 drainBlk) = false := by decide +kernel
    exact ⟨h, hb, rfl, Seen.mono (seen (P := fun x => headOk 6 x = true) (by decide +kernel))
      fun _ hx => ⟨hx, fun _ ht => runDrain_sound ⟨headOk_ext hx, h, hp⟩ rfl hb ht⟩⟩

theorem test_witness_TileSteps_apart : Seen (engineAt 5 drainBlk true []) 0 fun x =>
    Apart x (engineAt 5 drainBlk true []) (outDesc drainBlk) (outBytes (blkOfmt (tileOp 5 drainBlk))) :=
  Seen.mono (P := fun x => ascending 0 ((allPieces (outDesc drainBlk) (outBytes (blkOfmt (tileOp 5 drainBlk)))).map
    fun p => (piecePa x (engineAt 5 drainBlk true []) true p, p.2)) = true) (seen (by decide +kernel)) fun _ h => ascending_disjoint h

theorem test_witness_TileSteps_transpose : Seen (engineAt 2 drainBlk true []) 0 fun x => headOk 2 x = true ∧
    (runTileOp x (engineAt 2 drainBlk true []) (tileOp 2 drainBlk) Tile.free).dmg = false := seen (by decide +kernel)

/-- A group whose originals are two tile instructions and whose replacement is a TZERO. -/
theorem test_witness_TileSteps_group : Seen (engineAt 1 [] true [(0, tileOp 1 [])]) 0 fun x =>
    ∃ q ∈ nextUnit ((engineAt 1 [] true [(0, tileOp 1 [])]).core 0), q.2.repl.isEmpty = false ∧ x.replicated = false ∧
      ∃ k ∈ bindUnit ((engineAt 1 [] true [(0, tileOp 1 [])]).core 0) q.2,
        (groupSteps x (heldNames ((engineAt 1 [] true [(0, tileOp 1 [])]).core 0) q.2.warp)
          (takeUnit ((engineAt 1 [] true [(0, tileOp 1 [])]).setCore 0 k) 0 q.1 q.2) (unitOps q.2)).toBool = true :=
  seen (by decide +kernel)

/-- The same group with a scaling, whose bands are damaged when it executes. -/
def stoppedGroup : State := engineAt 0 [] true [(0, { tileOp 0 [] with bandDmg := 1 })]

theorem test_witness_TileSteps_replay : Seen stoppedGroup 0 fun x =>
    ∃ q ∈ nextUnit (stoppedGroup.core 0), ∃ k ∈ bindUnit (stoppedGroup.core 0) q.2,
      (groupSteps x (heldNames (stoppedGroup.core 0) q.2.warp) (takeUnit (stoppedGroup.setCore 0 k) 0 q.1 q.2)
        (unitOps q.2)).toBool = false :=
  seen (by decide +kernel)
/-- An ETAIL that is held, with `n` sublists queued at its chain. -/
def heldEtail (n : Nat) : State :=
  let s := running fun w => { w with held := [⟨0, pendOf (.etail ⟨0, 0, 0, 0x100000080#64, 0, [], []⟩) [] 0, 0, []⟩] }
  { s with chains := [(0, { chain0 with subs := List.replicate n ⟨0, 1, [], 0, 0, 0, 0⟩ })] }

theorem test_witness_HeldRequests_etail : ∀ n ∈ [15, 16], Seen (heldEtail n) 0 fun x =>
    (x.w.held.map (·.kind)) = [0] ∧ x.replicated = false ∧ ∃ y ∈ commitCtx (heldEtail n) x.blk.launch x.blk.b,
      galPa { y with w := x.w } (heldEtail n) 0 64 true = some 0 ∧
        (∃ ch ∈ kget (heldEtail n).chains 0, (ch.subs.length < 16 ↔ n = 15) ∧ ch.halt = 0) ∧
        Machine.behind (heldEtail n) 0 (x.handover 0) = false := by
  intro n hn
  simp only [List.mem_cons, List.not_mem_nil, or_false] at hn
  rcases hn with rfl | rfl <;> exact seen (by decide +kernel)

/-- The held hand-over given up at the chain's halt, or behind another that waits at the same chain. -/
def heldBehind (up : Bool) : State := ((heldEtail 0).modHub fun h => { h with
    handovers := if up then [⟨0, 0, 0, 0, true⟩] else [⟨0, 0, 0, 9, false⟩, ⟨0, 0, 0, 0, false⟩] }).modWarp 0 fun w =>
  { w with held := w.held ++ [⟨0, { pendOf (.etail ⟨0, 0, 0, 0x100000080#64, 0, [], []⟩) [] 0 with id := 9 }, 0, []⟩] }

theorem test_witness_HeldRequests_behind : ∀ up ∈ [true, false], Seen (heldBehind up) 0 fun x =>
    ((heldBehind up).hub.handovers.any fun r => r.up && r.same (x.handover 0)) = up ∧
      (up = false → Machine.behind (heldBehind up) 0 (x.handover 0) = true) := by
  intro up hu
  simp only [List.mem_cons, List.not_mem_nil, or_false] at hu
  rcases hu with rfl | rfl <;> exact seen (by decide +kernel)

/-- A RULELD that is held, its partition with generations 1 to `n`, the gang's being the oldest. -/
def heldRules (n : Nat) : State :=
  let s := running fun w => { w with held := [⟨1, pendOf (.etail ⟨0, 0, 0, 0, 0, [], []⟩) [] 0, 0, List.replicate 8 0⟩] }
  (s.modLaunch 0 fun l => { l with gangs := [(0, { placedGang with gen := 1 })] }).modPart 0 fun p =>
    { p with gens := (List.range n).map fun k => (k + 1, []), gen := n }

theorem test_witness_HeldRequests_rules : ∀ n ∈ [3, 4], Seen (heldRules n) 0 fun x =>
    (x.w.held.map (·.kind)) = [1] ∧ x.replicated = false ∧
      ((liveGens (heldRules n) 0 ((heldRules n).partOf 0).gens).length < 4 ↔ n = 3) := by
  intro n hn
  simp only [List.mem_cons, List.not_mem_nil, or_false] at hn
  rcases hn with rfl | rfl <;> exact seen (by decide +kernel)

/-! ## Witnesses: Echo -/

/-- What a replica has sent. -/
def sentAt (release once : Bool) (sig : Nat) : EchoWait := ⟨4, release, once, 2, (sig, 0, 0), [], [], false, none, [], []⟩

/-- A replicated launch on cores 0, 160 and 320 whose replicas have sent what is given; each buffers its own byte. -/
def replicas (n : Nat) (sent : List (Option EchoWait)) (live : List Nat) : State :=
  let s := (running id).modLaunch 0 fun l => { l with
    record := { l.record with flags := n }
    gangs := [(0, { placedGang with cores := (List.range n).map fun r => [160 * r], live := live })] }
  { s with
    warps := (List.range n).map fun r => (5120 * r, { (s.warp 0).getD Warp.zero with
      echo := nth none sent r
      phase := [⟨160 * r * 16384 + 3, 0xAB#512, 1#64, [], 192, 0, false, []⟩] })
    cores := (List.range n).map fun r => (160 * r, { Core.zero with block := some ⟨0, 0, r, true⟩ }) }

/-- The premises of Echo's statement, and a condition on the parties. -/
def AtEvent (s : State) (P : Launch → Gang → List Party → Prop) : Prop :=
  ∃ la g, HasGang s 0 0 la g ∧ g.ended = false ∧ g.kill = none ∧ g.echoFail = none ∧ 2 ≤ la.record.repl ∧
    parties s la g 0 0 ≠ [] ∧ (s.partOf (s.asidOf la.asid).part).state < 2 ∧
    NoDelivery s (fun q => gangChain 0 la 0 q = true) ∧ P la g (parties s la g 0 0)

theorem test_witness_EchoSteps_agree : ∀ p ∈ [(2, true), (3, true), (3, false)],
    AtEvent (replicas p.1 (List.replicate 3 (some (sentAt p.2 (!p.2) 7))) (List.range p.1)) fun la g ps =>
      (ps.map (·.key)).Nodup ∧ (ps.map (·.rep)).Nodup ∧ (let s := replicas p.1 (List.replicate 3 (some (sentAt p.2 (!p.2) 7))) (List.range p.1)
      judge (sentSigs (bindSublists s ps) ps) = .agree) ∧
      (ps.flatMap (partyEntries (replicas p.1 (List.replicate 3 (some (sentAt p.2 (!p.2) 7))) (List.range p.1)))).map (·.gran) =
        ((List.range p.1).map fun r => 160 * r * 16384 + 3) ∧
      ps.map (fun q => q.sent.map (·.release)) = List.replicate p.1 (some p.2) ∧ la.record.repl = p.1 ∧ g.commit = 0 := by
  intro p hp
  simp only [List.mem_cons, List.not_mem_nil, or_false] at hp
  rcases hp with rfl | rfl | rfl <;> exact ⟨_, _, ⟨rfl, rfl⟩, by decide +kernel⟩

theorem test_witness_EchoSteps_quiet : ∀ r < 3, ∃ x ∈ waitingCtx (replicas 3 (List.replicate 3 (some (sentAt true false 7))) [0, 1, 2]) (5120 * r),
    x.w.items = [] ∧ ∀ q ∈ published x x.w 2, externalEntry x q.gran = false ∧
      dominates (granLabel (replicas 3 (List.replicate 3 (some (sentAt true false 7))) [0, 1, 2]).mem (q.gran * 64)) q.lab = true := by
  decide +kernel

theorem test_witness_EchoSteps_votes : ∀ p ∈ [(3, [7, 7, 9], Verdict.dissent 2), (3, [7, 8, 9], .differ), (2, [7, 9], .differ)],
    AtEvent (replicas p.1 (p.2.1.map fun v => some (sentAt true false v)) (List.range p.1)) fun _ _ ps =>
      allSent ps = true ∧ anyRelease ps = true ∧
        let s := replicas p.1 (p.2.1.map fun v => some (sentAt true false v)) (List.range p.1)
        judge (sentSigs (bindSublists s ps) ps) = p.2.2 := by
  intro p hp
  simp only [List.mem_cons, List.not_mem_nil, or_false] at hp
  rcases hp with rfl | rfl | rfl <;> exact ⟨_, _, ⟨rfl, rfl⟩, by decide +kernel⟩

theorem test_witness_EchoSteps_straggler : ∀ n ∈ [3, 2],
    AtEvent (replicas n ((List.replicate (n - 1) (some (sentAt true false 7))) ++ [none]) (List.range n)) fun _ _ ps =>
      (ps.filter (·.sent.isSome)).map (·.rep) = List.range (n - 1) ∧ (ps.filter (·.sent.isNone)).map (·.rep) = [n - 1] ∧
        let s := replicas n ((List.replicate (n - 1) (some (sentAt true false 7))) ++ [none]) (List.range n)
        let here := ps.filter (·.sent.isSome)
        judge (sentSigs (bindSublists s here) here) = .agree := by
  intro n hn
  simp only [List.mem_cons, List.not_mem_nil, or_false] at hn
  rcases hn with rfl | rfl <;> exact ⟨_, _, ⟨rfl, rfl⟩, by decide +kernel⟩

/-- Replica 2 has lost its vote; the others' warps stand where they can be copied. -/
def degraded : State :=
  let s := replicas 3 [none, none, none] [0, 1]
  { s with warps := s.warps.map fun p => (p.1, { p.2 with run := none, status := .preempted }) }

theorem test_witness_EchoSteps_reclone : AtEvent degraded fun la g _ => lostReplica degraded la g 2 = true ∧
    (∀ p ∈ degraded.warps, p.1 / 32 ∈ g.coresOf g.commit → copyable degraded p = true) ∧
    (∀ p ∈ degraded.warps, p.1 / 32 ∈ g.coresOf 2 → standsStill degraded p = true) ∧
    (∀ c ∈ g.coresOf g.commit, (degraded.core c).engine = []) ∧ (g.coresOf g.commit ++ g.coresOf 2).Nodup ∧
    (g.coresOf g.commit).length = (g.coresOf 2).length ∧ la.record.win ≤ 256 ∧ (degraded.warps.map (·.1)).Nodup ∧
    memoryOk degraded := by
  unfold memoryOk
  refine ⟨_, _, ⟨rfl, rfl⟩, ?_⟩
  decide +kernel

/-- A gang of three replicas in which a copy is on its way, or has been swapped in with these events kept. -/
def recloning (sent : List (Option EchoWait)) (inn : Bool) (kept : List KeptEvent) : State :=
  (replicas 3 sent (if inn then [0, 1, 2] else [0, 1])).modGang 0 0 fun g => { g with clone := some (2, inn), kept := kept }

/-- An event of the warp that has committed. -/
def keptAt (event sig : Nat) (once : Bool) : KeptEvent := ⟨0, 0, event, (sig, 0, 0), once, [], [], [7], [[]], []⟩

theorem test_witness_EchoSteps_swapIn : ∀ k ∈ [[], [keptAt 4 7 false]],
    AtEvent (recloning [none, none, none] false k) fun la g _ =>
      crossing (recloning [none, none, none] false k) la g 2 = true ∧ g.kept = k := by
  intro k hk
  simp only [List.mem_cons, List.not_mem_nil, or_false] at hk
  rcases hk with rfl | rfl <;> exact ⟨_, _, ⟨rfl, rfl⟩, by decide +kernel⟩

/-- Two replicas at a once-performed event while a copy is on its way, with `n` events kept. -/
def keeping (n : Nat) : State :=
  recloning [some (sentAt false true 7), some (sentAt false true 7), none] false ((List.range n).map fun k => keptAt k 7 true)

theorem test_witness_EchoSteps_kept : ∀ n ∈ [1023, 1024], ∃ la g p x e, HasGang (keeping n) 0 0 la g ∧ g.clone = some (2, false) ∧
    (parties (keeping n) la g 0 0).map (fun q => (q.rep, q.sent.map (·.release))) = [(0, some false), (1, some false)] ∧
    (let ps := parties (keeping n) la g 0 0
    judge (sentSigs (bindSublists (keeping n) ps) ps) = .agree) ∧
    (parties (keeping n) la g 0 0).find? (·.rep == g.commit) = some p ∧ waitingCtx (keeping n) p.key = some x ∧
    x.w.echo = some e ∧ (g.kept.filter fun k => k.b == x.blk.b && k.w == x.w.index).length = n := by
  intro n hn
  simp only [List.mem_cons, List.not_mem_nil, or_false] at hn
  rcases hn with rfl | rfl <;> exact ⟨_, _, _, _, _, ⟨rfl, rfl⟩, rfl, by decide +kernel, by decide +kernel, rfl, rfl, rfl, by decide +kernel⟩

/-- Replica 2 has reached its event 4, a release or not, and Echo has kept one with the number and the signature given. -/
def catching (release : Bool) (event sig : Nat) : State :=
  recloning [none, none, some (sentAt release (!release) 7)] true [keptAt event sig false, keptAt (event + 1) 9 true]

theorem test_witness_EchoSteps_catchUp : ∀ q ∈ [(false, 4, 7), (false, 4, 8), (true, 5, 7)],
    AtEvent (catching q.1 q.2.1 q.2.2) fun la g _ => g.clone = some (2, true) ∧
      ∃ p e k, partyOf (catching q.1 q.2.1 q.2.2) la g 0 0 2 = some p ∧ p.sent = some e ∧ e.release = q.1 ∧
        g.kept.find? (fun k => k.b == 0 && k.w == 0) = some k ∧ k.writes = [] ∧ k.marks = [] ∧ k.once = false ∧
        (decide (k.event = e.event ∧ partySig (catching q.1 q.2.1 q.2.2) p e = k.sig) = decide (q = (false, 4, 7))) := by
  intro q hq
  simp only [List.mem_cons, List.not_mem_nil, or_false] at hq
  rcases hq with rfl | rfl | rfl <;>
    exact ⟨_, _, ⟨rfl, rfl⟩, rfl, rfl, rfl, by decide +kernel, by decide +kernel, by decide +kernel, by decide +kernel,
      rfl, _, _, _, rfl, rfl, rfl, rfl, by decide +kernel⟩

/-- The issuer runs in a launch of two replicas, and Echo has answered it or not. -/
def replicaAt (i : Instr) (commit : Nat) (e : Option EchoWait) : State :=
  (placedW i fun w => { w with echo := e }).modLaunch 0 fun l => { l with
    record := { l.record with flags := 2 }, gangs := [(0, { placedGang with cores := [[0], [160]], live := [0, 1], commit := commit })] }

theorem test_witness_EchoSteps_waits : ∀ p ∈ [(Instr.erid false 1, 0, none), (.estat false 1, 1, some (sentAt false true 7)),
      (.erid false 1, 1, some { sentAt false true 7 with granted := true }),
      (.estat false 1, 1, some { sentAt false false 7 with granted := true, vals := [9] })],
    Meets p.1 (fun _ => { wg := [1] }) (fun _ => 0) false (replicaAt p.1 p.2.1 p.2.2)
      (fun x => x.replicated = true ∧ x.w.echo = p.2.2 ∧ (p.2.1 = 1 → x.commits = false) ∧
        Binds (preIssue p.1 (replicaAt p.1 p.2.1 p.2.2)) x.asid x.w.wcl) := meets_all (by decide +kernel)

/-! ## Witnesses: siphon engines -/

/-- COPY of `n` bytes from the page at 0x80000 to the window at 0x1000, or the other way. -/
def copyDw (dram : Bool) (n : Nat) : List Word :=
  if dram then [0x1010000000000000#64, 0x1000#64, 0x80000#64, wd n, 0, 0, 0, 0]
  else [0x1040000000000000#64, 0x80000#64, 0x1000#64, wd n, 0, 0, 0, 0]

/-- A started entry at 0xC00, its data in other granules. -/
def entryOf (dw : List Word) : Entry := ⟨1, 0xC00, ⟨0xC00, 1, [], 0, 0, 0, 0⟩, false, dw, [], 0, 0, 0, 0, none, none, false, none⟩

/-- Chain 0xE00 with the entry at its head, its completion word at 0xF00; the page is writable. -/
def engined (e : Entry) : State :=
  let s := (paged (running id) 1 ⟨0x8000B#64, 0⟩).modLaunch 0 fun l => { l with record := { l.record with win := 3 } }
  { s with chains := [(0xE00, { chain0 with ga := 0xE00, cword := 0xF00, tail := 1, entries := [e], next := 2 })] }

/-- An entry is due, and a condition holds of its context. -/
def Due (s : State) (e : Entry) (P : Ctx → Prop) : Prop :=
  ∃ c x, ChunkDue s 0xE00 c e x ∧ c.entries = [e] ∧ StatusAt s 0xE00 e c x 0xC30 0xF00 ∧ P x

/-- The fields of ChunkDue that compute. -/
def dueB (s : State) (e : Entry) (P : Ctx → Prop) [DecidablePred P] : Bool :=
  match kget s.chains 0xE00 with
  | none => false
  | some c => match commitCtx s c.launch c.b, commitCtx s e.sub.launch e.sub.b with
    | some x, some y => decide (y = x ∧ c.entries.find? (·.num == e.num) = some e ∧ chainPaused s c = false ∧
        (c.detached = false ∧ c.halt = 0 ∧ x.la.cancelled = false ∧ x.replicated = false) ∧
        (e.code = 0 ∧ e.fresh = false ∧ e.disarmed = false ∧ e.ring = none ∧ e.slot = none) ∧
        (∀ d ∈ c.entries, d.num = e.num → d.filling = false) ∧
        (entKind e.dw = 1 ∨ entKind e.dw = 2 ∨ entKind e.dw = 3) ∧ mayRun x s 0xE00 c e.num = true ∧
        migrating s 0xE00 e.num = false ∧ c.entries = [e] ∧ StatusAt s 0xE00 e c x 0xC30 0xF00 ∧ P x)
    | _, _ => false

theorem due {s : State} {e : Entry} {P : Ctx → Prop} [DecidablePred P] (h : dueB s e P = true) : Due s e P := by
  unfold dueB at h
  split at h
  · cases h
  · next c hc =>
    split at h
    · next x y hx hy =>
      obtain ⟨h1, h2, h3, h4, h5, hw, h6, h7, h8, h9, h10, h11⟩ := of_decide_eq_true h
      exact ⟨c, x, ⟨hc, hx, h2, h1 ▸ hy, h3, h4, h5, hw, h6, h7, h8⟩, h9, h10, h11⟩
    · cases h

/-- The moves of the entry's next chunk. -/
def movesOf (x : Ctx) (s : State) (e : Entry) : Except Halt (List Move) :=
  chunkMoves x s e.dw (nth 0 x.lr.prins (entPidx e.dw) % 2 ^ 24) e.chunks

/-- ChunkSound as it computes. -/
def soundB (x : Ctx) (s : State) (e : Entry) (dram : Bool) : Bool :=
  match movesOf x s e with
  | .error _ => false
  | .ok ms => (match checkMoves e.ga e.ctl none ms with
    | .ok _ => true
    | .error _ => false) && decide (ms.find? (moveDamaged s) = none ∧ (∀ m ∈ ms, m.deny = none) ∧
      (∀ m ∈ ms, m.gal = dram ∧ m.dsp = (if dram then 1 else 0)) ∧
      (dram = false → ∀ m ∈ ms, ∀ p ∈ m.dst, NoneBoundAt s p.1) ∧
      (dram = true → s.hub.migrations = [] ∧ ∀ m ∈ ms, ∀ p ∈ m.dst, contained s p.1 = false))

theorem sound_chunk {x : Ctx} {s : State} {e : Entry} {dram : Bool} (h : soundB x s e dram = true) :
    ∃ ms, ChunkSound s e x ms dram := by
  unfold soundB at h
  split at h
  · cases h
  · next ms hm =>
    rw [Bool.and_eq_true] at h
    obtain ⟨h1, h2, h3, h4, h5⟩ := of_decide_eq_true h.2
    have hl : checkMoves e.ga e.ctl none ms = .ok () := by
      revert h
      cases checkMoves e.ga e.ctl none ms <;> simp
    exact ⟨ms, hm, hl, h1, h2, h3, h4, h5⟩

theorem test_witness_EngineSteps_chunk : ∀ p ∈ [(false, 4160, true), (false, 64, false), (true, 4160, true), (true, 64, false)],
    Due (engined (entryOf (copyDw p.1 p.2.1))) (entryOf (copyDw p.1 p.2.1)) fun x =>
      soundB x (engined (entryOf (copyDw p.1 p.2.1))) (entryOf (copyDw p.1 p.2.1)) p.1 = true ∧
        (1 < chunkCount (copyDw p.1 p.2.1) ↔ p.2.2 = true) := by
  intro p hp
  simp only [List.mem_cons, List.not_mem_nil, or_false] at hp
  rcases hp with rfl | rfl | rfl | rfl <;> exact due (by decide +kernel)

/-- COPY from an address that no page holds. -/
def unmapped : Entry := entryOf [0x1040000000000000#64, 0x100000#64, 0, 64, 0, 0, 0, 0]

theorem test_witness_EngineSteps_fails : Due (engined unmapped) unmapped fun x =>
    (match movesOf x (engined unmapped) unmapped with
      | .error h => decide (h.code = 0x10 ∧ h.fva = 0x100000)
      | .ok _ => false) = true := due (by decide +kernel)

/-! ## Witnesses: tiers and collectives -/

/-- A migration of page 7 of ASID 0 from frame 3 to frame 2^32, the page locked or not. -/
def migratingAt (begun locked : Bool) (pieces : Nat) : State :=
  (paged (running id) 7 ⟨0x18000B#64, if locked then 1#64 <<< 34 else 0⟩).modHub fun h => { h with
    pool1 := if begun then [] else [2 ^ 32]
    migrations := [⟨0, 7, 1, 3, if begun then 2 ^ 32 else 0, pieces, begun, 0, none⟩] }

theorem test_witness_TierSteps : ∀ p ∈ [(false, false, 0), (true, true, 2047), (true, true, 2048)],
    let s := migratingAt p.1 p.2.1 p.2.2
    ∃ g ∈ s.hub.migrations[0]?, ∃ lf ∈ smallLeaf s g.asid g.page, lf.frame = g.old ∧ lf.tag.getLsbD 34 = p.1 ∧
      g.begun = p.1 ∧ (p.1 = false → g.pieces ≠ 2048 ∧ mayMigrate s g.asid g.page g.tier = true ∧ s.hub.pool g.tier = [2 ^ 32]) ∧
      g.old ≠ g.new ∧ g.new < 2 ^ 33 ∧ g.tier < 2 ∧ g.entry = none := by decide +kernel

theorem test_witness_TierSteps_walk : ∀ p ∈ [(false, false, 0), (true, true, 2047), (true, true, 2048)],
    WalkTo (migratingAt p.1 p.2.1 p.2.2) 0 (7 * 2 ^ 19) (placedTables + 0x10000) (placedTables + 0x20000) := by
  intro p hp
  simp only [List.mem_cons, List.not_mem_nil, or_false] at hp
  rcases hp with rfl | rfl | rfl <;> exact ⟨by decide +kernel, by decide +kernel, by decide +kernel⟩

theorem test_witness_TierSteps_contained : ∀ a, contained (migratingAt true true 2047) a = false := fun _ => rfl

/-- Two ranks' parts of a BCAST from rank 0, in order of arrival rank 1 first; the second rank's count differs or not. -/
def reducing (count : Nat) (cancelled : Bool) : State :=
  let dw (n : Nat) : List Word := [0x3000000000000000#64, 0x80000#64, 0xC0000#64, wd n, 64, 1, 0, 0]
  let part (r n : Nat) : Part := ⟨0, r, 0, (dw n).set 4 (wd (64 * (r + 1))), 0, 0, 0, [], 0, false, 0, 0, none⟩
  let s := (paged (running id) 1 ⟨0x8000B#64, 0⟩).modLaunch 0 fun l =>
    { l with cancelled := cancelled }
  s.modHub fun h => { h with comms := [(0, ⟨0x8004000000000000#64, [0, 0]⟩)], parcels := [part 1 32768, part 0 count] }

theorem test_witness_CollectiveSteps_ready : ∀ n ∈ [32768, 5], let s := reducing n false
    cancelParts s 0 = [] ∧ serving s 0 = [0] ∧ (currentParts s 0).map (·.code) = [0, 0] ∧ (currentParts s 0).map (·.rank) = [1, 0] ∧
      (currentParts s 0).map (·.chunks) = [0, 0] ∧
      ((∀ q ∈ currentParts s 0, partsAgree ((currentParts s 0).headD Part.zero).dw q.dw = true) ↔ n = 32768) ∧
      s.hub.migrations = [] ∧ ∀ q ∈ currentParts s 0, 0 + 1 < collChunks q.dw ∨ n = 5 := by decide +kernel

theorem test_witness_CollectiveSteps_apart : ∀ n ∈ [32768, 5], ObjectsApart (reducing n false) (currentParts (reducing n false) 0) ∧
    ObjectsApart (reducing n true) (cancelParts (reducing n true) 0) := by decide +kernel

/-- A BCAST of five words of FP32 by two ranks, with rank 0's SRC, rank 1's DST and the label of rank 1's command. -/
def casting (src dst : Nat) (lab : Label) : State :=
  let part (r : Nat) : Part := ⟨0, r, 0, [0x3000000000000000#64, wd src, wd (if r = 0 then 0xC0000 else dst), 5, wd (64 * (r + 1)), 1, 0, 0],
    0, 0, 0, if r = 0 then [] else lab, 0, false, 0, 0, none⟩
  (paged (running id) 1 ⟨0x8000B#64, 0⟩).modHub fun h => { h with
    comms := [(0, ⟨0x8004000000000000#64, [0, 0]⟩)], parcels := [part 0, part 1] }

/-- What the chunk finds: a code of its input, else the code that each rank's part gets from its own check, 0 where it passes. -/
def castCodes (s : State) : Nat × List Nat :=
  let qs := currentParts s 0
  match takeInput s (qs.headD Part.zero) qs with
  | (_, .error c) => (c, [])
  | (s1, .ok srcs) => (0, qs.map fun q => match planOf s1 (delivered 3 q.dw 0 srcs) q with
    | .ok _ => 0
    | .error h => h.code)

theorem test_witness_CollectiveSteps_codes : ∀ p ∈ [(casting 0x80000 0xC0080 [], 0, [0, 0]), (casting 0x80000 0x100000 [], 0, [0, 0x10]),
      (casting 0x80000 0xC0080 [1, 2, 3, 4, 5, 6, 7, 8, 9], 0, [0, 0x17]), (casting 0x100000 0xC0080 [], 0x10, [])],
    castCodes p.1 = p.2 ∧ cancelParts p.1 0 = [] ∧ serving p.1 0 = [0] ∧ (currentParts p.1 0).map (·.code) = [0, 0] ∧
      (currentParts p.1 0).map (·.rank) = [0, 1] ∧ (currentParts p.1 0).map (·.die) = [0, 0] ∧
      (∀ q ∈ currentParts p.1 0, partsAgree ((currentParts p.1 0).headD Part.zero).dw q.dw = true ∧ q.chunks = 0) ∧
      p.1.hub.migrations = [] ∧ ObjectsApart p.1 (currentParts p.1 0) := by decide +kernel

theorem test_witness_CollectiveSteps_cancel : cancelParts (reducing 32768 true) 0 ≠ [] := by decide +kernel

/-! ## Witnesses: ports, the driver, reset, the mailbox and the debug block -/

/-- Port 17 in a state. -/
def portAt (state inv : Nat) (req stalled retrying : Bool) : State :=
  { State.reset with hub := { State.reset.hub with
    ports := [(17, ⟨state, 3, 5, 6, inv, req, stalled, retrying, 9, [(8191 * 4096 + 4095, [7])], [], none, 0⟩)], hostSession := retrying, asids := [(8191, { Asid.zero with valid := true })] } }

theorem test_witness_PortSteps_open : ∀ r ∈ [true, false], let p := (portAt 3 (2 ^ 44 - 1) r false r).port 17
    p.state = 3 ∧ p.stalled = false ∧ p.invocations < 2 ^ 44 ∧ p.retrying = r ∧ p.requested = r := by decide +kernel

theorem test_witness_PortSteps_labels : let s := portAt 3 0 false false false
    (s.port 17).setOf 8191 4094 = none ∧ (s.port 17).setOf 8191 4095 = some [7] ∧ Binds s 8191 [7] ∧
      ¬ Binds s 8191 [1, 2, 3, 4, 5, 6, 7, 8, 9] := by decide +kernel

theorem test_witness_PortSteps_others : ((portAt 3 (2 ^ 44) true true false).port 17).stalled = true ∧
    ((portAt 3 (2 ^ 44) true true false).port 17).requested = true ∧ ((portAt 1 0 false false false).port 17).state ≤ 1 ∧
    ((portAt 2 0 false false false).port 17).state = 2 ∧ ((portAt 4 0 false false true).port 17).state = 4 ∧
    ((portAt 4 0 false false true).asidOf 8191).valid = true ∧ (portAt 4 0 false false true).hub.hostSession = true ∧
    (portAt 4 0 false false false).hub.hostSession = false := by decide +kernel

/-- A communicator with a part queued or none, placement on or off, and partition 63 in a state. -/
def driven (busy : Bool) : State :=
  let s : State := { State.reset with launches := if busy then [(0, { placedLaunch with asid := 8191 })] else [] }
  s.modHub fun h => { h with
    comms := [(63, ⟨0, [0, 1]⟩)], parcels := if busy then [{ Part.zero with comm := 63 }] else []
    hubctl := if busy then 1 else 0, parts := [(63, { Partition.zero with state := if busy then 2 else 0 })]
    asids := [(8191, { Asid.zero with valid := true, part := 63 })] }

theorem test_witness_DriverWrites_busy : ∀ b ∈ [true, false], commBusy (driven b) 63 = b ∧ (driven b).hub.hubctl.getLsbD 0 = b ∧
    partBusy (driven b) 63 = b ∧ asidBusy (driven b) 8191 = b ∧ ((aget Comm.zero (driven b).hub.comms 63).ranks.length ≤ 64) := by
  decide +kernel

theorem test_witness_DriverWrites_values : let v := 0x8002000000000000#64 ||| (2#64 <<< 33)
    v.extractLsb' 0 33 = 0 ∧ v.getLsbD 63 = true ∧ 1 ≤ (v.extractLsb' 49 7).toNat ∧ (v.extractLsb' 49 7).toNat ≤ 64 ∧
      2 ≤ (v.extractLsb' 33 16).toNat ∧ reserved (driven false) 63 + (v.extractLsb' 33 16).toNat ≤ 256 ∧
      (0xFFFF#64).extractLsb' 0 33 ≠ 0 ∧ (0x8000000000000000#64).extractLsb' 49 7 = 0 ∧
      (0x1F8000001F800#64).extractLsb' 0 11 = 0 ∧ (0x1F8000001F800#64).extractLsb' 32 11 = 0 := by decide +kernel

theorem test_witness_ResetAndThermalStop : ∀ s, s = { State.reset with hub := { State.reset.hub with thermal := true } } →
    s.hub.thermal = true ∧ s.agenda.head? ≠ some (.device .moduleReset) := by rintro _ rfl; decide +kernel

/-- A mailbox request for an address space that exists or not: SECURE or not, with a session or not. -/
def asking (dws : List Word) (a : Asid) : State :=
  { State.reset with hub := { State.reset.hub with
    asids := [(5, a)], pool1 := [9], mailbox := ⟨(dws.zipIdx.foldl (fun t p => aset 0 t p.2 p.1) []), [], 0, true⟩ } }

/-- Page tables of ASID 5: the pointers that lead to a table of level 2 and one of level 3, and a page at 7 * 2^19. -/
def tabled (s : State) : State :=
  ((s.setPte 0 0 ⟨wd (0x10000 + 1), 0⟩).setPte 0x10000 0 ⟨wd (0x20000 + 1), 0⟩).setPte 0x20000 7 ⟨0x18000B#64, 1⟩

/-- Dword 0 of a request for ASID 5. -/
def head5 (cmd : Nat) : Word := wd (cmd + 5 * 256)

/-- An address space with the label table {1}. -/
def space (valid secure : Bool) : Asid :=
  { Asid.zero with valid := valid, secure := secure, labels := [(1, [1])] }

theorem test_witness_MailboxAndDebug_refusals : ∀ c ∈ [2, 3, 4, 5, 6, 7, 8, 9], Asks (asking [head5 c] (space false false)) c ∧
    ((asking [head5 c] (space false false)).asidOf 5).valid = false ∧
    ((reqDw (asking [head5 c] (space true true)) 0).extractLsb' 21 43 = 0 ∧ ((asking [head5 c] (space true true)).asidOf 5).valid = true ∧
      ((asking [head5 c] (space true true)).asidOf 5).secure = true ∧ ((asking [head5 c] (space true true)).asidOf 5).session = false) := by
  decide +kernel

theorem test_witness_MailboxAndDebug_asids : (let s := asking [head5 1, 1] (space false false)
    Asks s 1 ∧ (reqDw s 0).extractLsb' 21 43 = 0 ∧ ((reqDw s 0).extractLsb' 8 13).toNat = 5 ∧ (s.asidOf 5).valid = false ∧
      (reqDw s 1).extractLsb' 1 63 = 0) ∧ Asks (asking [head5 2] (space true false)) 2 ∧
    asidBusy (asking [head5 2] (space true false)) 5 = false ∧
    asidBusy { asking [head5 2] (space true false) with launches := [(0, { placedLaunch with asid := 5 })] } 5 = true := by decide +kernel

theorem test_witness_MailboxAndDebug_lhandle : (let s := asking [head5 3, 7, 0, wd (1 * 2 ^ 32)] (space true false)
    Asks s 3 ∧ reqOwners s = some [7] ∧ Binds s 5 [7]) ∧
    reqOwners (asking [head5 3, 7, 0, wd (9 * 2 ^ 32)] (space true false)) = none := by decide +kernel

theorem pageApart_of {s : State} {a va sh t u : Nat} (ht : table2 s a va = some t) (hu : s.below t (ix2 va) = some u)
    (h1 : ∀ e, u / 16 + ix3 va ≤ e → e < u / 16 + ix3 va + 2 ^ (sh - 19) → e ≠ s.rootOf a / 16 + ix1 va ∧ e ≠ t / 16 + ix2 va)
    (h2 : t / 16 + ix2 va ≠ s.rootOf a / 16 + ix1 va) : PageApart s a va sh := by
  rintro e ⟨t', ht', he⟩
  obtain rfl := Option.some.inj (ht.symm.trans ht')
  split at he
  · next h => subst he; exact ⟨h2, fun h' => absurd h h'⟩
  · obtain ⟨u', hu', h3, h4⟩ := he
    obtain rfl := Option.some.inj (hu.symm.trans hu')
    have := h1 e h3 h4
    exact ⟨this.1, fun _ t' ht' => by obtain rfl := Option.some.inj (ht.symm.trans ht'); exact this.2⟩

/-- MAP of a page of a size at 0: its tables are there, or not. -/
def mapping (ty : Nat) : State := asking [head5 4, 0, wd (2 ^ 30 + 8 * ty + 3), 1] (space true false)

theorem test_witness_MailboxAndDebug_map : ∀ c ∈ [(1, 19), (2, 25), (3, 30)],
    let s := mapping c.1
    let lf : Leaf := ⟨reqDw s 2, reqDw s 3⟩
    Asks s 4 ∧ (lf.dw.extractLsb' 3 2).toNat = c.1 ∧ leafOk lf c.1 c.2 = true ∧ (reqDw s 1).toNat < 2 ^ 52 ∧
      (reqDw s 1).toNat % 2 ^ c.2 = 0 ∧ otherSize s 5 (reqDw s 1).toNat c.2 = false ∧ lf.tag.getLsbD 34 = false ∧
      setOf (s.asidOf 5).labels (lf.tag.extractLsb' 0 12).toNat ≠ none ∧ ∀ f ∈ pageFrames lf.frame c.2, frameHeld s f = false := by
  decide +kernel

theorem test_witness_MailboxAndDebug_map_apart : ∀ c ∈ [(1, 19), (2, 25), (3, 30)], PageApart (mapping c.1) 5 0 c.2 := by
  have none_yet : ∀ c ∈ [(1, 19), (2, 25), (3, 30)], table2 (mapping c.1) 5 0 = none := by
    decide +kernel
  intro c hc e he
  obtain ⟨t, ht, -⟩ := he
  rw [none_yet c hc] at ht
  cases ht

/-- MAP of the 512 KiB page at 6 * 2^19, whose tables are linked already: it needs no place. -/
def mappingBeside : State := tabled (asking [head5 4, wd (6 * 2 ^ 19), wd (2 ^ 30 + 8 + 3), 1] (space true false))

theorem test_witness_MailboxAndDebug_map_put : let s := mappingBeside
    let lf : Leaf := ⟨reqDw s 2, reqDw s 3⟩
    Asks s 4 ∧ leafOk lf 1 19 = true ∧ otherSize s 5 (6 * 2 ^ 19) 19 = false ∧ (∀ f ∈ pageFrames lf.frame 19, frameHeld s f = false) ∧
      (putLeaf s 5 (6 * 2 ^ 19) 19 lf).isSome = true := by decide +kernel

theorem test_witness_MailboxAndDebug_map_put_apart : PageApart mappingBeside 5 (6 * 2 ^ 19) 19 :=
  pageApart_of (t := 0x10000) (u := 0x20000) (by decide +kernel) (by decide +kernel) (fun e h1 h2 => by
    have a : ix3 (6 * 2 ^ 19) = 6 ∧ ix1 (6 * 2 ^ 19) = 0 ∧ ix2 (6 * 2 ^ 19) = 0 ∧ mappingBeside.rootOf 5 = 0 := by decide +kernel
    simp only [a] at h1 h2 ⊢
    omega) (by decide +kernel)

/-- A request about the page at 7 * 2^19. -/
def aboutPage (cmd : Nat) : State := tabled (asking [head5 cmd, wd (7 * 2 ^ 19), 0, 1] (space true false))

theorem test_witness_MailboxAndDebug_pages : ∀ c ∈ [5, 6], let s := aboutPage c
    Asks s c ∧ leafAt s 5 (reqDw s 1).toNat = some (⟨0x18000B#64, 1⟩, 19) ∧ (reqDw s 1).toNat % 2 ^ 19 = 0 ∧
      (reqDw s 3).extractLsb' 37 27 = 0 ∧ setOf (s.asidOf 5).labels ((reqDw s 3).extractLsb' 0 12).toNat ≠ none ∧
      leafAt s 5 0 = none := by decide +kernel

theorem test_witness_MailboxAndDebug_pages_apart : ∀ c ∈ [5, 6], PageApart (aboutPage c) 5 (7 * 2 ^ 19) 19 := by
  intro c hc
  simp only [List.mem_cons, List.not_mem_nil, or_false] at hc
  rcases hc with rfl | rfl <;>
    exact pageApart_of (t := 0x10000) (u := 0x20000) (by decide +kernel) (by decide +kernel) (fun e h1 h2 => by
      have a : ix3 (7 * 2 ^ 19) = 7 ∧ ix1 (7 * 2 ^ 19) = 0 ∧ ix2 (7 * 2 ^ 19) = 0 ∧ (aboutPage 5).rootOf 5 = 0 ∧
        (aboutPage 6).rootOf 5 = 0 := by decide +kernel
      simp only [a] at h1 h2 ⊢
      omega) (by decide +kernel)

theorem test_witness_MailboxAndDebug_tables : Asks (asking [head5 7, wd (3 + 2 ^ 32), 9] (space true false)) 7 ∧
    reqBits (asking [head5 7, wd (3 + 2 ^ 32), 9] (space true false)) 128 24 = 9 ∧
    Asks (asking [head5 8, wd (16 + 2 ^ 16), 1, wd (4 + 6 * 2 ^ 20)] (space true false)) 8 ∧
    reqBits (asking [head5 8, wd (16 + 2 ^ 16), 1, wd (4 + 6 * 2 ^ 20)] (space true false)) 192 20 = 4 ∧
    reqBits (asking [head5 8, wd (16 + 2 ^ 16), 1, wd (4 + 6 * 2 ^ 20)] (space true false)) 212 24 = 6 ∧
    Asks (asking [head5 9] (space true true)) 9 ∧ (asking [head5 9] (space true true)).hub.rngOff = false := by decide +kernel

theorem test_witness_MailboxAndDebug_pools : (let s := tabled (asking [0x0A, wd (1 + 8 * 2 ^ 19)] (space true false))
    Asks s 0x0A ∧ frameMapped s 8 = false ∧ frameHeld s 8 = false ∧ frameMapped s 3 = true ∧ frameHeld s 9 = true) ∧
    (let s := asking [0x0B, wd (1 + 9 * 2 ^ 19)] (space true false)
     Asks s 0x0B ∧ 9 ∈ s.hub.pool 1 ∧ ¬ ∃ m ∈ s.hub.migrations, m.begun = true ∧ (m.new = 9 ∨ m.old = 9)) ∧
    (2#64).extractLsb' 0 2 = 2 := by decide +kernel

/-- The warp has halted in an address space with DBG or not; a debug command selects it. -/
def debugged (dbg : Bool) (item r l : Nat) : State :=
  let s := (running fun w => { w with run := none, status := .halted, haltPc := wd codeVa }).modAsid 0 fun a => { a with dbg := dbg }
  s.modHub fun h => { h with debugBlock := ⟨0, wd (item * 4096 + r * 64 + l), 77, 0, 0, [(1, 2)], [(3, 4)]⟩ }

theorem test_witness_MailboxAndDebug_halted : ∀ d ∈ [true, false], ∀ p ∈ [(0, 63), (1, 63), (2, 7), (3, 7), (4, 0x3F), (5, 0), (6, 0)],
    Seen (debugged d p.1 p.2 31) 0 fun x => x.w.status = .halted ∧ ((debugged d p.1 p.2 31).asidOf x.asid).dbg = d ∧
      ((debugged d p.1 p.2 31).hub.debugBlock.dreg.extractLsb' 12 4).toNat = p.1 ∧ ((debugged d p.1 p.2 31).hub.debugBlock.dreg.extractLsb' 6 6).toNat = p.2 ∧
      ((debugged d p.1 p.2 31).core x.core).frozen = false := by
  intro d hd p hp
  simp only [List.mem_cons, List.not_mem_nil, or_false] at hd hp
  rcases hd with rfl | rfl <;> rcases hp with rfl | rfl | rfl | rfl | rfl | rfl | rfl <;> exact seen (by decide +kernel)

/-! ## Witnesses: the whole machine -/

theorem test_witness_DecodeEncode : wellFormed (.clauseHeader 0x009 1 2 1) = true ∧
    encode (.clauseHeader 0x009 1 2 1) = some 0xBF804894#32 ∧ decode 0xBF804894#32 = some (.clauseHeader 0x009 1 2 1) := by decide +kernel

theorem test_witness_StepRunsDecoded_clause : let u := { placed (.gadd false 1 2 3) with agenda := [] }
    (placed (.gadd false 1 2 3)).agenda = [.issue 0 0] ∧ (placed (.gadd false 1 2 3)).hub.thermal = false ∧
    quadPick u 0 0 = some 0 ∧ (u.warp 0).any (·.canIssue) = true ∧ (dev u 0).isSome = true ∧
      ((u.warp 0).bind (·.run)).bind (fun r => (r.words[(r.pos - r.hdr).toNat / 4]?).bind decode) = some (.gadd false 1 2 3) := by
  decide +kernel

/-- Warp 8 of the core shares the quadrant with nobody; warp 1's turn is not warp 0's. -/
theorem test_witness_StepRunsDecoded_other :
    let u := (placed (.gadd false 1 2 3)).setWarp 1 (placedWarp (placedWords 0) false)
    (∃ w ∈ u.warp 1, w.canIssue = true) ∧ (dev u 1).isSome = true ∧ quadPick u 0 0 ≠ some 1 := by decide +kernel

theorem test_witness_StepRunsDecoded_header : let u := { placed (.clauseHeader 0 0 1 1) with agenda := [] }
    (placed (.clauseHeader 0 0 1 1)).agenda = [.issue 0 0] ∧ quadPick u 0 0 = some 0 ∧
    (∃ w ∈ u.warp 0, w.canIssue = true ∧ w.run = none ∧ ∃ g ∈ w.group, ∃ p ∈ Machine.translate u 0 g.1.toNat, leafX p.2 = true ∧
      decode (BitVec.ofNat 32 (readNum u.mem.dram p.1 4)) = some (.clauseHeader 0 0 1 1)) ∧ (dev u 0).isSome = true := by decide +kernel

/-- No controller is contained. -/
theorem test_witness_StepRunsDecoded_whole : ∀ a, contained { placed (.clauseHeader 0 0 1 1) with agenda := [] } a = false := fun _ => rfl

theorem test_witness_StepRunsDecoded_settled : (∀ p ∈ (placed (.nop false)).hub.parts, p.2.state ≠ 2) ∧
    ∀ p ∈ (placed (.nop false)).launches, p.2.cancelled = true → p.2.completed ≠ none := by decide +kernel

theorem test_witness_StepKeepsMemory : MemoryInv State.reset ∧ ∃ t, step State.reset = .next t := by
  refine ⟨⟨by unfold memoryOk; decide +kernel, by decide +kernel, by decide +kernel⟩, ?_⟩
  have h : (match step State.reset with
    | .next _ => true
    | _ => false) = true := by decide +kernel
  revert h
  cases step State.reset with
  | next t => exact fun _ => ⟨t, rfl⟩
  | _ => simp

end Sys2Proof.Tests
end

section
/-! SUPPORT. The result of an instruction that only writes registers, said once for each register file: an instruction that is
ready, is no flush point and whose body writes one register completes, and its statement holds. -/
namespace Sys2Proof.Machine
open Claim

/-! ## Issue of an instruction that is no flush point -/

theorem preIssue_of_not_flushPoint {i : Instr} (hp : flushPoint i = false) (s : State) : preIssue i s = s := by
  simp [preIssue, hp]

/-- The warp that a ready instruction issues from stands in the state as it is. -/
theorem Ready.issuerOf_eq {i : Instr} {u : Uses} {act : Mask} {s : State} {x : Ctx} (hr : Ready i u act false s x)
    (hp : flushPoint i = false) : issuerOf s = some x := by
  have := hr.issuer
  rwa [preIssue_of_not_flushPoint hp] at this

theorem guardLanes_eq {s : State} {x : Ctx} (h : issuerOf s = some x) (g : BitVec 3) :
    guardLanes s g.toNat = activeLanes x g := by
  simp only [guardLanes, h, activeLanes]

theorem groupLanes_eq {s : State} {x : Ctx} (h : issuerOf s = some x) : groupLanes s = x.grp := by
  simp only [groupLanes, h]

/-- A ready instruction whose body answers a state with other registers alone completes with those registers. -/
theorem issue_of_regsWritten {i : Instr} {u : Uses} {act : Mask} {body : Body} {s t : State} {x : Ctx} {q : WRegs}
    (hp : flushPoint i = false) (hr : Ready i u act false s x) (hb : body { x with uses := u } s = .ok t)
    (ht : RegsWritten x s t q) :
    ∃ t', issue i u act body s = .next t' ∧ t'.q = q ∧ Kept i x.w t'.w ∧ Beside (preIssue i s) t' := by
  obtain ⟨hwk, -, hrun, -⟩ := issuerOf_spec (hr.issuerOf_eq hp)
  obtain ⟨hw, hbeside⟩ := ht
  have hcur : x.wk = t.cur := hwk.trans hbeside.cur.symm
  have hs := preIssue_of_not_flushPoint hp s
  obtain ⟨hkept, hq⟩ := kept_finish (i := i) hrun hcur hw
  refine ⟨finish i false x t, issueWith_next hr (hs.symm ▸ hb), hq, hkept, ?_⟩
  exact hs.symm ▸ hbeside.trans (beside_finish hcur)

/-! ## One rule for each register file -/

section
variable {i : Instr} {u : Uses} {act : Mask} {body : Body} {s : State} {x : Ctx} {d : Nat}

/-- An instruction whose body writes G[d]. -/
theorem writesG_of_body {v : Word} {ls : List Label} (he : exec i s = issue i u act body s) (hp : flushPoint i = false)
    (hr : Ready i u act false s x) (hl : Binds s x.asid (joinAll ls))
    (hb : body { x with uses := u } s = writeG { x with uses := u } s d v (joinAll ls)) : WritesG i s x d v ls := by
  obtain ⟨hwk, hw, -⟩ := issuerOf_spec (hr.issuerOf_eq hp)
  obtain ⟨t, ht, hregs⟩ := writeG_ok (x := { x with uses := u }) (d := d) (v := v) hw hwk hl
  obtain ⟨t', hnext, hq, hkept, hbeside⟩ := issue_of_regsWritten hp hr (hb.trans ht) hregs
  refine ⟨t', he.trans hnext, ?_, ?_, ?_, hkept, hbeside⟩ <;> rw [hq]
  · exact WRegs.getG_setG_same ..
  · rw [WRegs.labG_setG_same]; exact isJoin_joinAll ls
  · exact onlyG_setG ..

variable {lanes : Mask} {ls : Nat → List Label}

/-- The labels that fit hold at most eight owners each, and can be bound one after the other. -/
theorem labelsFit_results {β : Type} (val : Nat → β) (h : LabelsFit x s lanes ls) :
    (∀ r ∈ (lanesOf lanes).map fun l => (l, val l, joinAll (ls l)), r.2.2.length ≤ Config.maxOwners) ∧
      BindsAll s x.asid (((lanesOf lanes).map fun l => (l, val l, joinAll (ls l))).map (·.2.2)) := by
  obtain ⟨hlen, hbind⟩ := h
  refine ⟨fun r hr => ?_, by simpa [Function.comp_def] using hbind⟩
  obtain ⟨l, hl, rfl⟩ := List.mem_map.1 hr
  have hlane := mem_lanesOf.1 hl
  exact hlen l (BitVec.lt_of_getLsbD hlane) hlane

/-- An instruction whose body writes V[d] in some lanes. -/
theorem writesV_of_body {val : Nat → Word} {ok : Nat → Word → Prop} (he : exec i s = issue i u act body s)
    (hp : flushPoint i = false) (hr : Ready i u act false s x) (hl : LabelsFit x s lanes ls)
    (hb : body { x with uses := u } s =
      writeV { x with uses := u } s d ((lanesOf lanes).map fun l => (l, val l, joinAll (ls l))))
    (hok : ∀ l, lanes.getLsbD l = true → ok l (val l)) : WritesV i s x d lanes ok ls := by
  obtain ⟨hwk, hw, -⟩ := issuerOf_spec (hr.issuerOf_eq hp)
  obtain ⟨hlen, hbind⟩ := labelsFit_results val hl
  obtain ⟨t, ht, hregs⟩ := writeV_ok (x := { x with uses := u }) (d := d) hw hwk hlen hbind
  obtain ⟨t', hnext, hq, hkept, hbeside⟩ := issue_of_regsWritten hp hr (hb.trans ht) hregs
  obtain ⟨hval, honly⟩ := foldl_setV x.w.regs d lanes val fun l => joinAll (ls l)
  refine ⟨t', he.trans hnext, fun l hlane => ?_, hq ▸ honly, hkept, hbeside⟩
  rw [hq, (hval l hlane).1, (hval l hlane).2]
  exact ⟨hok l hlane, isJoin_joinAll _⟩

/-- An instruction whose body writes P[d] in some lanes. -/
theorem writesP_of_body {val : Nat → Bool} (he : exec i s = issue i u act body s)
    (hp : flushPoint i = false) (hr : Ready i u act false s x) (hl : LabelsFit x s lanes ls)
    (hb : body { x with uses := u } s =
      writeP { x with uses := u } s d ((lanesOf lanes).map fun l => (l, val l, joinAll (ls l)))) :
    WritesP i s x d lanes val ls := by
  obtain ⟨hwk, hw, -⟩ := issuerOf_spec (hr.issuerOf_eq hp)
  obtain ⟨hlen, hbind⟩ := labelsFit_results val hl
  obtain ⟨t, ht, hregs⟩ := writeP_ok (x := { x with uses := u }) (d := d) hw hwk hlen hbind
  obtain ⟨t', hnext, hq, hkept, hbeside⟩ := issue_of_regsWritten hp hr (hb.trans ht) hregs
  obtain ⟨hval, honly⟩ := foldl_setP x.w.regs d lanes val fun l => joinAll (ls l)
  refine ⟨t', he.trans hnext, fun hd l hlane => ?_, hq ▸ honly, hkept, hbeside⟩
  rw [hq, (hval hd l hlane).1, (hval hd l hlane).2]
  exact ⟨rfl, isJoin_joinAll _⟩

/-! ## The operand forms of R77 and R78 -/

/-- A uniform instruction (R78). -/
theorem writesG_of_gOp {srcs : List Nat} {f : (Nat → Word) → Word} (he : exec i s = gOp i srcs d f s)
    (hp : flushPoint i = false) (hr : Ready i (gUses srcs d) allLanes false s x)
    (hl : Binds s x.asid (joinAll (gLabels x srcs))) :
    WritesG i s x d (f x.w.regs.getG) (gLabels x srcs) :=
  writesG_of_body he hp hr hl rfl

variable {g : BitVec 3} {ok : Nat → Word → Prop}

/-- A guarded per-lane instruction over some V sources (R77). -/
theorem writesV_of_laneOp {srcs : List Nat} {val : Ctx → Nat → Word}
    (he : exec i s = issue i (vUses g srcs d) (guardLanes s g.toNat)
      (fun x s => laneOp x s g.toNat d srcs (val x)) s)
    (hp : flushPoint i = false) (hr : Ready i (vUses g srcs d) (activeLanes x g) false s x)
    (hl : LabelsFit x s (activeLanes x g) (vLabels x g srcs))
    (hok : ∀ l, ok l (val { x with uses := vUses g srcs d } l)) :
    WritesV i s x d (activeLanes x g) ok (vLabels x g srcs) := by
  rw [guardLanes_eq (hr.issuerOf_eq hp)] at he
  exact writesV_of_body he hp hr hl rfl fun l _ => hok l

end

end Sys2Proof.Machine
end

section
/-! SUPPORT. The numbers that 04_integer.md speaks of: signed readings of a width, what a dword made from numbers reads as, and the
element functions of the model as R82 to R107 state them, shared by the uniform and the per-lane instructions. -/
namespace Sys2Proof.Machine
open Claim

/-! ## Signed readings -/

/-- The powers of two of a width, as integers: the half range and the range. -/
theorem two_pow_width {n : Nat} (hn : 0 < n) :
    2 ^ (n - 1) * 2 = 2 ^ n ∧ ((2 ^ (n - 1) : Nat) : Int) = 2 ^ (n - 1) ∧ ((2 ^ n : Nat) : Int) = 2 ^ n :=
  ⟨Nat.two_pow_pred_mul_two hn, by push_cast; rfl, by push_cast; rfl⟩

/-- A signed reading of `n` bits is the library's balanced remainder. -/
theorem sval_eq_bmod {n : Nat} (hn : 0 < n) (x : Nat) : sval n x = (x : Int).bmod (2 ^ n) := by
  obtain ⟨hhalf, -, hfull⟩ := two_pow_width hn
  rw [Int.bmod_def]
  simp only [sval, ← hfull, ← Int.natCast_emod]
  split <;> split <;> omega

theorem sval_lt {n : Nat} (hn : 0 < n) (x : Nat) : sval n x < 2 ^ (n - 1) := by
  obtain ⟨hhalf, hcast, hfull⟩ := two_pow_width hn
  have := Nat.mod_lt x (Nat.two_pow_pos n)
  simp only [sval]
  split <;> omega

theorem le_sval {n : Nat} (hn : 0 < n) (x : Nat) : -(2 ^ (n - 1)) ≤ sval n x := by
  obtain ⟨hhalf, hcast, hfull⟩ := two_pow_width hn
  simp only [sval]
  split <;> omega

/-- The reading depends on the low `n` bits alone. -/
@[simp] theorem sval_mod (n x : Nat) : sval n (x % 2 ^ n) = sval n x := by simp [sval]

theorem wrap_lt (n : Nat) (i : Int) : wrap n i < 2 ^ n := by
  have := Int.emod_lt_of_pos i (b := (2 ^ n : Nat)) (by positivity)
  have := Int.emod_nonneg i (b := (2 ^ n : Nat)) (by positivity)
  unfold wrap
  omega

/-- An integer that `n` signed bits hold is read back from its remainder. -/
theorem sval_wrap {n : Nat} (hn : 0 < n) {i : Int} (hlo : -(2 ^ (n - 1)) ≤ i) (hhi : i < 2 ^ (n - 1)) :
    sval n (wrap n i) = i := by
  obtain ⟨hhalf, hcast, -⟩ := two_pow_width hn
  have hnn := Int.emod_nonneg i (b := (2 ^ n : Nat)) (by positivity)
  rw [sval_eq_bmod hn, wrap, Int.toNat_of_nonneg hnn, Int.emod_bmod]
  exact Int.bmod_eq_of_le (by omega) (by omega)

/-- On the whole of a bit vector the reading is the library's. -/
theorem sval_toNat {n : Nat} (hn : 0 < n) (x : BitVec n) : sval n x.toNat = x.toInt := by
  rw [sval_eq_bmod hn, BitVec.toInt_eq_toNat_bmod]

/-! ## Numbers as dwords -/

@[simp] theorem toNat_wd (n : Nat) : (wd n).toNat = n % 2 ^ 64 := rfl

theorem wd_toNat (x : Word) : wd x.toNat = x := (BitVec.ofNat_toNat 64 x).trans (BitVec.setWidth_eq x)

theorem getLsbD_wd (n k : Nat) : (wd n).getLsbD k = (decide (k < 64) && n.testBit k) := by
  simp [wd, BitVec.getLsbD_ofNat]

/-- A dword is the one made from an integer that wraps to its signed value. -/
theorem wi_eq_of_bmod_eq {i : Int} {x : Word} (h : i.bmod (2 ^ 64) = x.toInt) : wi i = x :=
  BitVec.eq_of_toInt_eq (by rw [wi, BitVec.toInt_ofInt, h])

/-! ## Elements of a dword (R16) -/

theorem elemOf_lt (n k : Nat) (x : Word) : elemOf n k x < 2 ^ n := Nat.mod_lt _ (Nat.two_pow_pos n)

theorem packElems_lt (n : Nat) (es : List Nat) : packElems n es < 2 ^ (n * es.length) := by
  induction es with
  | nil => simp [packElems]
  | cons e es ih =>
    have he := Nat.mod_lt e (Nat.two_pow_pos n)
    have hstep : 2 ^ (n * (e :: es).length) = 2 ^ n * 2 ^ (n * es.length) := by
      rw [← Nat.pow_add, List.length_cons]; congr 1; ring
    have := Nat.mul_le_mul_left (2 ^ n) (Nat.succ_le_of_lt ih)
    rw [hstep, packElems]
    calc e % 2 ^ n + 2 ^ n * packElems n es < 2 ^ n + 2 ^ n * packElems n es := by omega
      _ = 2 ^ n * (packElems n es).succ := by rw [Nat.mul_succ]; omega
      _ ≤ 2 ^ n * 2 ^ (n * es.length) := this

theorem packElems_digit (n : Nat) {es : List Nat} {k : Nat} (hk : k < es.length) :
    packElems n es / 2 ^ (n * k) % 2 ^ n = es[k] % 2 ^ n := by
  induction es generalizing k with
  | nil => simp at hk
  | cons e es ih =>
    have he := Nat.mod_lt e (Nat.two_pow_pos n)
    cases k with
    | zero => simp [packElems]
    | succ k =>
      have hhead : (e % 2 ^ n + 2 ^ n * packElems n es) / 2 ^ n = packElems n es := by
        rw [Nat.add_mul_div_left _ _ (Nat.two_pow_pos n), Nat.div_eq_of_lt he, Nat.zero_add]
      rw [packElems, Nat.mul_succ, Nat.add_comm (n * k), Nat.pow_add, ← Nat.div_div_eq_div_mul, hhead]
      exact ih (Nat.lt_of_succ_lt_succ hk)

/-- An element of a dword whose elements are listed. -/
theorem elemOf_wd_packElems {n : Nat} {es : List Nat} (hfit : n * es.length ≤ 64) {k : Nat} (hk : k < es.length) :
    elemOf n k (wd (packElems n es)) = es[k] % 2 ^ n := by
  have hlt : packElems n es < 2 ^ 64 := (packElems_lt n es).trans_le (Nat.pow_le_pow_right (by omega) hfit)
  rw [elemOf, toNat_wd, Nat.mod_eq_of_lt hlt, packElems_digit n hk]

/-- An element of a dword made element by element. -/
theorem elemOf_wd_packElems_range {n m : Nat} (hfit : n * m ≤ 64) (f : Nat → Nat) {k : Nat} (hk : k < m) :
    elemOf n k (wd (packElems n ((List.range m).map f))) = f k % 2 ^ n := by
  rw [elemOf_wd_packElems (by simpa using hfit) (by simpa using hk)]
  simp

section
variable {n k : Nat} (hk : k < 64 / n)
include hk

theorem elemOf_mapElems (f : Nat → Nat) (x : Word) : elemOf n k (mapElems n f x) = f (elemOf n k x) % 2 ^ n :=
  elemOf_wd_packElems_range (Nat.mul_div_le 64 n) (fun k => f (elemOf n k x)) hk

theorem elemOf_zipElems (f : Nat → Nat → Nat) (x y : Word) :
    elemOf n k (zipElems n f x y) = f (elemOf n k x) (elemOf n k y) % 2 ^ n :=
  elemOf_wd_packElems_range (Nat.mul_div_le 64 n) (fun k => f (elemOf n k x) (elemOf n k y)) hk

theorem elemOf_zip3Elems (f : Nat → Nat → Nat → Nat) (v x y : Word) :
    elemOf n k (zip3Elems n f v x y) = f (elemOf n k v) (elemOf n k x) (elemOf n k y) % 2 ^ n :=
  elemOf_wd_packElems_range (Nat.mul_div_le 64 n) (fun k => f (elemOf n k v) (elemOf n k x) (elemOf n k y)) hk

end

theorem widthOf_pos (w : BitVec 2) : 0 < widthOf w := by unfold widthOf; positivity

/-! ## Saturation (R96) -/

theorem clampI_eq (lo hi i : Int) (h : lo ≤ hi) : clampI lo hi i = max lo (min hi i) := by
  unfold clampI
  split
  · omega
  · split <;> omega

theorem sval_satS {n : Nat} (hn : 0 < n) (i : Int) : sval n (satS n i) = nearestS n i := by
  obtain ⟨-, hcast, -⟩ := two_pow_width hn
  have hpos := Nat.two_pow_pos (n - 1)
  have hclamp : clampI (-(2 ^ (n - 1) : Nat)) ((2 ^ (n - 1) : Nat) - 1) i = nearestS n i := by
    rw [clampI_eq _ _ _ (by omega), hcast, nearestS]
  rw [satS, hclamp]
  apply sval_wrap hn <;> unfold nearestS <;> omega

theorem satZ_add (n x y : Nat) : satZ n ((x : Int) + y) = min (2 ^ n - 1) (x + y) := by
  have := Nat.two_pow_pos n
  rw [satZ, clampI_eq _ _ _ (by omega)]
  omega

theorem satZ_sub {n x : Nat} (hx : x < 2 ^ n) (y : Nat) : satZ n ((x : Int) - y) = x - y := by
  rw [satZ, clampI_eq _ _ _ (by omega)]
  omega

/-! ## Products, quotients and shifts (R97, R100) -/

/-- The high half of a signed product fits the width. -/
theorem sval_wrap_mulh {n : Nat} (hn : 0 < n) (x y : Nat) :
    sval n (wrap n (sval n x * sval n y / (2 ^ n : Nat))) = sval n x * sval n y / 2 ^ n := by
  obtain ⟨hhalf, hcast, hfull⟩ := two_pow_width hn
  have hx := le_sval hn x
  have hx' := sval_lt hn x
  have hy := le_sval hn y
  have hy' := sval_lt hn y
  have hpos : (0 : Int) < 2 ^ (n - 1) := by positivity
  have hdouble : (2 : Int) ^ n = 2 ^ (n - 1) * 2 := by omega
  rw [hfull]
  refine sval_wrap hn (Int.le_ediv_of_mul_le (by positivity) ?_) (Int.ediv_lt_of_lt_mul (by positivity) ?_) <;>
    rw [hdouble] <;> generalize (2 : Int) ^ (n - 1) = h at * <;> nlinarith

/-- Dividing by a positive number keeps a signed range. -/
theorem ediv_mem_range {h s d : Int} (hlo : -h ≤ s) (hhi : s < h) (hd : 0 < d) : -h ≤ s / d ∧ s / d < h :=
  ⟨Int.le_ediv_of_mul_le hd (by nlinarith), Int.ediv_lt_of_lt_mul hd (by nlinarith)⟩

theorem sval_sarN {n : Nat} (hn : 0 < n) (x k : Nat) :
    sval n (sarN n x k) = if k < n then sval n x / 2 ^ k else if sval n x < 0 then -1 else 0 := by
  have hlo := le_sval hn x
  have hhi := sval_lt hn x
  obtain ⟨hdlo, hdhi⟩ := ediv_mem_range hlo hhi (d := ((2 ^ min k n : Nat) : Int)) (by positivity)
  rw [sarN, sval_wrap hn hdlo hdhi]
  split
  next hk => rw [Nat.min_eq_left hk.le]; push_cast; rfl
  next hk =>
    obtain ⟨hhalf, hcast, hfull⟩ := two_pow_width hn
    rw [Nat.min_eq_right (not_lt.1 hk)]
    split
    next hneg =>
      have := Int.le_ediv_of_mul_le (a := -1) (b := sval n x) (c := (2 ^ n : Nat)) (by positivity) (by omega)
      have := Int.ediv_lt_of_lt_mul (a := sval n x) (b := 0) (c := (2 ^ n : Nat)) (by positivity) (by omega)
      omega
    next hnonneg => exact Int.ediv_eq_zero_of_lt (not_lt.1 hnonneg) (by omega)

/-! ## Bit counts (R87, R107) -/

/-- The number of leading zeros of a number of `n` bits. -/
theorem clz_spec {n x : Nat} (hx : x < 2 ^ n) :
    clz n x ≤ n ∧ x < 2 ^ (n - clz n x) ∧ (clz n x < n → 2 ^ (n - clz n x - 1) ≤ x) := by
  unfold clz
  rw [Nat.mod_eq_of_lt hx]
  split
  next h => subst h; simp
  next h =>
    have hlog : Nat.log2 x < n := (Nat.log2_lt h).2 hx
    have hlen : n - (n - 1 - Nat.log2 x) = Nat.log2 x + 1 := by omega
    rw [hlen]
    exact ⟨by omega, Nat.lt_log2_self, fun _ => Nat.log2_self_le h⟩

theorem popcount_eq_countP (n x : Nat) : popcount n x = (List.range n).countP fun j => x.testBit j := by
  induction n generalizing x with
  | zero => rfl
  | succ n ih =>
    rw [popcount, ih, List.range_succ_eq_map, List.countP_cons, List.countP_map]
    simp only [Function.comp_def, Nat.testBit_succ, Nat.testBit_zero]
    rcases Nat.mod_two_eq_zero_or_one x with h | h <;> simp [h, Nat.add_comm]

end Sys2Proof.Machine
end

section
/-! SUPPORT. The values of the uniform instructions (R82 to R93), each as the chapter states it, and the
statement about them. -/
namespace Sys2Proof.Machine
open Claim

/-! ## Products and quotients (R82, R83) -/

theorem wi_mulh (x y : Word) :
    wi (x.toInt * y.toInt / 2 ^ 64) = (x.signExtend 128 * y.signExtend 128).extractLsb' 64 64 := by
  have hprod : x.signExtend 128 * y.signExtend 128 = BitVec.ofInt 128 (x.toInt * y.toInt) := by
    rw [BitVec.ofInt_mul]; rfl
  apply BitVec.eq_of_toNat_eq
  rw [hprod, BitVec.extractLsb'_toNat, BitVec.toNat_ofInt, wi, BitVec.toNat_ofInt, Nat.shiftRight_eq_div_pow]
  generalize x.toInt * y.toInt = p
  omega

theorem wd_mulh (x y : Word) :
    wd (x.toNat * y.toNat / 2 ^ 64) = (x.zeroExtend 128 * y.zeroExtend 128).extractLsb' 64 64 := by
  apply BitVec.eq_of_toNat_eq
  rw [BitVec.extractLsb'_toNat, BitVec.toNat_mul, toNat_wd, Nat.shiftRight_eq_div_pow]
  simp only [BitVec.toNat_setWidth, BitVec.zeroExtend]
  rw [Nat.mod_eq_of_lt (a := x.toNat) (by omega), Nat.mod_eq_of_lt (a := y.toNat) (by omega)]
  generalize x.toNat * y.toNat = p
  omega

theorem divS_eq_sdiv (x y : Word) : divS x y = if y = 0 then 0xFFFFFFFFFFFFFFFF#64 else x.sdiv y := by
  unfold divS
  congr 1
  exact wi_eq_of_bmod_eq (BitVec.toInt_sdiv x y).symm

theorem divZ_eq_udiv (x y : Word) : divZ x y = if y = 0 then 0xFFFFFFFFFFFFFFFF#64 else x.udiv y := by
  unfold divZ
  congr 1
  rw [← wd_toNat (x.udiv y)]
  exact congrArg wd (BitVec.toNat_udiv).symm

theorem remS_eq_srem (x y : Word) : remS x y = if y = 0 then x else x.srem y := by
  unfold remS
  congr 1
  refine wi_eq_of_bmod_eq ?_
  rw [← BitVec.toInt_srem, BitVec.toInt_bmod_cancel]

theorem remZ_eq_umod (x y : Word) : remZ x y = if y = 0 then x else x.umod y := by
  unfold remZ
  congr 1
  rw [← wd_toNat (x.umod y)]
  exact congrArg wd (BitVec.toNat_umod).symm

/-! ## Shifts and rotation (R85) -/

theorem wd_shlN (x y : Word) : wd (shlN 64 x.toNat y.toNat) = if y.toNat < 64 then x <<< y.toNat else 0 := by
  unfold shlN
  split
  · apply BitVec.eq_of_toNat_eq
    rw [toNat_wd, Nat.mod_mod, BitVec.toNat_shiftLeft, Nat.shiftLeft_eq]
  · rfl

theorem wd_shrN (x y : Word) : wd (shrN 64 x.toNat y.toNat) = if y.toNat < 64 then x >>> y.toNat else 0 := by
  unfold shrN
  split
  · rw [← wd_toNat (x >>> y.toNat), BitVec.toNat_ushiftRight, Nat.shiftRight_eq_div_pow]
  · rfl

theorem wd_sarN (x y : Word) : wd (sarN 64 x.toNat y.toNat) =
    if y.toNat < 64 then x.sshiftRight y.toNat else if x.getLsbD 63 then 0xFFFFFFFFFFFFFFFF#64 else 0 := by
  have hsign : x.getLsbD 63 = decide (x.toInt < 0) := by rw [← BitVec.msb_eq_toInt, BitVec.msb_eq_getLsbD_last]
  have hval := sval_sarN (n := 64) (by omega) x.toNat y.toNat
  rw [sval_toNat (n := 64) (by omega) x] at hval
  have hlt : sarN 64 x.toNat y.toNat < 2 ^ 64 := wrap_lt ..
  have hback : (wd (sarN 64 x.toNat y.toNat)).toInt = sval 64 (sarN 64 x.toNat y.toNat) := by
    rw [← sval_toNat (n := 64) (by omega), toNat_wd, sval_mod]
  apply BitVec.eq_of_toInt_eq
  rw [hback, hval]
  split
  · rw [BitVec.toInt_sshiftRight, Int.shiftRight_eq_div_pow]; push_cast; rfl
  · rw [hsign]
    by_cases hneg : x.toInt < 0 <;> simp [hneg]

/-! ## Selection and counts (R86, R87) -/

theorem ite_le_eq_ite_slt (x y u v : Word) :
    (if x.toInt ≤ y.toInt then u else v) = if y.slt x then v else u := by
  rw [BitVec.slt]
  by_cases h : x.toInt ≤ y.toInt
  · simp [h, not_lt.2 h]
  · simp [h, not_le.1 h]

theorem ite_le_eq_ite_ult (x y u v : Word) :
    (if x.toNat ≤ y.toNat then u else v) = if y.ult x then v else u := by
  rw [BitVec.ult]
  by_cases h : x.toNat ≤ y.toNat
  · simp [h, not_lt.2 h]
  · simp [h, not_le.1 h]

/-- The first set bit from the top stands after the leading zeros. -/
theorem find_leading_one (x : Word) :
    ((List.range 64).find? fun n => x.getLsbD (63 - n)).getD 64 = clz 64 x.toNat := by
  obtain ⟨hle, hlt, hbit⟩ := clz_spec x.isLt
  have hzero : ∀ m, m < clz 64 x.toNat → x.getLsbD (63 - m) = false := fun m hm =>
    Nat.testBit_lt_two_pow (hlt.trans_le (Nat.pow_le_pow_right (by omega) (by omega)))
  by_cases hc : clz 64 x.toNat < 64
  · have htop : x.getLsbD (63 - clz 64 x.toNat) = true := by
      have hexp : 64 - clz 64 x.toNat = 63 - clz 64 x.toNat + 1 := by omega
      rw [hexp] at hlt hbit
      exact Nat.testBit_of_two_pow_le_and_two_pow_add_one_gt (hbit hc) hlt
    have : (List.range 64).find? (fun n => x.getLsbD (63 - n)) = some (clz 64 x.toNat) :=
      List.find?_range_eq_some.2 ⟨htop, List.mem_range.2 hc, fun j hj => by simp [hzero j hj]⟩
    rw [this, Option.getD_some]
  · have h64 : clz 64 x.toNat = 64 := by omega
    have : (List.range 64).find? (fun n => x.getLsbD (63 - n)) = none :=
      List.find?_eq_none.2 fun j hj => by
        simp [hzero j (by rw [h64]; exact List.mem_range.1 hj)]
    rw [this, Option.getD_none, h64]

/-! ## Constants and addresses (R90, R91) -/

theorem shiftLeft_or_zx (v : Word) (i : BitVec 16) : (v <<< 16) ||| zx i = v.extractLsb' 0 48 ++ i := by
  apply BitVec.eq_of_getLsbD_eq
  intro k hk
  rw [BitVec.getLsbD_append, BitVec.getLsbD_or, BitVec.getLsbD_shiftLeft, BitVec.getLsbD_extractLsb', zx,
    BitVec.getLsbD_setWidth]
  by_cases h : k < 16
  · simp [h, hk]
  · have : k - 16 < 48 := by omega
    simp [h, hk, this, BitVec.getLsbD_of_ge i k (by omega)]

theorem shiftLeft_eq_wd_mul (y : Word) (k : Nat) : y <<< k = wd (2 ^ k) * y := by
  apply BitVec.eq_of_toNat_eq
  rw [BitVec.toNat_mul, toNat_wd, BitVec.toNat_shiftLeft, Nat.shiftLeft_eq, Nat.mod_mul_mod, Nat.mul_comm]

/-! ## The uniform instructions -/

/-- Each instruction of the list is no flush point, and runs the uniform form of R78 with the value that the chapter gives. -/
theorem uniform_form (z : Bool) (d a b : BitVec 6) (i11 : BitVec 11) (i17 : BitVec 17) (i16 : BitVec 16) (sh : BitVec 2)
    (c : BitVec 5) : ∀ p ∈ uniforms z d a b i11 i17 i16 sh c, flushPoint p.1 = false ∧
      ∃ f, (∀ r, f r = p.2.2 r) ∧ ∀ s, exec p.1 s = gOp p.1 p.2.1 d.toNat f s := by
  simp only [uniforms, List.forall_mem_cons]
  refine ⟨?gadd, ?gaddImm, ?gsub, ?gmul, ?gmulhS, ?gmulhZ, ?gmad, ?gdivS, ?gdivZ, ?gremS, ?gremZ, ?gand, ?gor, ?gxor,
    ?gnot, ?gshl, ?gshr, ?gsar, ?grot, ?gminS, ?gminZ, ?gmaxS, ?gmaxZ, ?gmov, ?gclz, ?gpop, ?gmovi, ?gmovh, ?glea, ?gsel,
    fun p hp => nomatch hp⟩
  case gadd => exact ⟨rfl, _, fun _ => rfl, fun _ => rfl⟩
  case gaddImm => exact ⟨rfl, _, fun _ => rfl, fun _ => rfl⟩
  case gsub => exact ⟨rfl, _, fun _ => rfl, fun _ => rfl⟩
  case gmul => exact ⟨rfl, _, fun _ => rfl, fun _ => rfl⟩
  case gmulhS => exact ⟨rfl, _, fun _ => wi_mulh .., fun _ => rfl⟩
  case gmulhZ => exact ⟨rfl, _, fun _ => wd_mulh .., fun _ => rfl⟩
  case gmad => exact ⟨rfl, _, fun _ => BitVec.add_comm .., fun _ => rfl⟩
  case gdivS => exact ⟨rfl, _, fun _ => divS_eq_sdiv .., fun _ => rfl⟩
  case gdivZ => exact ⟨rfl, _, fun _ => divZ_eq_udiv .., fun _ => rfl⟩
  case gremS => exact ⟨rfl, _, fun _ => remS_eq_srem .., fun _ => rfl⟩
  case gremZ => exact ⟨rfl, _, fun _ => remZ_eq_umod .., fun _ => rfl⟩
  case gand => exact ⟨rfl, _, fun _ => rfl, fun _ => rfl⟩
  case gor => exact ⟨rfl, _, fun _ => rfl, fun _ => rfl⟩
  case gxor => exact ⟨rfl, _, fun _ => rfl, fun _ => rfl⟩
  case gnot => exact ⟨rfl, _, fun _ => rfl, fun _ => rfl⟩
  case gshl => exact ⟨rfl, _, fun _ => wd_shlN .., fun _ => rfl⟩
  case gshr => exact ⟨rfl, _, fun _ => wd_shrN .., fun _ => rfl⟩
  case gsar => exact ⟨rfl, _, fun _ => wd_sarN .., fun _ => rfl⟩
  case grot => exact ⟨rfl, _, fun _ => BitVec.rotateLeft_eq_rotateLeftAux_of_lt (Nat.mod_lt _ (by omega)), fun _ => rfl⟩
  case gminS => exact ⟨rfl, _, fun _ => ite_le_eq_ite_slt .., fun _ => rfl⟩
  case gminZ => exact ⟨rfl, _, fun _ => ite_le_eq_ite_ult .., fun _ => rfl⟩
  case gmaxS => exact ⟨rfl, _, fun _ => ite_le_eq_ite_slt .., fun _ => rfl⟩
  case gmaxZ => exact ⟨rfl, _, fun _ => ite_le_eq_ite_ult .., fun _ => rfl⟩
  case gmov => exact ⟨rfl, _, fun _ => rfl, fun _ => rfl⟩
  case gclz => exact ⟨rfl, _, fun _ => congrArg wd (find_leading_one _).symm, fun _ => rfl⟩
  case gpop => exact ⟨rfl, _, fun _ => congrArg wd (popcount_eq_countP ..), fun _ => rfl⟩
  case gmovi => exact ⟨rfl, _, fun _ => rfl, fun _ => rfl⟩
  case gmovh => exact ⟨rfl, _, fun _ => shiftLeft_or_zx .., fun _ => rfl⟩
  case glea => exact ⟨rfl, _, fun _ => congrArg _ (shiftLeft_eq_wd_mul ..), fun _ => rfl⟩
  case gsel => exact ⟨rfl, _, fun _ => ite_not .., fun _ => rfl⟩

end Sys2Proof.Machine

open Sys2Proof.Machine

/-- Settles O1: every uniform instruction runs the form of R78 with the value of R82 to R93. -/
theorem uniformResult : Obligations.UniformResult := by
  unfold Obligations.UniformResult
  intro z d a b i11 i17 i16 sh c p hp s x hready hbinds
  obtain ⟨hflush, f, hval, hexec⟩ := uniform_form z d a b i11 i17 i16 sh c p hp
  exact hval _ ▸ writesG_of_gOp (hexec s) hflush hready hbinds
end

section
/-! SUPPORT. Bit fields (R88, R89) bit by bit, the compare conditions of R33, and the statements about GBFX, GBFI and GCMP. -/
namespace Sys2Proof.Machine
open Claim

/-! ## Bit fields -/

theorem toNat_extractLsb'_eq_bits (x : Word) (lo n : Nat) : (x.extractLsb' lo n).toNat = bits x lo n := by
  rw [BitVec.extractLsb'_toNat, Nat.shiftRight_eq_div_pow, bits]

theorem bfLen_eq_fieldLen (y : Word) : bfLen y = fieldLen y := by
  simp only [bfLen, fieldLen, bfPos, toNat_extractLsb'_eq_bits]

theorem testBit_bits (x : Word) (lo n k : Nat) : (bits x lo n).testBit k = (decide (k < n) && x.getLsbD (lo + k)) := by
  rw [bits, Nat.testBit_mod_two_pow, Nat.testBit_div_two_pow, Nat.add_comm]; rfl

theorem getLsbD_bfxZ (x y : Word) {n : Nat} (hn : n < 64) :
    (bfxZ x y).getLsbD n = (decide (n < bfLen y) && x.getLsbD (bfPos y + n)) := by
  simp only [bfxZ, getLsbD_wd, hn, decide_true, Bool.true_and, testBit_bits]

/-- A signed reading as a dword is a sign extension. -/
theorem wi_sval {n : Nat} (hn : 0 < n) (v : Nat) : wi (sval n v) = (BitVec.ofNat n v).signExtend 64 := by
  rw [← sval_mod, ← BitVec.toNat_ofNat, sval_toNat hn]; rfl

theorem getLsbD_bfxS (x y : Word) {n : Nat} (hn : n < 64) :
    (bfxS x y).getLsbD n = (decide (bfLen y ≠ 0) && x.getLsbD (bfPos y + min n (bfLen y - 1))) := by
  unfold bfxS
  by_cases hzero : bfLen y = 0
  · simp [hzero]
  · have hfield : ∀ k < bfLen y,
        (BitVec.ofNat (bfLen y) (bits x (bfPos y) (bfLen y))).getLsbD k = x.getLsbD (bfPos y + k) := fun k hk => by
      rw [BitVec.getLsbD_ofNat, testBit_bits]; simp [hk]
    rw [if_neg hzero, wi_sval (Nat.pos_of_ne_zero hzero), BitVec.getLsbD_signExtend, BitVec.msb_eq_getLsbD_last]
    by_cases hlt : n < bfLen y
    · rw [if_pos hlt, hfield n hlt, Nat.min_eq_left (by omega)]; simp [hn, hzero]
    · rw [if_neg hlt, hfield _ (by omega), Nat.min_eq_right (by omega)]; simp [hn, hzero]

theorem getLsbD_fieldMask (len pos : Nat) {n : Nat} (hn : n < 64) :
    (wd ((2 ^ len - 1) * 2 ^ pos)).getLsbD n = decide (pos ≤ n ∧ n < pos + len) := by
  rw [getLsbD_wd, Nat.testBit_mul_two_pow, Nat.testBit_two_pow_sub_one]
  by_cases h : pos ≤ n
  · simp [hn, h, Nat.sub_lt_iff_lt_add' h]
  · simp [h]

theorem getLsbD_bfi (v x y : Word) {n : Nat} (hn : n < 64) :
    (bfi v x y).getLsbD n =
      if bfPos y ≤ n ∧ n < bfPos y + bfLen y then x.getLsbD (n - bfPos y) else v.getLsbD n := by
  simp only [bfi, BitVec.getLsbD_or, BitVec.getLsbD_and, BitVec.getLsbD_not, BitVec.getLsbD_shiftLeft,
    getLsbD_fieldMask _ _ hn]
  by_cases hin : bfPos y ≤ n ∧ n < bfPos y + bfLen y
  · simp [hin, hn]
  · simp [hin, hn]

/-- Each bit-field instruction is no flush point, and runs the uniform form of R78 with the bits that R89 gives. -/
theorem field_form (z : Bool) (d a b : BitVec 6) : ∀ p ∈ fieldBits z d a b, flushPoint p.1 = false ∧
    ∃ f : (Nat → Word) → Word, (∀ r n, n < 64 → (f r).getLsbD n = p.2.2 (r d.toNat) (r a.toNat) (r b.toNat) n) ∧
      ∀ s, exec p.1 s = gOp p.1 p.2.1 d.toNat f s := by
  simp only [fieldBits, List.forall_mem_cons, toNat_extractLsb'_eq_bits, ← bfLen_eq_fieldLen]
  refine ⟨?gbfxZ, ?gbfxS, ?gbfi, fun p hp => nomatch hp⟩
  case gbfxZ => exact ⟨rfl, fun r => bfxZ (r a.toNat) (r b.toNat), fun _ _ => getLsbD_bfxZ _ _, fun _ => rfl⟩
  case gbfxS => exact ⟨rfl, fun r => bfxS (r a.toNat) (r b.toNat), fun _ _ => getLsbD_bfxS _ _, fun _ => rfl⟩
  case gbfi => exact ⟨rfl, fun r => bfi (r d.toNat) (r a.toNat) (r b.toNat), fun _ _ => getLsbD_bfi _ _ _, fun _ => rfl⟩

/-! ## Compare conditions (R33) -/

theorem intCond_iff_condHolds {c : Nat} (hc : c < 8) (n x y : Nat) :
    intCond c n x y = true ↔ condHolds c (sval n x) (sval n y) (uval n x) (uval n y) := by
  interval_cases c <;> simp [intCond, condHolds]

theorem uval_toNat (x : Word) : uval 64 x.toNat = x.toNat := Nat.mod_eq_of_lt x.isLt

theorem wd_b2n (c : Bool) : (wd (b2n c) = 0 ∨ wd (b2n c) = 1) ∧ (wd (b2n c) = 1 ↔ c = true) := by
  cases c <;> decide

end Sys2Proof.Machine

open Sys2Proof.Machine

/-- Settles O2: the bits of R89's three field functions. -/
theorem bitFieldResult : Obligations.BitFieldResult := by
  unfold Obligations.BitFieldResult
  intro z d a b p hp s x hready hbinds
  obtain ⟨hflush, f, hbits, hexec⟩ := field_form z d a b p hp
  exact ⟨_, writesG_of_gOp (hexec s) hflush hready hbinds, hbits x.w.regs.getG⟩

/-- Settles O3: GCMP writes the truth value of the condition of R33, read at 64 bits. -/
theorem uniformCompare : Obligations.UniformCompare := by
  unfold Obligations.UniformCompare
  intro z d a b c s x hc hready hbinds
  obtain ⟨hbool, hone⟩ := wd_b2n (intCond c.toNat 64 (x.w.regs.getG a.toNat).toNat (x.w.regs.getG b.toNat).toNat)
  refine ⟨_, writesG_of_gOp (f := fun r => wd (b2n (intCond c.toNat 64 (r a.toNat).toNat (r b.toNat).toNat))) rfl rfl
    hready hbinds, hbool, hone.trans ?_⟩
  rw [intCond_iff_condHolds hc, sval_toNat (n := 64) (by omega), sval_toNat (n := 64) (by omega), uval_toNat, uval_toNat]
end

section
/-! SUPPORT. The elements of the per-lane results (R96 to R107), each as the chapter states it. -/
namespace Sys2Proof.Machine
open Claim

/-! ## Elements of two sources (R96, R97, R100, R101) -/

section
variable {n x y : Nat} (hx : x < 2 ^ n) (hy : y < 2 ^ n)

theorem satZ_add_mod : satZ n ((x : Int) + y) % 2 ^ n = min (2 ^ n - 1) (x + y) := by
  have := Nat.two_pow_pos n
  rw [satZ_add, Nat.mod_eq_of_lt (by omega)]

include hx in
theorem satZ_sub_mod : satZ n ((x : Int) - y) % 2 ^ n = x - y := by
  rw [satZ_sub hx, Nat.mod_eq_of_lt (by omega)]

include hx hy in
/-- The difference modulo a width, added back. -/
theorem sub_mod_add_mod : ((x + 2 ^ n - y) % 2 ^ n + y) % 2 ^ n = x := by
  rw [Nat.mod_add_mod, Nat.sub_add_cancel (by omega), Nat.add_mod_right, Nat.mod_eq_of_lt hx]

include hx hy in
theorem mulh_mod : x * y / 2 ^ n % 2 ^ n = x * y / 2 ^ n :=
  Nat.mod_eq_of_lt (Nat.div_lt_of_lt_mul (Nat.mul_lt_mul'' hx hy))

theorem shlN_mod : shlN n x y % 2 ^ n = if y < n then x * 2 ^ y % 2 ^ n else 0 := by
  unfold shlN
  split
  · exact Nat.mod_mod ..
  · exact Nat.zero_mod _

include hx in
theorem shrN_mod : shrN n x y % 2 ^ n = if y < n then x / 2 ^ y else 0 := by
  unfold shrN
  split
  · exact Nat.mod_eq_of_lt ((Nat.div_le_self ..).trans_lt hx)
  · exact Nat.zero_mod _

theorem sval_minS : sval n (minS n x y) = min (sval n x) (sval n y) := by
  unfold minS
  split
  next h => rw [min_eq_left h]
  next h => rw [min_eq_right (not_le.1 h).le]

theorem sval_maxS : sval n (maxS n x y) = max (sval n x) (sval n y) := by
  unfold maxS
  split
  next h => rw [max_eq_right h]
  next h => rw [max_eq_left (not_le.1 h).le]

include hx hy in
theorem minZ_mod : minZ n x y % 2 ^ n = min x y := by
  rw [minZ, uval, uval, Nat.mod_eq_of_lt hx, Nat.mod_eq_of_lt hy, ← Nat.min_def, Nat.mod_eq_of_lt (by omega)]

include hx hy in
theorem maxZ_mod : maxZ n x y % 2 ^ n = max x y := by
  rw [maxZ, uval, uval, Nat.mod_eq_of_lt hx, Nat.mod_eq_of_lt hy, ← Nat.max_def, Nat.mod_eq_of_lt (by omega)]

end

/-! ## Dot products (R98) -/

theorem elemOf_dot4 (v x y : Word) {k : Nat} (hk : k < 2) : (elemOf 32 k (dot4 v x y) : Int) =
    ((elemOf 32 k v : Int) + ((List.range 4).map fun j =>
      sval 8 (elemOf 8 (4 * k + j) x) * sval 8 (elemOf 8 (4 * k + j) y)).sum) % 2 ^ 32 := by
  rw [dot4, elemOf_wd_packElems_range (by omega) (fun k => wrap 32 _) hk, Nat.mod_eq_of_lt (wrap_lt ..), wrap,
    Int.toNat_of_nonneg (Int.emod_nonneg _ (by omega))]
  rfl

/-! ## Elements of one source (R107) -/

theorem natAbs_sval_mod {n : Nat} (hn : 0 < n) (x : Nat) : (sval n x).natAbs % 2 ^ n = (sval n x).natAbs := by
  obtain ⟨hhalf, hcast, -⟩ := two_pow_width hn
  have hlo := le_sval hn x
  have hhi := sval_lt hn x
  exact Nat.mod_eq_of_lt (by omega)

theorem clz_mod {n x : Nat} (hx : x < 2 ^ n) : clz n x % 2 ^ n = clz n x := by
  obtain ⟨hle, -⟩ := clz_spec hx
  exact Nat.mod_eq_of_lt (hle.trans_lt Nat.lt_two_pow_self)

theorem popcount_mod (n x : Nat) : popcount n x % 2 ^ n = (List.range n).countP fun j => x.testBit j := by
  have hle : popcount n x ≤ n := by
    rw [popcount_eq_countP]
    exact List.countP_le_length.trans_eq List.length_range
  rw [Nat.mod_eq_of_lt (hle.trans_lt Nat.lt_two_pow_self), popcount_eq_countP]

/-! ## Elements that change width (R107) -/

theorem elemOf_extElems {n k : Nat} (hk : k < 32 / n) (f : Nat → Nat) (x : Word) :
    elemOf (2 * n) k (extElems n f x) = f (elemOf n k x) % 2 ^ (2 * n) := by
  have hfit : 2 * n * (32 / n) ≤ 64 := by
    have := Nat.mul_div_le 32 n
    rw [Nat.mul_assoc]
    omega
  exact elemOf_wd_packElems_range hfit (fun k => f (elemOf n k x)) hk

theorem sval_wrap_double {n : Nat} (hn : 0 < n) (x : Nat) : sval (2 * n) (wrap (2 * n) (sval n x)) = sval n x := by
  have hpow : (2 : Int) ^ (n - 1) ≤ 2 ^ (2 * n - 1) := pow_le_pow_right₀ (by omega) (by omega)
  exact sval_wrap (by omega) (by have := le_sval hn x; omega) (by have := sval_lt hn x; omega)

theorem elemOf_mod_double (n k : Nat) (x : Word) : elemOf n k x % 2 ^ (2 * n) = elemOf n k x :=
  Nat.mod_eq_of_lt ((elemOf_lt n k x).trans_le (Nat.pow_le_pow_right (by omega) (by omega)))

theorem widthOf_halves (w : BitVec 2) : 0 < widthOf w / 2 ∧ widthOf w = 2 * (widthOf w / 2) := by
  have : widthOf w = 2 * (4 * 2 ^ w.toNat) := by unfold widthOf; ring
  have := Nat.two_pow_pos w.toNat
  omega

/-- The halved elements of a dword fill its low word. -/
theorem halfWidth_fits (w : BitVec 2) : widthOf w / 2 * (64 / widthOf w) ≤ 32 := by
  obtain ⟨-, heven⟩ := widthOf_halves w
  have hle := Nat.mul_div_le 64 (widthOf w)
  have : widthOf w * (64 / widthOf w) = 2 * (widthOf w / 2 * (64 / widthOf w)) := by
    rw [← Nat.mul_assoc, ← heven]
  omega

theorem toNat_narElems_lt (w : BitVec 2) (f : Nat → Nat) (x : Word) : (narElems (widthOf w) f x).toNat < 2 ^ 32 := by
  have hlt := packElems_lt (widthOf w / 2) ((List.range (64 / widthOf w)).map fun k => f (elemOf (widthOf w) k x))
  rw [List.length_map, List.length_range] at hlt
  exact (Nat.mod_le ..).trans_lt (hlt.trans_le (Nat.pow_le_pow_right (by omega) (halfWidth_fits w)))

theorem elemOf_narElems (w : BitVec 2) {k : Nat} (hk : k < 64 / widthOf w) (f : Nat → Nat) (x : Word) :
    elemOf (widthOf w / 2) k (narElems (widthOf w) f x) = f (elemOf (widthOf w) k x) % 2 ^ (widthOf w / 2) :=
  elemOf_wd_packElems_range ((halfWidth_fits w).trans (by omega)) (fun k => f (elemOf (widthOf w) k x)) hk

/-! ## Element 0 (R105) -/

theorem elemOf_zero (n : Nat) (x : Word) : elemOf n 0 x = x.toNat % 2 ^ n := by
  rw [elemOf, Nat.mul_zero, Nat.pow_zero, Nat.div_one]

theorem intCond_iff_elemOf_zero {c : Nat} (hc : c < 8) (n : Nat) (x y : Word) : intCond c n x.toNat y.toNat = true ↔
    condHolds c (sval n (elemOf n 0 x)) (sval n (elemOf n 0 y)) (elemOf n 0 x) (elemOf n 0 y) := by
  rw [intCond_iff_condHolds hc, elemOf_zero, elemOf_zero, sval_mod, sval_mod]; rfl

end Sys2Proof.Machine
end

section
/-! SUPPORT. The per-lane instructions of R96 to R107, and the statements about them. -/
namespace Sys2Proof.Machine
open Claim

/-! ## The forms of R77 -/

section
variable {i : Instr} {s : State} {x : Ctx} {g : BitVec 3} {d a b : BitVec 6} {ok : Nat → Word → Prop}

theorem writesV_of_vUnary {f : Word → Word} (he : exec i s = vUnary i g d a f s) (hp : flushPoint i = false)
    (hr : Ready i (vUses g [a.toNat] d.toNat) (activeLanes x g) false s x)
    (hl : LabelsFit x s (activeLanes x g) (vLabels x g [a.toNat]))
    (hok : ∀ l, ok l (f (x.w.regs.getV a.toNat l))) :
    WritesV i s x d.toNat (activeLanes x g) ok (vLabels x g [a.toNat]) :=
  writesV_of_laneOp (val := fun x l => f (x.w.regs.getV a.toNat l)) he hp hr hl hok

theorem writesV_of_vBinary {f : Word → Word → Word} (he : exec i s = vBinary i g d a b f s) (hp : flushPoint i = false)
    (hr : Ready i (vUses g [a.toNat, b.toNat] d.toNat) (activeLanes x g) false s x)
    (hl : LabelsFit x s (activeLanes x g) (vLabels x g [a.toNat, b.toNat]))
    (hok : ∀ l, ok l (f (x.w.regs.getV a.toNat l) (x.w.regs.getV b.toNat l))) :
    WritesV i s x d.toNat (activeLanes x g) ok (vLabels x g [a.toNat, b.toNat]) :=
  writesV_of_laneOp (val := fun x l => f (x.w.regs.getV a.toNat l) (x.w.regs.getV b.toNat l)) he hp hr hl hok

theorem writesV_of_vTernary {f : Word → Word → Word → Word} (he : exec i s = vTernary i g d a b f s)
    (hp : flushPoint i = false)
    (hr : Ready i (vUses g [a.toNat, b.toNat, d.toNat] d.toNat) (activeLanes x g) false s x)
    (hl : LabelsFit x s (activeLanes x g) (vLabels x g [a.toNat, b.toNat, d.toNat]))
    (hok : ∀ l, ok l (f (x.w.regs.getV d.toNat l) (x.w.regs.getV a.toNat l) (x.w.regs.getV b.toNat l))) :
    WritesV i s x d.toNat (activeLanes x g) ok (vLabels x g [a.toNat, b.toNat, d.toNat]) :=
  writesV_of_laneOp
    (val := fun x l => f (x.w.regs.getV d.toNat l) (x.w.regs.getV a.toNat l) (x.w.regs.getV b.toNat l)) he hp hr hl hok

end

/-- Each instruction of the list is no flush point, and runs the two-source form of R77 with elements as the chapter gives
them. -/
theorem laneBinary_form (z : Bool) (g : BitVec 3) (d a b : BitVec 6) (w : BitVec 2) :
    ∀ p ∈ laneBinaries z g d a b w (widthOf w), flushPoint p.1 = false ∧ ∃ f : Nat → Nat → Nat,
      (∀ x y, x < 2 ^ widthOf w → y < 2 ^ widthOf w → p.2 x y (f x y % 2 ^ widthOf w)) ∧
      ∀ s, exec p.1 s = vBinary p.1 g d a b (zipElems (widthOf w) f) s := by
  have hn := widthOf_pos w
  simp only [laneBinaries, List.forall_mem_cons, sval_mod]
  refine ⟨?vadd, ?vaddsS, ?vaddsZ, ?vsub, ?vsubsS, ?vsubsZ, ?vmul, ?vmulhS, ?vmulhZ, ?vshl, ?vshr, ?vsar, ?vminS, ?vminZ,
    ?vmaxS, ?vmaxZ, fun p hp => nomatch hp⟩
  case vadd => exact ⟨rfl, fun x y => x + y, fun _ _ _ _ => rfl, fun _ => rfl⟩
  case vaddsS =>
    exact ⟨rfl, fun x y => satS (widthOf w) (sval (widthOf w) x + sval (widthOf w) y), fun _ _ _ _ => sval_satS hn _,
      fun _ => rfl⟩
  case vaddsZ => exact ⟨rfl, fun x y => satZ (widthOf w) ((x : Int) + y), fun _ _ _ _ => satZ_add_mod, fun _ => rfl⟩
  case vsub => exact ⟨rfl, fun x y => x + 2 ^ widthOf w - y, fun _ _ hx hy => sub_mod_add_mod hx hy, fun _ => rfl⟩
  case vsubsS =>
    exact ⟨rfl, fun x y => satS (widthOf w) (sval (widthOf w) x - sval (widthOf w) y), fun _ _ _ _ => sval_satS hn _,
      fun _ => rfl⟩
  case vsubsZ => exact ⟨rfl, fun x y => satZ (widthOf w) ((x : Int) - y), fun _ _ hx _ => satZ_sub_mod hx, fun _ => rfl⟩
  case vmul => exact ⟨rfl, fun x y => x * y, fun _ _ _ _ => rfl, fun _ => rfl⟩
  case vmulhS =>
    exact ⟨rfl, fun x y => wrap (widthOf w) (sval (widthOf w) x * sval (widthOf w) y / (2 ^ widthOf w : Nat)),
      fun _ _ _ _ => sval_wrap_mulh hn _ _, fun _ => rfl⟩
  case vmulhZ => exact ⟨rfl, fun x y => x * y / 2 ^ widthOf w, fun _ _ hx hy => mulh_mod hx hy, fun _ => rfl⟩
  case vshl => exact ⟨rfl, shlN (widthOf w), fun _ _ _ _ => shlN_mod, fun _ => rfl⟩
  case vshr => exact ⟨rfl, shrN (widthOf w), fun _ _ hx _ => shrN_mod hx, fun _ => rfl⟩
  case vsar => exact ⟨rfl, sarN (widthOf w), fun _ _ _ _ => sval_sarN hn _ _, fun _ => rfl⟩
  case vminS => exact ⟨rfl, minS (widthOf w), fun _ _ _ _ => sval_minS, fun _ => rfl⟩
  case vminZ => exact ⟨rfl, minZ (widthOf w), fun _ _ hx hy => minZ_mod hx hy, fun _ => rfl⟩
  case vmaxS => exact ⟨rfl, maxS (widthOf w), fun _ _ _ _ => sval_maxS, fun _ => rfl⟩
  case vmaxZ => exact ⟨rfl, maxZ (widthOf w), fun _ _ hx hy => maxZ_mod hx hy, fun _ => rfl⟩

/-- Each instruction of the list is no flush point, and runs the one-source form of R77 with elements as R107 gives them. -/
theorem laneUnary_form (z : Bool) (g : BitVec 3) (d a : BitVec 6) (w : BitVec 2) :
    ∀ p ∈ laneUnaries z g d a w (widthOf w), flushPoint p.1 = false ∧ ∃ f : Nat → Nat,
      (∀ x, x < 2 ^ widthOf w → p.2 x (f x % 2 ^ widthOf w)) ∧
      ∀ s, exec p.1 s = vUnary p.1 g d a (mapElems (widthOf w) f) s := by
  simp only [laneUnaries, List.forall_mem_cons]
  refine ⟨?vabs, ?vclz, ?vpop, fun p hp => nomatch hp⟩
  case vabs =>
    exact ⟨rfl, fun x => (sval (widthOf w) x).natAbs, fun _ _ => natAbs_sval_mod (widthOf_pos w) _, fun _ => rfl⟩
  case vclz => exact ⟨rfl, clz (widthOf w), fun _ hx => (clz_mod hx).symm ▸ clz_spec hx, fun _ => rfl⟩
  case vpop => exact ⟨rfl, popcount (widthOf w), fun _ _ => popcount_mod _ _, fun _ => rfl⟩

/-- Each instruction of the list is no flush point, and runs the one-source form of R77 with a value as R107 gives it. -/
theorem laneWord_form (z : Bool) (g : BitVec 3) (d a : BitVec 6) (w : BitVec 2) :
    ∀ p ∈ laneWords z g d a w (widthOf w), flushPoint p.1 = false ∧ ∃ f : Word → Word,
      (∀ x, p.2 x (f x)) ∧ ∀ s, exec p.1 s = vUnary p.1 g d a f s := by
  obtain ⟨hhalf, -⟩ := widthOf_halves w
  simp only [laneWords, List.forall_mem_cons]
  refine ⟨?vmov, ?vnot, ?vextS, ?vextZ, ?vnar, ?vnars, fun p hp => nomatch hp⟩
  case vmov => exact ⟨rfl, fun x => x, fun _ => rfl, fun _ => rfl⟩
  case vnot => exact ⟨rfl, fun x => ~~~x, fun _ => rfl, fun _ => rfl⟩
  case vextS =>
    refine ⟨rfl, extElems (widthOf w) fun x => wrap (2 * widthOf w) (sval (widthOf w) x), fun x k hk => ?_, fun _ => rfl⟩
    rw [elemOf_extElems hk, sval_mod, sval_wrap_double (widthOf_pos w)]
  case vextZ =>
    refine ⟨rfl, extElems (widthOf w) fun x => x, fun x k hk => ?_, fun _ => rfl⟩
    rw [elemOf_extElems hk, elemOf_mod_double]
  case vnar =>
    exact ⟨rfl, narElems (widthOf w) fun x => x, fun x => ⟨toNat_narElems_lt w _ x, fun k hk => elemOf_narElems w hk _ x⟩,
      fun _ => rfl⟩
  case vnars =>
    refine ⟨rfl, narElems (widthOf w) fun x => satS (widthOf w / 2) (sval (widthOf w) x),
      fun x => ⟨toNat_narElems_lt w _ x, fun k hk => ?_⟩, fun _ => rfl⟩
    rw [elemOf_narElems w hk, sval_mod, sval_satS hhalf]

end Sys2Proof.Machine

open Sys2Proof.Machine Sys2Proof.Machine.Claim

/-- Settles O5: every instruction of the list runs the two-source form of R77 with the elements of R96, R97, R100 or R101. -/
theorem laneBinaryResult : Obligations.LaneBinaryResult := by
  unfold Obligations.LaneBinaryResult
  intro z g d a b w p hp s x hready hfit
  obtain ⟨hflush, f, hval, hexec⟩ := laneBinary_form z g d a b w p hp
  refine writesV_of_vBinary (hexec s) hflush hready hfit fun l k hk => ?_
  rw [elemOf_zipElems hk]
  exact hval _ _ (elemOf_lt ..) (elemOf_lt ..)

/-- Settles O6: the logic of R99 on whole registers, and R104's choice of elements. -/
theorem laneWholeResult : Obligations.LaneWholeResult := by
  unfold Obligations.LaneWholeResult
  intro z g d a b w
  simp only [List.forall_mem_cons]
  refine ⟨?vand, ?vor, ?vxor, ?vshufE, fun p hp => nomatch hp⟩
  case vand => exact fun s x hr hl => writesV_of_vBinary (f := (· &&& ·)) rfl rfl hr hl fun _ => rfl
  case vor => exact fun s x hr hl => writesV_of_vBinary (f := (· ||| ·)) rfl rfl hr hl fun _ => rfl
  case vxor => exact fun s x hr hl => writesV_of_vBinary (f := (· ^^^ ·)) rfl rfl hr hl fun _ => rfl
  case vshufE =>
    intro s x hr hl
    refine writesV_of_vBinary
      (f := fun x y => mapElems (widthOf w) (fun e => elemOf (widthOf w) (e % (64 / widthOf w)) x) y) rfl rfl hr hl
      fun l k hk => ?_
    rw [elemOf_mapElems hk, Nat.mod_eq_of_lt (elemOf_lt ..)]

/-- Settles O7: R97's and R98's sums onto Vd. -/
theorem laneAccumulateResult : Obligations.LaneAccumulateResult := by
  unfold Obligations.LaneAccumulateResult
  intro z g d a b w
  simp only [List.forall_mem_cons]
  refine ⟨?vmad, ?vdot4S8, fun p hp => nomatch hp⟩
  case vmad =>
    exact fun s x hr hl => writesV_of_vTernary (f := zip3Elems (widthOf w) fun v x y => v + x * y) rfl rfl hr hl
      fun l k hk => elemOf_zip3Elems hk ..
  case vdot4S8 =>
    exact fun s x hr hl => writesV_of_vTernary (f := dot4) rfl rfl hr hl fun l k hk => elemOf_dot4 _ _ _ hk

/-- Settles O8: the table of R107, R106's constant, and VBCAST, whose label joins that of G[a]. -/
theorem laneUnaryResult : Obligations.LaneUnaryResult := by
  unfold Obligations.LaneUnaryResult
  intro z g d a w i s x
  refine ⟨?elements, ?words, ?vmovi, ?vbcast⟩
  case elements =>
    intro p hp hr hl
    obtain ⟨hflush, f, hval, hexec⟩ := laneUnary_form z g d a w p hp
    refine writesV_of_vUnary (hexec s) hflush hr hl fun l k hk => ?_
    rw [elemOf_mapElems hk]
    exact hval _ (elemOf_lt ..)
  case words =>
    intro p hp hr hl
    obtain ⟨hflush, f, hval, hexec⟩ := laneWord_form z g d a w p hp
    exact writesV_of_vUnary (hexec s) hflush hr hl fun l => hval _
  case vmovi =>
    intro hr hl
    exact writesV_of_laneOp (val := fun _ _ => mapElems (widthOf w) (fun _ => (sx i).toNat) 0) rfl rfl hr hl
      fun l k hk => elemOf_mapElems hk ..
  case vbcast =>
    intro ls hr hl
    have hissuer := hr.issuerOf_eq rfl
    have hexec : exec (.vbcast z g d a) s = issue (.vbcast z g d a) _ (guardLanes s g.toNat) _ s := rfl
    rw [guardLanes_eq hissuer] at hexec
    exact writesV_of_body (val := fun _ => x.w.regs.getG a.toNat) hexec rfl hr hl rfl fun _ _ => rfl

/-- Settles O10: VCMP writes the condition of R33 on element 0. -/
theorem laneCompareResult : Obligations.LaneCompareResult := by
  unfold Obligations.LaneCompareResult
  intro z g p c a b w s x hr hl
  have hissuer := hr.issuerOf_eq rfl
  have hexec : exec (.vcmp z g p c a b w) s = issue (.vcmp z g p c a b w) _ (guardLanes s g.toNat) _ s := rfl
  rw [guardLanes_eq hissuer] at hexec
  exact ⟨_, writesP_of_body hexec rfl hr hl rfl, fun l => intCond_iff_elemOf_zero c.isLt ..⟩
end

section
/-! SUPPORT. The lanes in which VSHUF.L reads Va (R103, R369), and the statement about it and VSEL. -/
namespace Sys2Proof.Machine
open Claim

theorem getLsbD_maskOf {ls : List Nat} (hls : ∀ l ∈ ls, l < 32) (i : Nat) : (maskOf ls).getLsbD i = decide (i ∈ ls) := by
  induction ls with
  | nil => simp [maskOf]
  | cons l ls ih =>
    obtain ⟨hl, hls⟩ := List.forall_mem_cons.1 hls
    simp [maskOf, getLsbD_laneBit l i hl, ih hls]

/-- No damaged word is read where no register word that the instruction reads is damaged. -/
theorem damagedReads_eq_nil_iff {q : WRegs} {u : Uses} {act : Mask} : damagedReads q u act = [] ↔
    (∀ r ∈ u.rg, dmgKeyG r ∉ q.dmg) ∧ (∀ r ∈ u.rp, dmgKeyP r ∉ q.dmg) ∧ (∀ r ∈ u.rm, dmgKeyM r ∉ q.dmg) ∧
      ∀ r ∈ u.rv, ∀ l, (u.lanesRead act r).getLsbD l = true → dmgKeyV r l ∉ q.dmg := by
  unfold damagedReads
  by_cases hd : q.dmg = []
  · simp [hd]
  · simp [hd, List.filter_eq_nil_iff, mem_lanesOf]

/-- The lane that a V register names for an active lane (R103). -/
def shuffleSource (x : Ctx) (b : BitVec 6) (l : Nat) : Nat := ((x.w.regs.getV b.toNat l).extractLsb' 0 5).toNat

theorem shuffleSource_lt (x : Ctx) (b : BitVec 6) (l : Nat) : shuffleSource x b l < 32 := BitVec.isLt _

theorem bits_eq_shuffleSource (x : Ctx) (b : BitVec 6) (l : Nat) :
    bits (x.w.regs.getV b.toNat l) 0 5 = shuffleSource x b l := (toNat_extractLsb'_eq_bits ..).symm

/-- VSHUF.L reads Va in the lanes that the active lanes name and that have not exited; where Va is Vb, in the active lanes
too. -/
theorem getLsbD_sourceLanes {s : State} {x : Ctx} (h : issuerOf s = some x) (g : BitVec 3) (a b : BitVec 6) {t : Nat}
    (ht : (sourceLanes s g.toNat a.toNat b.toNat).getLsbD t = true) :
    (∃ l, (activeLanes x g).getLsbD l = true ∧ shuffleSource x b l = t ∧ x.w.exited.getLsbD t = false) ∨
      a.toNat = b.toNat ∧ (activeLanes x g).getLsbD t = true := by
  have hlt : ∀ t ∈ (lanesOf (activeLanes x g)).map (shuffleSource x b), t < 32 := fun t ht => by
    obtain ⟨l, -, rfl⟩ := List.mem_map.1 ht
    exact shuffleSource_lt x b l
  simp only [sourceLanes, h, bits_eq_shuffleSource, BitVec.getLsbD_or, BitVec.getLsbD_and, Bool.or_eq_true,
    Bool.and_eq_true] at ht
  obtain ⟨hnamed, hlive⟩ | hsame := ht
  · left
    have hmem := (getLsbD_maskOf hlt t).symm.trans hnamed
    obtain ⟨l, hl, hsrc⟩ := List.mem_map.1 (of_decide_eq_true hmem)
    rw [Warp.live, BitVec.getLsbD_not] at hlive
    exact ⟨l, mem_lanesOf.1 hl, hsrc, by simpa using (Bool.and_eq_true_iff.1 hlive).2⟩
  · right
    split at hsame
    next hab => exact ⟨hab, hsame⟩
    next => simp at hsame

/-- VSHUF.L is ready with the lanes that it reads in Va where it is ready but for the V words, and none of those is damaged. -/
theorem ready_vshufL {z : Bool} {g : BitVec 3} {d a b : BitVec 6} {s : State} {x : Ctx}
    (hr : Ready (.vshufL z g d a b) (vUses g [a.toNat, b.toNat] d.toNat) 0 false s x)
    (hsound : ∀ l < 32, (activeLanes x g).getLsbD l = true → dmgKeyV b.toNat l ∉ x.w.regs.dmg ∧
      (x.w.exited.getLsbD (shuffleSource x b l) = false → dmgKeyV a.toNat (shuffleSource x b l) ∉ x.w.regs.dmg)) :
    Ready (.vshufL z g d a b)
      { rv := [a.toNat, b.toNat], rp := [g.toNat], wv := [d.toNat]
        cross := [(a.toNat, sourceLanes s g.toNat a.toNat b.toNat)] } (activeLanes x g) false s x := by
  obtain ⟨-, hguard, -, -⟩ := damagedReads_eq_nil_iff.1 hr.sound
  have hactive : ∀ l, (activeLanes x g).getLsbD l = true → dmgKeyV b.toNat l ∉ x.w.regs.dmg := fun l hl =>
    (hsound l (BitVec.lt_of_getLsbD hl) hl).1
  have hsource : ∀ t, (sourceLanes s g.toNat a.toNat b.toNat).getLsbD t = true → dmgKeyV a.toNat t ∉ x.w.regs.dmg := by
    intro t ht
    obtain ⟨l, hl, rfl, hgone⟩ | ⟨hab, hl⟩ := getLsbD_sourceLanes (hr.issuerOf_eq rfl) g a b ht
    · exact (hsound l (BitVec.lt_of_getLsbD hl) hl).2 hgone
    · exact hab ▸ hactive t hl
  refine { hr with sound := damagedReads_eq_nil_iff.2 ⟨by simp, hguard, by simp, fun r hmem t ht => ?_⟩ }
  by_cases hra : a.toNat = r
  · subst hra
    exact hsource t (by simpa [Uses.lanesRead, kget] using ht)
  · have hrb : r = b.toNat := by simpa [Ne.symm hra] using hmem
    subst hrb
    exact hactive t (by simpa [Uses.lanesRead, kget, hra] using ht)

end Sys2Proof.Machine

open Sys2Proof.Machine

/-- Settles O9: VSEL over the group, and VSHUF.L with the lanes of Va that it reads. -/
theorem laneSelectResult : Obligations.LaneSelectResult := by
  unfold Obligations.LaneSelectResult
  intro z g d a b s x
  refine ⟨?vsel, ?vshufL⟩
  case vsel =>
    intro hr hl
    have hexec : exec (.vsel z g d a b) s = issue (.vsel z g d a b) _ (groupLanes s) _ s := rfl
    rw [groupLanes_eq (hr.issuerOf_eq rfl)] at hexec
    exact writesV_of_body
      (val := fun l => if (x.w.regs.getP g.toNat).getLsbD l then x.w.regs.getV a.toNat l else x.w.regs.getV b.toNat l)
      hexec rfl hr hl rfl fun _ _ => rfl
  case vshufL =>
    intro src ls hsound hr hl
    have hexec : exec (.vshufL z g d a b) s = issue (.vshufL z g d a b) _ (guardLanes s g.toNat) _ s := rfl
    rw [guardLanes_eq (hr.issuerOf_eq rfl)] at hexec
    refine writesV_of_body
      (val := fun l => if x.w.exited.getLsbD (src l) then 0 else x.w.regs.getV a.toNat (src l))
      hexec rfl (ready_vshufL hr hsound) hl ?_ fun _ _ => rfl
    simp only [bits_eq_shuffleSource]
    rfl
end

section
/-! SUPPORT. The encodings of FP32, BF16 and FP16 as numbers (R111, R112): which are NaN, and that the values of the others rise
with their codes, the sign apart. What VFCMP (R130), VFABS and VFNEG (R131) do with an element follows. -/
namespace Sys2Proof.Machine
open Claim

/-! ## Magnitude codes (R111) -/

/-- The magnitude code of an encoding: all of it but the sign bit. -/
def magCode (f : Fmt) (x : Nat) : Nat := x % 2 ^ (f.ew + f.mw)

/-- The sign bit of an encoding. -/
def signBit (f : Fmt) (x : Nat) : Bool := x / 2 ^ (f.ew + f.mw) % 2 == 1

/-- The magnitude code of the infinities of a format with IEEE 754 specials. -/
def infMag (f : Fmt) : Nat := (2 ^ f.ew - 1) * 2 ^ f.mw

/-- The value of a finite magnitude code, in units of the format's least magnitude. -/
def ulps (f : Fmt) (c : Nat) : Nat :=
  (c % 2 ^ f.mw + if c / 2 ^ f.mw = 0 then 0 else 2 ^ f.mw) * 2 ^ (c / 2 ^ f.mw - 1)

/-- The next code is one unit of its exponent further. -/
theorem ulps_succ (f : Fmt) (c : Nat) : ulps f (c + 1) = ulps f c + 2 ^ (c / 2 ^ f.mw - 1) := by
  have hpos := Nat.two_pow_pos f.mw
  have hdigits := Nat.div_add_mod c (2 ^ f.mw)
  have hm := Nat.mod_lt c hpos
  unfold ulps
  generalize c / 2 ^ f.mw = e at *
  generalize c % 2 ^ f.mw = m at *
  obtain hin | hlast : m + 1 < 2 ^ f.mw ∨ m + 1 = 2 ^ f.mw := by omega
  · have hdiv : (c + 1) / 2 ^ f.mw = e := by
      rw [← hdigits, Nat.add_assoc, Nat.mul_add_div hpos, Nat.div_eq_of_lt hin, Nat.add_zero]
    have hmod : (c + 1) % 2 ^ f.mw = m + 1 := by
      rw [← hdigits, Nat.add_assoc, Nat.mul_add_mod, Nat.mod_eq_of_lt hin]
    rw [hdiv, hmod]
    ring
  · have hdiv : (c + 1) / 2 ^ f.mw = e + 1 := by
      rw [← hdigits, Nat.add_assoc, hlast, Nat.mul_add_div hpos, Nat.div_self hpos]
    have hmod : (c + 1) % 2 ^ f.mw = 0 := by
      rw [← hdigits, Nat.add_assoc, hlast, Nat.mul_add_mod, Nat.mod_self]
    rw [hdiv, hmod, ← hlast]
    cases e with
    | zero => simp
    | succ e => simp only [Nat.add_sub_cancel, Nat.succ_ne_zero, if_false, pow_succ]; ring

theorem strictMono_ulps (f : Fmt) : StrictMono (ulps f) :=
  strictMono_nat_of_lt_succ fun c => by rw [ulps_succ]; exact Nat.lt_add_of_pos_right (Nat.two_pow_pos _)

/-! ## Values by magnitude code (R111, R112) -/

/-- The exponent field of an encoding, read from its magnitude code. -/
theorem magCode_div (f : Fmt) (x : Nat) : magCode f x / 2 ^ f.mw = x / 2 ^ f.mw % 2 ^ f.ew := by
  rw [magCode, Nat.add_comm, pow_add, Nat.mod_mul_right_div_self]

/-- The mantissa field of an encoding, read from its magnitude code. -/
theorem magCode_mod (f : Fmt) (x : Nat) : magCode f x % 2 ^ f.mw = x % 2 ^ f.mw :=
  Nat.mod_mod_of_dvd x (Nat.pow_dvd_pow 2 (Nat.le_add_left ..))

theorem lt_infMag_iff (f : Fmt) (c : Nat) : c < infMag f ↔ c / 2 ^ f.mw < 2 ^ f.ew - 1 :=
  (Nat.div_lt_iff_lt_mul (Nat.two_pow_pos _)).symm

theorem eq_infMag_iff (f : Fmt) (c : Nat) : c = infMag f ↔ c / 2 ^ f.mw = 2 ^ f.ew - 1 ∧ c % 2 ^ f.mw = 0 := by
  refine ⟨?_, fun ⟨he, hm⟩ => ?_⟩
  · rintro rfl
    simp [infMag]
  · rw [infMag, ← he, Nat.div_mul_cancel (Nat.dvd_of_mod_eq_zero hm)]

/-- The finite value that the fields of a magnitude code give, subnormal or normal. -/
theorem ulps_mul (f : Fmt) (c : Nat) : (ulps f c : ℚ) * 2 ^ f.emin =
    if c / 2 ^ f.mw = 0 then (c % 2 ^ f.mw : Nat) * (2 : ℚ) ^ f.emin
    else (c % 2 ^ f.mw + 2 ^ f.mw : Nat) * (2 : ℚ) ^ (f.emin + (c / 2 ^ f.mw : Nat) - 1) := by
  unfold ulps
  split
  next he => simp [he]
  next hne =>
    obtain ⟨e, he⟩ := Nat.exists_eq_succ_of_ne_zero hne
    have hexp : f.emin + (e.succ : Nat) - 1 = e + f.emin := by push_cast; ring
    rw [he, hexp, zpow_add₀ two_ne_zero, zpow_natCast, Nat.succ_sub_one]
    push_cast
    ring

/-- The decoding of a format with IEEE 754 specials, by sign bit and magnitude code. -/
theorem decodeF_eq {f : Fmt} (hk : f.kind = 0) (x : Nat) : decodeF f x =
    if magCode f x / 2 ^ f.mw = 2 ^ f.ew - 1 then
      if magCode f x % 2 ^ f.mw = 0 then .inf (signBit f x) else .nan
    else if magCode f x / 2 ^ f.mw = 0 then .fin (signBit f x) (magCode f x % 2 ^ f.mw) f.emin
    else .fin (signBit f x) (magCode f x % 2 ^ f.mw + 2 ^ f.mw) (f.emin + (magCode f x / 2 ^ f.mw : Nat) - 1) := by
  simp [decodeF, hk, magCode_div, magCode_mod, signBit]

/-- The value of an encoding by its magnitude code: finite, an infinity or a NaN. -/
theorem val_eq {f : Fmt} (hk : f.kind = 0) (x : Nat) : val f x =
    if magCode f x < infMag f then .fin (signBit f x) (ulps f (magCode f x) * 2 ^ f.emin)
    else if magCode f x = infMag f then .inf (signBit f x) else .nan := by
  have hle : magCode f x / 2 ^ f.mw ≤ 2 ^ f.ew - 1 := by
    rw [magCode_div]; exact Nat.le_sub_one_of_lt (Nat.mod_lt _ (Nat.two_pow_pos _))
  rw [val, decodeF_eq hk, ulps_mul]
  simp only [lt_infMag_iff, eq_infMag_iff]
  obtain he | he := hle.lt_or_eq
  · rw [if_neg he.ne, if_pos he]
    split <;> rfl
  · rw [if_pos he, if_neg he.not_lt]
    simp only [he, true_and]
    split <;> rfl

/-! ## The floating class's formats -/

/-- What the formats of the floating class (R16) share: IEEE 754 specials, a canonical NaN within the width, and finite values
below what stands for an infinity in a comparison. -/
structure IsFloat (f : Fmt) : Prop where
  kind : f.kind = 0
  infMag_pos : 0 < infMag f
  nan_lt : f.nan < 2 ^ f.width
  range : (ulps f (infMag f) : ℚ) * 2 ^ f.emin ≤ 2 ^ 200

theorem isFloat_typeOf (w : BitVec 2) : IsFloat (typeOf w) := by
  have hfp32 : IsFloat fp32 := ⟨rfl, by decide, by decide, by norm_num [fp32, Fmt.emin, ulps, infMag]⟩
  have hbf16 : IsFloat bf16 := ⟨rfl, by decide, by decide, by norm_num [bf16, Fmt.emin, ulps, infMag]⟩
  have hfp16 : IsFloat fp16 := ⟨rfl, by decide, by decide, by norm_num [fp16, Fmt.emin, ulps, infMag]⟩
  unfold typeOf
  split
  · exact hfp32
  · split
    · exact hbf16
    · exact hfp16

/-! ## Comparing (R130) -/

theorem isNaN_iff (f : Fmt) (x : Nat) : isNaN f x = true ↔ val f x = .nan := by
  unfold isNaN val
  cases decodeF f x <;> simp [Exact.of]

/-- The rational that stands for a magnitude code: a finite value as it is, an infinity at 2^200.  The codes past the infinities,
which are the NaNs', continue from there, so that the whole function rises. -/
def magRat (f : Fmt) (c : Nat) : ℚ :=
  if c < infMag f then ulps f c * 2 ^ f.emin else 2 ^ 200 + (c - infMag f : Nat)

theorem magRat_zero {f : Fmt} (hf : IsFloat f) : magRat f 0 = 0 := by
  simp [magRat, hf.infMag_pos, ulps]

theorem strictMono_magRat {f : Fmt} (hf : IsFloat f) : StrictMono (magRat f) := by
  have hunit : (0 : ℚ) < 2 ^ f.emin := by positivity
  have hulps : ∀ {b c : Nat}, b < c → (ulps f b : ℚ) * 2 ^ f.emin < ulps f c * 2 ^ f.emin := fun h =>
    mul_lt_mul_of_pos_right (Nat.cast_lt.2 (strictMono_ulps f h)) hunit
  intro b c hbc
  unfold magRat
  by_cases hc : c < infMag f
  · rw [if_pos (hbc.trans hc), if_pos hc]
    exact hulps hbc
  · rw [if_neg hc]
    by_cases hb : b < infMag f
    · rw [if_pos hb]
      calc (ulps f b : ℚ) * 2 ^ f.emin < ulps f (infMag f) * 2 ^ f.emin := hulps hb
        _ ≤ 2 ^ 200 := hf.range
        _ ≤ 2 ^ 200 + (c - infMag f : Nat) := le_add_of_nonneg_right (Nat.cast_nonneg _)
    · rw [if_neg hb]
      exact add_lt_add_right (Nat.cast_lt.2 (by omega)) _

/-- The rational that stands for a signed magnitude code. -/
def keyRat (f : Fmt) (k : Int) : ℚ := signed (decide (k < 0)) (magRat f k.natAbs)

theorem keyRat_neg {f : Fmt} (hf : IsFloat f) (k : Int) : keyRat f (-k) = -keyRat f k := by
  obtain hk | rfl | hk := lt_trichotomy k 0
  · simp [keyRat, signed, hk, hk.le]
  · simp [keyRat, signed, magRat_zero hf]
  · simp [keyRat, signed, hk, hk.le]

theorem strictMono_keyRat {f : Fmt} (hf : IsFloat f) : StrictMono (keyRat f) := by
  refine strictMono_of_odd_strictMonoOn_nonneg (keyRat_neg hf) fun j (hj : 0 ≤ j) k (hk : 0 ≤ k) hjk => ?_
  simp only [keyRat, signed, hj.not_gt, hk.not_gt, decide_false, Bool.false_eq_true, if_false]
  exact strictMono_magRat hf (by omega)

theorem compareKey_eq (f : Fmt) (x : Nat) :
    compareKey f x = if signBit f x then -(magCode f x : Int) else magCode f x := by
  simp [compareKey, signBit, magCode]

/-- The rational that a number is compared by is that of its compare key. -/
theorem rat_val {f : Fmt} (hf : IsFloat f) {x : Nat} (hx : val f x ≠ .nan) : (val f x).rat = keyRat f (compareKey f x) := by
  have hrat : (val f x).rat = signed (signBit f x) (magRat f (magCode f x)) := by
    rw [val_eq hf.kind] at hx ⊢
    unfold magRat
    split
    next => rfl
    next hfin =>
      rw [if_neg hfin] at hx
      split
      next hinf => simp [Exact.rat, hinf]
      next hinf => exact absurd (if_neg hinf) hx
  rw [hrat, compareKey_eq]
  cases signBit f x with
  | false => simp [keyRat, (Int.natCast_nonneg _).not_gt]
  | true => rw [if_pos rfl, keyRat_neg hf]; simp [keyRat, signed]

/-- The model's comparison of two encodings is the condition on their values. -/
theorem compareF_iff_floatCond {f : Fmt} (hf : IsFloat f) {c : Nat} (hc : c < 8) (x y : Nat) :
    compareF f c x y = true ↔ floatCond c (val f x) (val f y) := by
  have hnx := isNaN_iff f x
  have hny := isNaN_iff f y
  by_cases hun : val f x = .nan ∨ val f y = .nan
  · have hmodel : (isNaN f x || isNaN f y) = true := by simpa [hnx, hny] using hun
    interval_cases c <;> simp [compareF, floatCond, hmodel, hun]
  · have hmodel : (isNaN f x || isNaN f y) = false := by
      simpa [← Bool.not_eq_true, hnx, hny] using hun
    obtain ⟨hx, hy⟩ := not_or.1 hun
    have hmono := strictMono_keyRat hf
    interval_cases c <;>
      simp [compareF, floatCond, hmodel, hx, hy, rat_val hf, hmono.lt_iff_lt, hmono.le_iff_le, hmono.injective.eq_iff]

/-! ## The sign bit (R131) -/

theorem Fmt.width_eq (f : Fmt) : f.width = f.ew + f.mw + 1 := by unfold Fmt.width; omega

theorem Fmt.width_sub_one (f : Fmt) : f.width - 1 = f.ew + f.mw := by rw [f.width_eq, Nat.add_sub_cancel]

/-- Inverting bit `k` of a number of `k + 1` bits leaves the bits below it. -/
theorem xor_two_pow_spec {k x : Nat} (hx : x < 2 ^ (k + 1)) :
    x ^^^ 2 ^ k < 2 ^ (k + 1) ∧ (x ^^^ 2 ^ k) % 2 ^ k = x % 2 ^ k ∧ (2 ^ k ≤ x ^^^ 2 ^ k ↔ x < 2 ^ k) := by
  have hpos := Nat.two_pow_pos k
  refine ⟨Nat.xor_lt_two_pow hx (Nat.pow_lt_pow_right (by omega) (by omega)), by simp [Nat.xor_mod_two_pow], ?_⟩
  have htop : x / 2 ^ k < 2 := Nat.div_lt_of_lt_mul (by rwa [← pow_succ])
  rw [← Nat.one_le_div_iff hpos, ← Nat.div_eq_zero_iff_lt hpos, Nat.xor_div_two_pow, Nat.div_self hpos]
  generalize x / 2 ^ k = t at htop
  interval_cases t <;> simp

/-- What an element that R131 gives is: the canonical NaN for a NaN, and for a number what holds of it. -/
def signResult (f : Fmt) (ok : Nat → Nat → Prop) (e r : Nat) : Prop :=
  (val f e = .nan → r = f.nan) ∧ (val f e ≠ .nan → ok e r)

/-- An element function that makes a NaN canonical does to the numbers what it does to them within the width. -/
theorem signResult_of_ite {f : Fmt} (hf : IsFloat f) {ok : Nat → Nat → Prop} {e v : Nat} (hok : ok e (v % 2 ^ f.width)) :
    signResult f ok e ((if isNaN f e then f.nan else v) % 2 ^ f.width) := by
  by_cases hn : val f e = .nan
  · rw [if_pos ((isNaN_iff f e).2 hn)]
    exact ⟨fun _ => Nat.mod_eq_of_lt hf.nan_lt, fun h => absurd hn h⟩
  · rw [if_neg ((isNaN_iff f e).not.2 hn)]
    exact ⟨fun h => absurd h hn, fun _ => hok⟩

theorem signResult_absF {f : Fmt} (hf : IsFloat f) (e : Nat) :
    signResult f (fun e r => r = e % 2 ^ (f.width - 1)) e (absF f e % 2 ^ f.width) := by
  refine signResult_of_ite hf ?_
  rw [f.width_sub_one, f.width_eq]
  exact Nat.mod_eq_of_lt ((Nat.mod_lt _ (Nat.two_pow_pos _)).trans (Nat.pow_lt_pow_succ Nat.one_lt_two))

theorem signResult_negF {f : Fmt} (hf : IsFloat f) {e : Nat} (he : e < 2 ^ f.width) :
    signResult f (fun e r => r % 2 ^ (f.width - 1) = e % 2 ^ (f.width - 1) ∧ (2 ^ (f.width - 1) ≤ r ↔ e < 2 ^ (f.width - 1)))
      e (negF f e % 2 ^ f.width) := by
  refine signResult_of_ite hf ?_
  rw [f.width_eq] at he
  obtain ⟨hlt, hspec⟩ := xor_two_pow_spec he
  rw [f.width_sub_one, f.width_eq, Nat.mod_eq_of_lt hlt]
  exact hspec

end Sys2Proof.Machine

open Sys2Proof.Machine Sys2Proof.Machine.Claim

/-- Settles O14: VFCMP by the order of the compare keys, VFABS and VFNEG element by element. -/
theorem floatCompareAndSign : Obligations.FloatCompareAndSign := by
  unfold Obligations.FloatCompareAndSign
  intro z g p c d a b w s x
  have hf := isFloat_typeOf w
  simp only [List.forall_mem_cons]
  refine ⟨?vfcmp, ?vfabs, ?vfneg, fun q hq => nomatch hq⟩
  case vfcmp =>
    intro hr hl
    have hexec : exec (.vfcmp z g p c a b w) s = issue (.vfcmp z g p c a b w) _ (guardLanes s g.toNat) _ s := rfl
    rw [guardLanes_eq (hr.issuerOf_eq rfl)] at hexec
    exact ⟨_, writesP_of_body hexec rfl hr hl rfl, fun l => compareF_iff_floatCond hf c.isLt ..⟩
  case vfabs =>
    intro hr hl
    refine writesV_of_vUnary (f := mapElems (typeOf w).width (absF (typeOf w))) rfl rfl hr hl fun l k hk => ?_
    rw [elemOf_mapElems hk]
    exact signResult_absF hf _
  case vfneg =>
    intro hr hl
    refine writesV_of_vUnary (f := mapElems (typeOf w).width (negF (typeOf w))) rfl rfl hr hl fun l k hk => ?_
    rw [elemOf_mapElems hk]
    exact signResult_negF hf (elemOf_lt ..)
end
